-- ==== Sys2Proof/Word.lean ====
section
/-! DEFINITION. The word types of the device and their plainest arithmetic (R3: bit 0 is the least significant). -/

namespace Sys2Proof

/-- A scalar register, an instruction word, a virtual address (R42, R100). -/
abbrev W64 := BitVec 64
/-- One lane of a vector register; a lane mask (R63, R112). -/
abbrev W32 := BitVec 32
/-- Up to 16 bytes of store data or the widest access (R165, R172). -/
abbrev W128 := BitVec 128
/-- The smallest addressable unit of every memory (R3). -/
abbrev Byte := BitVec 8

/-- Sign extension of the low bits to 64 bits. -/
abbrev sext64 {n : Nat} (x : BitVec n) : W64 := x.signExtend 64
/-- Zero extension to 64 bits. -/
abbrev zext64 {n : Nat} (x : BitVec n) : W64 := x.zeroExtend 64
/-- Sign extension to 32 bits. -/
abbrev sext32 {n : Nat} (x : BitVec n) : W32 := x.signExtend 32

/-- The numbers 0 to n - 1 that satisfy p, ascending. -/
def upTo (n : Nat) (p : Nat → Bool) : List Nat := (List.range n).filter p

/-- Field [hi:lo] of a natural number, both ends included (R3). -/
def natField (x hi lo : Nat) : Nat := (x >>> lo) % 2 ^ (hi + 1 - lo)

end Sys2Proof
end

