-- ==== Sys2Proof/Machine/Float.lean ====
section
/-! DEFINITION. Number formats and rounding (R62 to R72): values are exact until one rounding. -/

namespace Sys2Proof.Machine

/-- A floating-point format: exponent bits, fraction bits, and whether it is E4M3, which has no infinity (R62). -/
structure FFmt where
  e : Nat
  f : Nat
  e4 : Bool
  deriving DecidableEq, Repr

/-- The format of a code of R48. -/
def ffmt (code : Nat) : FFmt :=
  match code with
  | 9 => ⟨5, 10, false⟩
  | 10 => ⟨8, 7, false⟩
  | 11 => ⟨4, 3, true⟩
  | 12 => ⟨5, 2, false⟩
  | _ => ⟨8, 23, false⟩

/-- FP32. -/
def fp32 : FFmt := ⟨8, 23, false⟩
/-- BF16. -/
def bf16 : FFmt := ⟨8, 7, false⟩

/-- The exponent bias (R62). -/
def FFmt.bias (x : FFmt) : Nat := 2 ^ (x.e - 1) - 1
/-- The width in bits (R62). -/
def FFmt.width (x : FFmt) : Nat := 1 + x.e + x.f
/-- The exponent of the smallest subnormal (R62). -/
def FFmt.emin (x : FFmt) : Int := 1 - (x.bias : Int) - (x.f : Int)
/-- The magnitude bits of the largest finite value (R62). -/
def FFmt.maxBits (x : FFmt) : Nat := if x.e4 then 0x7E else (2 ^ x.e - 1) * 2 ^ x.f - 1
/-- The magnitude bits of infinity, in a format that has one (R62). -/
def FFmt.infBits (x : FFmt) : Nat := (2 ^ x.e - 1) * 2 ^ x.f
/-- The canonical NaN (R62, R67). -/
def FFmt.nanBits (x : FFmt) : Nat := if x.e4 then 0x7F else x.infBits + 2 ^ (x.f - 1)
/-- Bits with a sign. -/
def FFmt.signed (x : FFmt) (neg : Bool) (bits : Nat) : Nat := if neg then 2 ^ (x.e + x.f) + bits else bits

/-- An exact value: NaN, a signed infinity, or (-1)^neg m 2^e. -/
inductive FVal where
  | nan
  | inf (neg : Bool)
  | fin (neg : Bool) (m : Nat) (e : Int)
  deriving DecidableEq, Repr

/-- The value of some bits (R62). -/
def fdec (x : FFmt) (bits : Nat) : FVal :=
  let neg := decide (bits / 2 ^ (x.e + x.f) % 2 = 1)
  let ex := bits / 2 ^ x.f % 2 ^ x.e
  let fr := bits % 2 ^ x.f
  if ex = 0 then .fin neg fr x.emin
  else if ex = 2 ^ x.e - 1 ∧ (x.e4 = false ∨ fr = 7) then
    if x.e4 then .nan else if fr = 0 then .inf neg else .nan
  else .fin neg (2 ^ x.f + fr) (x.emin + (ex : Int) - 1)

/-- A subnormal input read as zero under .ftz (R66). -/
def flushIn (x : FFmt) (ftz : Bool) (bits : Nat) : Nat :=
  if ftz && bits / 2 ^ x.f % 2 ^ x.e == 0 then bits / 2 ^ (x.e + x.f) % 2 * 2 ^ (x.e + x.f) else bits

/-- Whether a magnitude of remainder rem below a unit of 2^sh is rounded up; odd is the parity of the kept part, sticky says
that more lies below (R64). -/
def roundsUp (mode : Nat) (neg odd : Bool) (rem half : Nat) (sticky : Bool) : Bool :=
  match mode with
  | 0 => decide (half < rem) || (decide (rem = half) && decide (0 < half) && (sticky || odd))
  | 1 => false
  | 2 => !neg && (decide (0 < rem) || sticky)
  | _ => neg && (decide (0 < rem) || sticky)

/-- m 2^e in units of 2^q, rounded (R64). -/
def roundUnits (mode : Nat) (neg : Bool) (m : Nat) (e q : Int) (sticky : Bool) : Nat :=
  if q ≤ e then
    let n := m * 2 ^ (e - q).toNat
    if roundsUp mode neg (decide (n % 2 = 1)) 0 0 sticky then n + 1 else n
  else
    let sh := (q - e).toNat
    let n := m / 2 ^ sh
    if roundsUp mode neg (decide (n % 2 = 1)) (m % 2 ^ sh) (2 ^ (sh - 1)) sticky then n + 1 else n

/-- The magnitude bits of m 2^e rounded as though the exponent had no upper limit (R64, R65). -/
def roundBits (x : FFmt) (mode : Nat) (neg : Bool) (m : Nat) (e : Int) (sticky : Bool) : Nat :=
  let q := max ((Nat.log2 m : Int) + e - (x.f : Int)) x.emin
  let n := roundUnits mode neg m e q sticky
  (q - x.emin).toNat * 2 ^ x.f + n

/-- Bits and whether the result overflowed. -/
structure Rounded where
  bits : Nat
  ov : Bool
  deriving DecidableEq, Repr

/-- The result of an overflow of a finite value (R65, R71); E4M3 under .out is the caller's. -/
def overBits (x : FFmt) (mode ovf : Nat) (neg : Bool) : Nat :=
  if x.e4 then (if ovf = 2 then x.nanBits else x.signed neg x.maxBits)
  else if ovf = 1 then x.signed neg x.maxBits
  else match mode with
    | 0 => x.signed neg x.infBits
    | 1 => x.signed neg x.maxBits
    | 2 => x.signed neg (if neg then x.maxBits else x.infBits)
    | _ => x.signed neg (if neg then x.infBits else x.maxBits)

/-- A value rounded to a format (R64 to R67, R71). -/
def fround (x : FFmt) (mode ovf : Nat) (ftz : Bool) (v : FVal) (sticky : Bool := false) : Rounded :=
  match v with
  | .nan => ⟨x.nanBits, false⟩
  | .inf neg =>
    if x.e4 then ⟨overBits x mode ovf neg, true⟩
    else if ovf = 1 then ⟨x.signed neg x.maxBits, true⟩
    else ⟨x.signed neg x.infBits, false⟩
  | .fin neg m e =>
    if m = 0 then ⟨x.signed neg 0, false⟩
    else
      let b := roundBits x mode neg m e sticky
      if x.maxBits < b then ⟨overBits x mode ovf neg, true⟩
      else if ftz && decide (b < 2 ^ x.f) then ⟨x.signed neg 0, false⟩
      else ⟨x.signed neg b, false⟩

/-- The sign of a value. -/
def FVal.neg : FVal → Bool
  | .nan => false
  | .inf n => n
  | .fin n _ _ => n

/-- A value with its sign changed. -/
def FVal.negate : FVal → FVal
  | .nan => .nan
  | .inf n => .inf (!n)
  | .fin n m e => .fin (!n) m e

/-- The magnitude of a value. -/
def FVal.abs : FVal → FVal
  | .nan => .nan
  | .inf _ => .inf false
  | .fin _ m e => .fin false m e

/-- A signed integer of a finite value in units of 2^q, q at most its exponent. -/
def FVal.units (neg : Bool) (m : Nat) (e q : Int) : Int :=
  let n : Int := (m * 2 ^ (e - q).toNat : Nat)
  if neg then -n else n

/-- The exact sum (R64, R67); the mode decides the sign of an exact zero. -/
def fsum (mode : Nat) (a b : FVal) : FVal :=
  match a, b with
  | .nan, _ => .nan
  | _, .nan => .nan
  | .inf x, .inf y => if x = y then .inf x else .nan
  | .inf x, .fin _ _ _ => .inf x
  | .fin _ _ _, .inf y => .inf y
  | .fin na ma ea, .fin nb mb eb =>
    if ma = 0 ∧ mb = 0 then .fin (if na = nb then na else decide (mode = 3)) 0 0
    else
      let q := min ea eb
      let z := FVal.units na ma ea q + FVal.units nb mb eb q
      if z = 0 then .fin (decide (mode = 3)) 0 0 else .fin (decide (z < 0)) z.natAbs q

/-- The exact product (R64, R67). -/
def fprod (a b : FVal) : FVal :=
  match a, b with
  | .nan, _ => .nan
  | _, .nan => .nan
  | .inf x, .inf y => .inf (x != y)
  | .inf x, .fin y m _ => if m = 0 then .nan else .inf (x != y)
  | .fin x m _, .inf y => if m = 0 then .nan else .inf (x != y)
  | .fin x m e, .fin y n f => .fin (x != y) (m * n) (e + f)

/-- Exact comparison; none where a NaN takes part. -/
def fcompare (a b : FVal) : Option Ordering :=
  match a, b with
  | .nan, _ => none
  | _, .nan => none
  | .inf x, .inf y => some (if x = y then .eq else if x then .lt else .gt)
  | .inf x, .fin _ _ _ => some (if x then .lt else .gt)
  | .fin _ _ _, .inf y => some (if y then .gt else .lt)
  | .fin na ma ea, .fin nb mb eb =>
    let q := min ea eb
    some (compare (FVal.units na ma ea q) (FVal.units nb mb eb q))

/-- a < b, false where a NaN takes part. -/
def flt (a b : FVal) : Bool := fcompare a b == some .lt
/-- a at most b, false where a NaN takes part. -/
def fle (a b : FVal) : Bool := fcompare a b == some .lt || fcompare a b == some .eq

/-- A value rounded to an integer (R70); none for NaN, some none stands for neither infinity. -/
def roundInt (mode : Nat) (neg : Bool) (m : Nat) (e : Int) : Int :=
  let n : Int := roundUnits mode neg m e 0 false
  if neg then -n else n

/-- The exact value of an integer (R70: zero gives +0). -/
def FVal.ofInt (z : Int) : FVal := .fin (decide (z < 0)) z.natAbs 0

/-- FP32 value of a lane. -/
def f32 (x : W32) : FVal := fdec fp32 x.toNat
/-- A value rounded to FP32, ties to even. -/
def toF32 (v : FVal) : W32 := BitVec.ofNat 32 (fround fp32 0 0 false v).bits
/-- FP32 sum, ties to even, no flush. -/
def f32add (a b : W32) : W32 := toF32 (fsum 0 (f32 a) (f32 b))
/-- FP32 product, ties to even, no flush. -/
def f32mul (a b : W32) : W32 := toF32 (fprod (f32 a) (f32 b))
/-- BF16 value of 16 bits. -/
def b16 (x : Nat) : FVal := fdec bf16 x
/-- A value rounded to BF16, ties to even. -/
def toB16 (v : FVal) : Nat := (fround bf16 0 0 false v).bits

end Sys2Proof.Machine
end

