-- ==== Sys2Proof/Machine/Trans.lean ====
section
/-! DEFINITION. The special functions, rounded once from their exact values (R139). A function whose value has no finite
expansion is computed in fixed point with far more bits than its rounding looks at: 2^-320 and 2^-512 are the units. -/

namespace Sys2Proof.Machine

/-- Fractional bits of the exponential and the logarithm. -/
def fx : Nat := 320
/-- Fractional bits of the sine and cosine. -/
def gx : Nat := 512

/-- The bits of a square root, rounded down, from bit b on. -/
def isqrtFrom (n : Nat) : Nat → Nat → Nat
  | 0, acc => acc
  | b + 1, acc => if (acc + 2 ^ b) * (acc + 2 ^ b) ≤ n then isqrtFrom n b (acc + 2 ^ b) else isqrtFrom n b acc

/-- The square root, rounded down. -/
def isqrt (n : Nat) : Nat := isqrtFrom n (Nat.log2 n / 2 + 1) 0

/-- sum of z^(2k+1) / (2k+1) in units of 2^-p: the area tangent. -/
def atanhSum (p z2 : Nat) : Nat → Nat → Nat → Nat
  | 0, _, _ => 0
  | fuel + 1, k, t => t / (2 * k + 1) + atanhSum p z2 fuel (k + 1) (t * z2 / 2 ^ p)

/-- The area tangent of z, in units of 2^-p. -/
def atanhFix (p z : Nat) : Nat := atanhSum p (z * z / 2 ^ p) (p / 3) 0 z

/-- sum of (-1)^k z^(2k+1) / (2k+1) for z = 1/d, in units of 2^-p: the arc tangent. -/
def atanSum (d : Nat) : Nat → Nat → Int → Int
  | 0, _, _ => 0
  | fuel + 1, k, t => t / (2 * (k : Int) + 1) + atanSum d fuel (k + 1) (-(t / ((d * d : Nat) : Int)))

/-- ln 2 in units of 2^-fx. -/
def ln2Fix : Nat := 2 * atanhFix fx (2 ^ fx / 3)

/-- π/2 in units of 2^-gx, by Machin's formula. -/
def halfPiFix : Nat :=
  (8 * atanSum 5 120 0 (((2 ^ (gx + 16)) / 5 : Nat) : Int) - 2 * atanSum 239 40 0 (((2 ^ (gx + 16)) / 239 : Nat) : Int)).toNat / 2 ^ 16

/-- sum of y^n / n! from term t on. -/
def expSum (y : Nat) : Nat → Nat → Nat → Nat
  | 0, _, _ => 0
  | fuel + 1, n, t => t + expSum y fuel (n + 1) (t * y / 2 ^ fx / n)

/-- The alternating sum of r^k / k! over k of one parity, from term t of power k on. -/
def trigSum (r2 : Int) : Nat → Nat → Int → Int
  | 0, _, _ => 0
  | fuel + 1, k, t => t + trigSum r2 fuel (k + 2) (-(t * r2 / 2 ^ gx / (((k + 1) * (k + 2) : Nat) : Int)))

/-- sin r for r in units of 2^-gx. -/
def sinFix (r : Nat) : Int := trigSum (((r * r / 2 ^ gx : Nat)) : Int) 70 1 (r : Int)
/-- cos r for r in units of 2^-gx. -/
def cosFix (r : Nat) : Int := trigSum (((r * r / 2 ^ gx : Nat)) : Int) 70 0 (2 ^ gx : Int)

/-- An exact or truncated result. -/
structure Approx where
  v : FVal
  more : Bool
  deriving DecidableEq, Repr

/-- Rounded to FP32 (R139). (Log 40: UNVERIFIED.) -/
def Approx.round (x : Approx) (mode : Nat) (ftz : Bool) : W32 := BitVec.ofNat 32 (fround fp32 mode 0 ftz x.v x.more).bits

/-- 1/a. -/
def recipOf (a : FVal) : Approx :=
  match a with
  | .nan => ⟨.nan, false⟩
  | .inf n => ⟨.fin n 0 0, false⟩
  | .fin n m e =>
    if m = 0 then ⟨.inf n, false⟩
    else
      let k := 64 + Nat.log2 m
      ⟨.fin n (2 ^ k / m) (-(k : Int) - e), decide (2 ^ k % m ≠ 0)⟩

/-- A significand and an even exponent. -/
def evenExp (m : Nat) (e : Int) : Nat × Int := if e % 2 = 0 then (m, e) else (2 * m, e - 1)

/-- √a. -/
def sqrtOf (a : FVal) : Approx :=
  match a with
  | .nan => ⟨.nan, false⟩
  | .inf n => if n then ⟨.nan, false⟩ else ⟨.inf false, false⟩
  | .fin n m e =>
    if m = 0 then ⟨.fin n 0 0, false⟩
    else if n then ⟨.nan, false⟩
    else
      let (m, e) := evenExp m e
      let x := m * 2 ^ 80
      let r := isqrt x
      ⟨.fin false r ((e - 80) / 2), decide (r * r ≠ x)⟩

/-- 1/√a. -/
def rsqrtOf (a : FVal) : Approx :=
  match a with
  | .nan => ⟨.nan, false⟩
  | .inf n => if n then ⟨.nan, false⟩ else ⟨.fin false 0 0, false⟩
  | .fin n m e =>
    if m = 0 then ⟨.inf n, false⟩
    else if n then ⟨.nan, false⟩
    else
      let (m, e) := evenExp m e
      let k := 64 + Nat.log2 m
      let r := isqrt (2 ^ (2 * k) / m)
      ⟨.fin false r (-(k : Int) - e / 2), decide (r * r * m ≠ 2 ^ (2 * k))⟩

/-- 2^a. -/
def exp2Of (a : FVal) : Approx :=
  match a with
  | .nan => ⟨.nan, false⟩
  | .inf n => if n then ⟨.fin false 0 0, false⟩ else ⟨.inf false, false⟩
  | .fin n m e =>
    if m = 0 then ⟨.fin false 1 0, false⟩
    else if 8 < (Nat.log2 m : Int) + e then
      if n then ⟨.fin false 1 (-400), true⟩ else ⟨.inf false, false⟩
    else
      let x : Int := FVal.units n m e (-(fx : Int))
      let k : Int := x / 2 ^ fx
      let f := (x - k * 2 ^ fx).toNat
      if f = 0 then ⟨.fin false 1 k, false⟩
      else ⟨.fin false (expSum (f * ln2Fix / 2 ^ fx) 90 1 (2 ^ fx)) (k - (fx : Int)), true⟩

/-- log₂ a. -/
def log2Of (a : FVal) : Approx :=
  match a with
  | .nan => ⟨.nan, false⟩
  | .inf n => if n then ⟨.nan, false⟩ else ⟨.inf false, false⟩
  | .fin n m e =>
    if m = 0 then ⟨.inf true, false⟩
    else if n then ⟨.nan, false⟩
    else
      let k := Nat.log2 m
      let z := (m - 2 ^ k) * 2 ^ fx / (m + 2 ^ k)
      let i : Int := (k : Int) + e
      if m = 2 ^ k then ⟨FVal.ofInt i, false⟩
      else
        let x : Int := i * 2 ^ fx + ((2 * atanhFix fx z * 2 ^ fx / ln2Fix : Nat) : Int)
        ⟨.fin (decide (x < 0)) x.natAbs (-(fx : Int)), true⟩

/-- sin or cos of a finite value whose magnitude is at least 2^-30, the argument reduced by multiples of π/2. -/
def trigOf (cosine neg : Bool) (m : Nat) (e : Int) : Approx :=
  let x := (FVal.units false m e (-(gx : Int))).toNat
  let q := x / halfPiFix
  let r := x - q * halfPiFix
  let y : Int := match (q + (if cosine then 1 else 0)) % 4 with
    | 0 => sinFix r
    | 1 => cosFix r
    | 2 => -sinFix r
    | _ => -cosFix r
  let y := if neg && !cosine then -y else y
  ⟨.fin (decide (y < 0)) y.natAbs (-(gx : Int)), true⟩

/-- sin a: a value below 2^-30 in magnitude differs from its sine by far less than half a unit of FP32. -/
def sinOf (a : FVal) : Approx :=
  match a with
  | .fin n m e => if m = 0 ∨ (Nat.log2 m : Int) + e < -30 then ⟨a, false⟩ else trigOf false n m e
  | _ => ⟨.nan, false⟩

/-- cos a; below 2^-30 in magnitude it rounds to 1. -/
def cosOf (a : FVal) : Approx :=
  match a with
  | .fin n m e => if m = 0 ∨ (Nat.log2 m : Int) + e < -30 then ⟨.fin false 1 0, false⟩ else trigOf true n m e
  | _ => ⟨.nan, false⟩

end Sys2Proof.Machine
end

