-- ==== Sys2Proof/Machine/Sparse.lean ====
section
/-! DEFINITION. Finite maps from numbers to data, held as lists: memories in one canonical form, and register files. -/

namespace Sys2Proof

/-- What the map holds at i; d where it lists nothing. -/
def sget {β : Type} (d : β) : List (Nat × β) → Nat → β
  | [], _ => d
  | (k, v) :: t, i => if k = i then v else sget d t i

/-- The map with x at i (register files: every write stays listed). -/
def sput {β : Type} : List (Nat × β) → Nat → β → List (Nat × β)
  | [], i, x => [(i, x)]
  | (k, v) :: t, i, x =>
    if i < k then (i, x) :: (k, v) :: t
    else if i = k then (i, x) :: t
    else (k, v) :: sput t i x

/-- The map with x at i in canonical form: keys strictly rising, no entry equal to d. -/
def cput {β : Type} [DecidableEq β] (d : β) : List (Nat × β) → Nat → β → List (Nat × β)
  | [], i, x => if x = d then [] else [(i, x)]
  | (k, v) :: t, i, x =>
    if i < k then (if x = d then (k, v) :: t else (i, x) :: (k, v) :: t)
    else if i = k then (if x = d then t else (i, x) :: t)
    else (k, v) :: cput d t i x

/-- Keys strictly rising from lo on, and no entry equal to d. -/
def wfFrom {β : Type} [DecidableEq β] (d : β) : Nat → List (Nat × β) → Bool
  | _, [] => true
  | lo, (k, v) :: t => decide (lo ≤ k) && decide (v ≠ d) && wfFrom d (k + 1) t

/-- The canonical form of a memory. -/
def Memory.wf (m : List (Nat × BitVec 8)) : Bool := wfFrom 0#8 0 m

/-- What a byte of memory that nothing has written reads as (R375 for the drawer, R101 for scratchpads). -/
def Memory.unwritten : BitVec 8 := 0#8

/-- One byte of a memory. -/
def Memory.read (m : List (Nat × BitVec 8)) (a : Nat) : BitVec 8 := sget Memory.unwritten m a

/-- A memory with one byte written. -/
def Memory.write (m : List (Nat × BitVec 8)) (a : Nat) (b : BitVec 8) : List (Nat × BitVec 8) :=
  cput Memory.unwritten m a b

/-- A memory with a list of bytes written from an address upward. -/
def Memory.writeAll (m : List (Nat × BitVec 8)) (a : Nat) : List (BitVec 8) → List (Nat × BitVec 8)
  | [] => m
  | b :: bs => Memory.writeAll (Memory.write m a b) (a + 1) bs

/-- The memory written with each listed (address, byte) in turn. -/
def Memory.writeEach (m : List (Nat × BitVec 8)) : List (Nat × BitVec 8) → List (Nat × BitVec 8)
  | [] => m
  | (a, b) :: t => Memory.writeEach (Memory.write m a b) t

/-- n bytes from an address upward. -/
def Memory.readN (m : List (Nat × BitVec 8)) (a : Nat) : Nat → List (BitVec 8)
  | 0 => []
  | n + 1 => Memory.read m a :: Memory.readN m (a + 1) n

/-- The little-endian value of a list of bytes (R3). -/
def leNat : List (BitVec 8) → Nat
  | [] => 0
  | b :: t => b.toNat + 256 * leNat t

/-- The n little-endian bytes of a value (R3). -/
def leBytes : Nat → Nat → List (BitVec 8)
  | 0, _ => []
  | n + 1, x => BitVec.ofNat 8 x :: leBytes n (x / 256)

end Sys2Proof
end

