-- ==== Sys2Proof/Config.lean ====
section
/-! DEFINITION. What the part fixes, and the values the manual leaves open: constants without a body, of which
nothing can be proved but what holds for every choice. -/

namespace Sys2Proof.Config

/-- Cores of the device (R15, R20). -/
def nCores : Nat := 640
/-- Cores of one C-die (R11). -/
def coresPerDie : Nat := 160
/-- Slat slots of a core (R14). -/
def nSlots : Nat := 64
/-- Bytes of a core's scratchpad (R14). -/
def spadBytes : Nat := 262144
/-- Tiles of a core's accumulator memory (R263). -/
def nTiles : Nat := 64
/-- Cycles an entry stays in the hold window at least (R85). -/
def holdAge : Nat := 256
/-- Entries of the operand log of a slat (R165). -/
def logSize : Nat := 8
/-- Largest value of a dependency counter (R54). -/
def ctrMax : Nat := 63
/-- Entries of the engine queue of a core (R264). -/
def engineQueue : Nat := 16
/-- Delta records a core holds at most (R211). -/
def maxRecords : Nat := 384
/-- Budget entries of one gauge directory (R211). -/
def maxBudget : Nat := 2048
/-- Veneer entries of the device (R226). -/
def nVeneers : Nat := 1024
/-- Grids of the active-grid table (R315). -/
def maxGrids : Nat := 4096
/-- Entries of a core's L1 TLB (R158). -/
def l1TlbSize : Nat := 512
/-- Entries of a C-die's last-level TLB (R158). -/
def dieTlbSize : Nat := 16384
/-- Lines of a core's L1 data cache: 192 KiB (R14, R17). -/
def l1Lines : Nat := 1536
/-- Lines of a core's L1 instruction cache: 64 KiB (R14). -/
def l1iLines : Nat := 512
/-- Ways of L2 (R17). -/
def l2Ways : Nat := 16
/-- Sets of an L2 slice: 3 MiB in 16 ways (R17, R20). -/
def l2Sets : Nat := 1536
/-- Slots of a frame (R20, R180). -/
def frameSlots : Nat := 128
/-- Slots from a drawer command to its data (R183). -/
def readLag : Nat := 80

/-- The device's root secret, which no software level reads (R379). -/
opaque rootSecret : List Byte
/-- The device label of the attestation key (R379). -/
opaque deviceLabel : List Byte
/-- AES-256-XTS of a line under one 256-bit key with the line's address as tweak (R372, R376): how the key serves both halves is not
stated, so both directions are uninterpreted. -/
opaque xtsEncrypt : List Byte → Nat → List Byte → List Byte
/-- The inverse of `xtsEncrypt` (R376), uninterpreted. -/
opaque xtsDecrypt : List Byte → Nat → List Byte → List Byte
/-- The 64-bit MAC under Ki (R372); the manual names no algorithm, so it is uninterpreted. -/
opaque lineMac : List Byte → List Byte → W64
/-- Falcon-1024 verification of a signature over a message under a public key (R381, R384, R385), uninterpreted. -/
opaque falconVerify : List Byte → List Byte → List Byte → Bool
/-- Falcon-1024 signature of a message under the key grown from a seed (R383), uninterpreted. -/
opaque falconSign : List Byte → List Byte → List Byte
/-- The public key that signs firmware and debug unlock tokens; the manual names no value (R384, R385). -/
opaque vendorKey : List Byte
/-- The device's fabric number, which system software assigns at bring-up (R295): a free value. -/
opaque fabricFree : Nat
/-- The fabric number, 0 to 4094 (R295: 4095 is never assigned). -/
def fabricNumber : Nat := fabricFree % 4095
/-- The ways of an L1 set beyond two, and the set of a line: R169 speaks of sets and the manual gives neither number nor hash. -/
opaque l1MoreWays : Nat
/-- The set of a line in an L1, before its reduction to the number of sets; a free value. -/
opaque l1Hash : Nat → Nat
/-- The ways of an L1 set: at least two, since R169 halves one. -/
def l1Ways : Nat := l1MoreWays + 2
/-- The set of a line in its L2 slice, before its reduction to the number of sets; the manual gives no hash, a free value. -/
opaque l2Hash : Nat → Nat
/-- The device that a debug unlock token names, and its partition: R385 gives no layout of the record, so both are free functions of its bytes. -/
opaque tokenDevice : List Byte → List Byte
/-- The partition that a token names. -/
opaque tokenPart : List Byte → Nat
/-- What the management interface reports where the firmware's signature fails (R390); the manual gives no form, a free value. -/
opaque bootFailure : List Byte
/-- What the last core of a C-die has counted when the model's clock is at 0 (R9, R393: there is no machine-wide time base); a free value. -/
opaque cycBase : Nat → Nat
/-- The text offsets that an image's symbols mark as `.entry` (R39, R381): R381 gives no symbol format, so a free value of the image. -/
opaque entryOffsets : List Byte → List Nat
/-- The value an uncorrectable error leaves in an element of accumulator memory (R275), a free value. -/
opaque accGarbage : Nat → W32
/-- The bank key drawn for the n-th context created (R171), a free value. -/
opaque bankKey : Nat → BitVec 11
/-- The power readings of PWR_STAT at a given moment (R394), free values: optics, hub, module. -/
opaque powerReading : Nat → Nat × Nat × Nat
/-- A data byte that the manual leaves open: what a register or a byte would hold where no rule states it. -/
opaque freeWord : Nat → W64

/-- The hub firmware of the unit as shipped (R384, R390). -/
opaque firmware : List Byte

end Sys2Proof.Config
end

