-- ==== Sys2Proof/Syntax.lean ====
section
/-! DEFINITION. The steps of the device: one constructor per row of spec/opcode_table.json. An encoded instruction carries
the fields of its format (R42 to R52); an event carries the names of what it acts on. -/

namespace Sys2Proof

/-- A guard field (R42): bit 3 negates, bits [2:0] select a predicate. -/
structure Guard where
  neg : Bool
  p : BitVec 3
  deriving DecidableEq, Repr

/-- The fixed fields of every instruction word but its opcode (R42). -/
structure Hdr where
  g1 : Guard
  g2 : Guard
  hint : BitVec 2
  deriving DecidableEq, Repr

/-- An 8-bit source field by its kind (R47): vector register, scalar register, latch, constant. -/
inductive Src where
  | v (n : BitVec 6)
  | s (n : BitVec 6)
  | y (n : BitVec 6)
  | k (n : BitVec 6)
  deriving DecidableEq, Repr

/-- The mod field of format R (R48). -/
structure Mod where
  fmt : BitVec 4
  rnd : BitVec 2
  ftz : Bool
  ovf : BitVec 2
  sub : BitVec 4
  deriving DecidableEq, Repr

/-- Format R (R45). -/
structure ROp where
  h : Hdr
  nw : Bool
  dst : BitVec 6
  a : Src
  b : Src
  c : Src
  m : Mod
  deriving DecidableEq, Repr

/-- Format I (R45). -/
structure IOp where
  h : Hdr
  nw : Bool
  dst : BitVec 6
  a : Src
  imm : BitVec 29
  deriving DecidableEq, Repr

/-- An opcode whose operand area is zero (R59). -/
structure ZOp where
  h : Hdr
  area : BitVec 44
  deriving DecidableEq, Repr

/-- Format M (R46), the atomic variant and the clamp instructions (R202) included: they read [10:0] differently. -/
structure MOp where
  h : Hdr
  nw : Bool
  dst : BitVec 6
  bn : BitVec 4
  off : Src
  data : Src
  ctr : BitVec 3
  width : BitVec 3
  imm : BitVec 11
  deriving DecidableEq, Repr

/-- Format X, async layout (R52). -/
structure XOp where
  h : Hdr
  sD : BitVec 6
  sS : BitVec 6
  sN : BitVec 6
  sE : BitVec 6
  ctr : BitVec 3
  cont : Bool
  c16 : BitVec 16
  deriving DecidableEq, Repr

/-- Format X, matrix layout (R52). -/
structure TOp where
  h : Hdr
  tile : BitVec 6
  va : BitVec 6
  vb : BitVec 6
  sF : BitVec 6
  ctr : BitVec 3
  p : Bool
  prog : BitVec 4
  qtr : BitVec 2
  z : BitVec 10
  deriving DecidableEq, Repr

/-- Format X, system layout (R52). -/
structure YOp where
  h : Hdr
  sD : BitVec 6
  sA : BitVec 6
  sB : BitVec 6
  z : BitVec 6
  ctr : BitVec 3
  imm : BitVec 17
  deriving DecidableEq, Repr

/-- What the drawer's data comes back with (R377): clean, one error corrected, or a tag failure or uncorrectable error. -/
inductive FillErr where
  | none
  | corrected
  | bad
  deriving DecidableEq, Repr

/-- A put of another device that reaches this device's fabric agent (R295, R298). -/
structure PeerPut where
  dev : Nat
  fn : Nat
  win : Nat
  rank : Nat
  off : Nat
  bytes : List Byte
  ncl : Bool
  coff : Nat
  own : Option Nat
  ctx : Nat
  part : Nat
  lost : Bool
  deriving DecidableEq, Repr

/-- A get of another device that reaches this device's fabric agent (R299). -/
structure PeerGet where
  dev : Nat
  fn : Nat
  win : Nat
  rank : Nat
  off : Nat
  len : Nat
  own : Option Nat
  ctx : Nat
  part : Nat
  deriving DecidableEq, Repr

/-- What comes back across the host port (R85, R98, R358): the data of a host-located line, ownership of a mailbox line, or
the acknowledgement of the oldest entry of the host port queue. -/
inductive HostResp where
  | fill (line : Nat)
  | own (line : Nat)
  | ack
  deriving DecidableEq, Repr

/-- What the environment decides of a boot (R390): whether the firmware's signature verifies, which C-dies' clocks lock,
how many host port modules train, and which drawer and fabric links fail to train. -/
structure BootOutcome where
  fwOk : Bool
  dies : List Nat
  modules : Nat
  badLinks : List Nat
  badFab : List Nat
  deriving DecidableEq, Repr

/-- The steps of the device, one constructor per row of the opcode table, in its order. -/
inductive Instr where
  /-- CLAUSE_ISSUE (R53): A fragment chosen at a clause boundary fetches a header, waits on its counters, decodes the whole clause and
  issues its instructions in order. -/
  | clauseIssue (core quad : Nat)
  /-- SMOV (R109): Copies a scalar operand to a scalar register. -/
  | smov (o : ROp)
  /-- SADD (R108): Adds two scalar operands modulo 2^64. -/
  | sadd (o : ROp)
  /-- SSUB (R108): Subtracts two scalar operands modulo 2^64. -/
  | ssub (o : ROp)
  /-- SMUL (R108): Writes the low 64 bits of the product of two scalar operands. -/
  | smul (o : ROp)
  /-- SMULH (R108): Writes the high 64 bits of the signed or unsigned 128-bit scalar product. -/
  | smulh (o : ROp)
  /-- SAND (R108): Bitwise and of two scalar operands. -/
  | sand (o : ROp)
  /-- SOR (R108): Bitwise or of two scalar operands. -/
  | sor (o : ROp)
  /-- SXOR (R108): Bitwise exclusive or of two scalar operands. -/
  | sxor (o : ROp)
  /-- SSHL (R108): Shifts a scalar left by a register count, giving 0 at 64 or more. -/
  | sshl (o : ROp)
  /-- SSHR (R108): Shifts a scalar logically right by a register count. -/
  | sshr (o : ROp)
  /-- SSAR (R108): Shifts a scalar arithmetically right by a register count. -/
  | ssar (o : ROp)
  /-- SMIN (R108): Writes the lesser of two scalars, signed or unsigned. -/
  | smin (o : ROp)
  /-- SMAX (R108): Writes the greater of two scalars, signed or unsigned. -/
  | smax (o : ROp)
  /-- SCMP_SIGNED (R110): Compares two scalars as signed and writes a q predicate, register form. -/
  | scmpSigned (o : ROp)
  /-- SCMP_UNSIGNED (R110): Compares two scalars as unsigned and writes a q predicate, register form. -/
  | scmpUnsigned (o : ROp)
  /-- SSEL (R109): Selects one of two scalars by a q predicate. -/
  | ssel (o : ROp)
  /-- SCLZ (R109): Counts the leading zero bits of a scalar. -/
  | sclz (o : ROp)
  /-- SPOP (R109): Counts the one bits of a scalar. -/
  | spop (o : ROp)
  /-- SXLAT (R111): Translates a virtual base through the TLBs and writes a translation register resolved or unresolved. -/
  | sxlat (o : ROp)
  /-- SLI (R109): Loads a sign-extended 29-bit immediate into a scalar register. -/
  | sli (o : IOp)
  /-- SLIH (R109): Shifts a scalar left 29 and inserts a 29-bit immediate. -/
  | slih (o : IOp)
  /-- SRD (R109): Reads the control register numbered by the immediate into a scalar register. -/
  | srd (o : IOp)
  /-- SWR (R109): Writes a control register, governing the device from the commit of the clause. -/
  | swr (o : IOp)
  /-- SADD_I (R108): Adds a sign-extended immediate to a scalar. -/
  | saddI (o : IOp)
  /-- SSUB_I (R108): Subtracts a sign-extended immediate from a scalar. -/
  | ssubI (o : IOp)
  /-- SMUL_I (R108): Multiplies a scalar by a sign-extended immediate. -/
  | smulI (o : IOp)
  /-- SAND_I (R108): Bitwise and of a scalar with an immediate. -/
  | sandI (o : IOp)
  /-- SOR_I (R108): Bitwise or of a scalar with an immediate. -/
  | sorI (o : IOp)
  /-- SXOR_I (R108): Bitwise exclusive or of a scalar with an immediate. -/
  | sxorI (o : IOp)
  /-- SSHL_I (R108): Shifts a scalar left by an immediate count 0-63. -/
  | sshlI (o : IOp)
  /-- SSHR_I (R108): Shifts a scalar logically right by an immediate count. -/
  | sshrI (o : IOp)
  /-- SSAR_I (R108): Shifts a scalar arithmetically right by an immediate count. -/
  | ssarI (o : IOp)
  /-- SCMP_SIGNED_I (R110): Compares a scalar with an immediate as signed and writes a q predicate. -/
  | scmpSignedI (o : IOp)
  /-- SCMP_UNSIGNED_I (R110): Compares a scalar with an immediate as unsigned and writes a q predicate. -/
  | scmpUnsignedI (o : IOp)
  /-- BRA (R116): Uniform branch of the whole fragment to a clause header. -/
  | bra (o : IOp)
  /-- BRA_DIVERGENT (R113): Divergent branch that splits the fragment into taken and fall-through entries or a deferral record. -/
  | braDivergent (o : IOp)
  /-- BRX (R116): Branches to a word address held in a scalar. -/
  | brx (o : ROp)
  /-- CALL (R116): Writes the return address to a scalar and branches. -/
  | call (o : IOp)
  /-- RET (R116): Branches to a return address held in a scalar. -/
  | ret (o : ROp)
  /-- EXIT (R117): Removes the fragment's lanes from the slat, ending it when no lane remains. -/
  | exit (o : ZOp)
  /-- YIELD (R116): Branches and defers the fragment in the quadrant's choice. -/
  | yield (o : IOp)
  /-- NOP (R116): Does nothing. -/
  | nop (o : ZOp)
  /-- PART (R118): Sets the slat's lane tile width %part. -/
  | part (o : IOp)
  /-- MOV (R132): Copies a 32- or 64-bit operand to a vector register. -/
  | mov (o : ROp)
  /-- IADD (R123): Adds up to three integer operands per lane, wrapping or saturating. -/
  | iadd (o : ROp)
  /-- ISUB (R123): Subtracts integer operands per lane, wrapping or saturating. -/
  | isub (o : ROp)
  /-- IADDC (R123): Writes the carry out of a three-operand 32-bit add. -/
  | iaddc (o : ROp)
  /-- ISUBB (R123): Writes the borrow out of a three-operand 32-bit subtraction. -/
  | isubb (o : ROp)
  /-- IMUL (R124): Writes the low half of an integer product per lane. -/
  | imul (o : ROp)
  /-- IMULH (R124): Writes the high half of an integer product per lane. -/
  | imulh (o : ROp)
  /-- IMAD (R124): Integer multiply-add modulo 2^32 per lane. -/
  | imad (o : ROp)
  /-- IMIN (R125): Writes the lesser integer operand per lane. -/
  | imin (o : ROp)
  /-- IMAX (R125): Writes the greater integer operand per lane. -/
  | imax (o : ROp)
  /-- IABS (R125): Writes the absolute value per lane, optionally saturating. -/
  | iabs (o : ROp)
  /-- LGF (R126): Computes a bitwise three-input Boolean function given in algebraic normal form. -/
  | lgf (o : ROp)
  /-- SHL (R127): Shifts each lane left by a register count. -/
  | shl (o : ROp)
  /-- SHR (R127): Shifts each lane logically right by a register count. -/
  | shr (o : ROp)
  /-- SAR (R127): Shifts each lane arithmetically right by a register count. -/
  | sar (o : ROp)
  /-- ROT (R127): Rotates each lane left by a register count. -/
  | rot (o : ROp)
  /-- CLZ (R128): Counts leading zero bits per lane. -/
  | clz (o : ROp)
  /-- POP (R128): Counts one bits per lane. -/
  | pop (o : ROp)
  /-- BREV (R128): Reverses the bit order of each lane. -/
  | brev (o : ROp)
  /-- BFX (R129): Extracts a bit field per lane, sign- or zero-extended. -/
  | bfx (o : ROp)
  /-- BFI (R129): Inserts a bit field into each lane. -/
  | bfi (o : ROp)
  /-- BMIX (R130): Builds each result byte from the bytes of two operands under control bytes. -/
  | bmix (o : ROp)
  /-- ICMP_SIGNED (R131): Compares integers as signed and writes a p predicate, register form. -/
  | icmpSigned (o : ROp)
  /-- ICMP_UNSIGNED (R131): Compares integers as unsigned and writes a p predicate, register form. -/
  | icmpUnsigned (o : ROp)
  /-- SEL (R131): Selects one of two operands per lane by a p predicate. -/
  | sel (o : ROp)
  /-- IEXT (R132): Sign- or zero-extends an 8-, 16- or 32-bit source per lane. -/
  | iext (o : ROp)
  /-- LI (R132): Loads a sign-extended immediate into each lane. -/
  | li (o : IOp)
  /-- IADD_I (R123): Adds a sign-extended immediate per lane. -/
  | iaddI (o : IOp)
  /-- ISUB_I (R123): Subtracts a sign-extended immediate per lane. -/
  | isubI (o : IOp)
  /-- IMUL_I (R124): Multiplies each lane by a sign-extended immediate. -/
  | imulI (o : IOp)
  /-- SHL_I (R127): Shifts each lane left by an immediate count. -/
  | shlI (o : IOp)
  /-- SHR_I (R127): Shifts each lane logically right by an immediate count. -/
  | shrI (o : IOp)
  /-- SAR_I (R127): Shifts each lane arithmetically right by an immediate count. -/
  | sarI (o : IOp)
  /-- ROT_I (R127): Rotates each lane left by an immediate count. -/
  | rotI (o : IOp)
  /-- ICMP_SIGNED_I (R131): Compares each lane with an immediate as signed and writes a p predicate. -/
  | icmpSignedI (o : IOp)
  /-- ICMP_UNSIGNED_I (R131): Compares each lane with an immediate as unsigned and writes a p predicate. -/
  | icmpUnsignedI (o : IOp)
  /-- FADD (R134): FP32 add with one rounding, register form. -/
  | fadd (o : ROp)
  /-- FSUB (R134): FP32 subtract with one rounding, register form. -/
  | fsub (o : ROp)
  /-- FMUL (R134): FP32 multiply with one rounding, register form. -/
  | fmul (o : ROp)
  /-- FFMA (R134): Fused FP32 multiply-add with one rounding. -/
  | ffma (o : ROp)
  /-- FMIN (R135): Returns the lesser FP32 operand unchanged, register form. -/
  | fmin (o : ROp)
  /-- FMAX (R135): Returns the greater FP32 operand unchanged, register form. -/
  | fmax (o : ROp)
  /-- FCMP (R136): Compares FP32 operands and writes a p predicate. -/
  | fcmp (o : ROp)
  /-- FRND (R137): Rounds FP32 to an integral value in the instruction's mode. -/
  | frnd (o : ROp)
  /-- FSCL (R137): Scales FP32 by a power of two with one rounding. -/
  | fscl (o : ROp)
  /-- FCLASS (R138): Writes a one-hot class mask for a value in the named format. -/
  | fclass (o : ROp)
  /-- FRCP (R139): Correctly rounded FP32 reciprocal. -/
  | frcp (o : ROp)
  /-- FRSQ (R139): Correctly rounded FP32 reciprocal square root. -/
  | frsq (o : ROp)
  /-- FSQRT (R139): Correctly rounded FP32 square root in the instruction's mode. -/
  | fsqrt (o : ROp)
  /-- FEX2 (R139): Correctly rounded FP32 power of two. -/
  | fex2 (o : ROp)
  /-- FLG2 (R139): Correctly rounded FP32 base-two logarithm. -/
  | flg2 (o : ROp)
  /-- FSIN (R139): Correctly rounded FP32 sine. -/
  | fsin (o : ROp)
  /-- FCOS (R139): Correctly rounded FP32 cosine. -/
  | fcos (o : ROp)
  /-- FCVT (R140): Converts between integer and float formats per lane, optionally appending outliers. -/
  | fcvt (o : ROp)
  /-- PFADD (R142): Packed FP16 or BF16 add of two elements per lane. -/
  | pfadd (o : ROp)
  /-- PFMUL (R142): Packed FP16 or BF16 multiply of two elements per lane. -/
  | pfmul (o : ROp)
  /-- PFFMA (R142): Packed FP16 or BF16 fused multiply-add per element. -/
  | pffma (o : ROp)
  /-- PFCVT (R143): Converts between packed and unpacked float forms. -/
  | pfcvt (o : ROp)
  /-- FADD_I (R134): FP32 add of an immediate, round to nearest even. -/
  | faddI (o : IOp)
  /-- FSUB_I (R134): FP32 subtract of an immediate. -/
  | fsubI (o : IOp)
  /-- FMUL_I (R134): FP32 multiply by an immediate. -/
  | fmulI (o : IOp)
  /-- FMIN_I (R135): FP32 minimum with an immediate. -/
  | fminI (o : IOp)
  /-- FMAX_I (R135): FP32 maximum with an immediate. -/
  | fmaxI (o : IOp)
  /-- SHF (R149): Shuffles values within each tile by a per-lane lane operand. -/
  | shf (o : ROp)
  /-- SHF_I (R149): Shuffles values within each tile by an immediate lane operand and mode. -/
  | shfI (o : IOp)
  /-- VALL (R150): Writes whether a predicate holds in every active lane of the tile. -/
  | vall (o : ROp)
  /-- VANY (R150): Writes whether a predicate holds in any active lane of the tile. -/
  | vany (o : ROp)
  /-- VBAL (R150): Writes the ballot mask of active lanes where a predicate holds. -/
  | vbal (o : ROp)
  /-- VMATCH (R151): Writes the mask of tile lanes with bitwise equal operands. -/
  | vmatch (o : ROp)
  /-- SCAN (R153): Inclusive or exclusive scan over the tile in the fixed tree order. -/
  | scan (o : ROp)
  /-- LRED (R153): Reduces the tile in the fixed tree order and writes the result to every active lane. -/
  | lred (o : ROp)
  /-- ISECT (R154): Intersects two sorted element lists across a tile and writes mask and advance counts. -/
  | isect (o : ROp)
  /-- LD (R173): Per-lane global load on the ls path. -/
  | ld (o : MOp)
  /-- ST (R173): Per-lane global store on the ls path. -/
  | st (o : MOp)
  /-- LDS (R173): Per-lane load from the slat's own scratchpad share. -/
  | lds (o : MOp)
  /-- STS (R173): Per-lane store to the slat's own scratchpad share. -/
  | sts (o : MOp)
  /-- LDP (R170): Per-lane load from a team or gang peer's scratchpad share. -/
  | ldp (o : MOp)
  /-- STP (R170): Per-lane store to a team or gang peer's scratchpad share. -/
  | stp (o : MOp)
  /-- SLD (R173): Scalar global load once for the slat. -/
  | sld (o : MOp)
  /-- SST (R173): Scalar global store once for the slat. -/
  | sst (o : MOp)
  /-- PREF (R174): Requests lines into L2 and L1 without architectural access or fault. -/
  | pref (o : MOp)
  /-- ACC (R218): Adds values into a bounded region, withholding them in the core's record under its gauge or sending them to home. -/
  | acc (o : MOp)
  /-- LDT (R219): Reads a bounded element under a tolerance. -/
  | ldt (o : MOp)
  /-- DRN (R220): Drains the core's withheld deltas for a line, a region or all regions. -/
  | drn (o : MOp)
  /-- GRD (R220): Reads the core's gauge and share for a line into a scalar. -/
  | grd (o : MOp)
  /-- BND (R217): Reads, checks and installs a bounded-region descriptor after settling the old region. -/
  | bnd (o : ROp)
  /-- ATM_ADD (R194): Global atomic integer add. -/
  | atmAdd (o : MOp)
  /-- ATM_MIN (R194): Global atomic signed or unsigned minimum. -/
  | atmMin (o : MOp)
  /-- ATM_MAX (R194): Global atomic signed or unsigned maximum. -/
  | atmMax (o : MOp)
  /-- ATM_AND (R194): Global atomic bitwise and. -/
  | atmAnd (o : MOp)
  /-- ATM_OR (R194): Global atomic bitwise or. -/
  | atmOr (o : MOp)
  /-- ATM_XOR (R194): Global atomic bitwise exclusive or. -/
  | atmXor (o : MOp)
  /-- ATM_XCHG (R194): Global atomic exchange. -/
  | atmXchg (o : MOp)
  /-- ATM_CAS (R194): Global atomic compare and swap. -/
  | atmCas (o : MOp)
  /-- ATM_FADD (R194): Global atomic FP32 or packed BF16 add. -/
  | atmFadd (o : MOp)
  /-- ATM_FMAX (R194): Global atomic FP32 or packed BF16 maximum. -/
  | atmFmax (o : MOp)
  /-- ATMS_ADD (R194): Scratchpad atomic integer add. -/
  | atmsAdd (o : MOp)
  /-- ATMS_MIN (R194): Scratchpad atomic minimum. -/
  | atmsMin (o : MOp)
  /-- ATMS_MAX (R194): Scratchpad atomic maximum. -/
  | atmsMax (o : MOp)
  /-- ATMS_AND (R194): Scratchpad atomic bitwise and. -/
  | atmsAnd (o : MOp)
  /-- ATMS_OR (R194): Scratchpad atomic bitwise or. -/
  | atmsOr (o : MOp)
  /-- ATMS_XOR (R194): Scratchpad atomic bitwise exclusive or. -/
  | atmsXor (o : MOp)
  /-- ATMS_XCHG (R194): Scratchpad atomic exchange. -/
  | atmsXchg (o : MOp)
  /-- ATMS_CAS (R194): Scratchpad atomic compare and swap. -/
  | atmsCas (o : MOp)
  /-- ATMS_FADD (R194): Scratchpad atomic FP32 or packed BF16 add. -/
  | atmsFadd (o : MOp)
  /-- ATMS_FMAX (R194): Scratchpad atomic FP32 or packed BF16 maximum. -/
  | atmsFmax (o : MOp)
  /-- FEN (R198): Places release and/or acquire markers on the named paths at a scope, optionally with promotion. -/
  | fen (o : ROp)
  /-- CLMI (R203): Initialises a clamp as one relaxed step. -/
  | clmi (o : MOp)
  /-- CLMX (R203): Adds to a clamp's byte expectation as one step. -/
  | clmx (o : MOp)
  /-- CLMA (R203): Releases at device scope and then arrives at a clamp. -/
  | clma (o : MOp)
  /-- CLMW (R203): Reads a clamp at home and parks on a watch until its phase changes, err is set or the team is abandoned. -/
  | clmw (o : MOp)
  /-- CLMT (R203): Tests a clamp's phase and err into a q predicate, with an acquire. -/
  | clmt (o : MOp)
  /-- TBAR (R205): Releases, arrives at the team barrier and parks until every live slat has arrived, then acquires. -/
  | tbar (o : ZOp)
  /-- CPY (R239): Records or performs an identity copy through source and destination home steps. -/
  | cpy (o : XOp)
  /-- CPYE (R239): Performs an identity copy eagerly, recording nothing. -/
  | cpye (o : XOp)
  /-- REL (R239): Copies through a transform descriptor, recording interior pieces where allowed. -/
  | rel (o : XOp)
  /-- CPYS (R240): Copies global bytes into the core's own scratchpad share. -/
  | cpys (o : XOp)
  /-- CPYM (R241): Multicasts global bytes into the shares of a peer set, counting chunks at each receiving clamp. -/
  | cpym (o : XOp)
  /-- MAT (R242): Materialises every veneered destination line of a range. -/
  | mat (o : XOp)
  /-- VDROP (R243): Gives up veneered destination lines of a range without materialising them. -/
  | vdrop (o : XOp)
  /-- VSTAT (R244): Reads the veneer state of a line as one home step. -/
  | vstat (o : XOp)
  /-- MMA_F8 (R272): Adds exact FP8 products into a tile's block partials and, with .p, promotes and checks for suspect elements. -/
  | mmaF8 (o : TOp)
  /-- MMA_BF (R272): Adds BF16 products into a tile with one FP32 rounding. -/
  | mmaBf (o : TOp)
  /-- MMA_I8 (R272): Adds signed 8-bit products into a tile modulo 2^32. -/
  | mmaI8 (o : TOp)
  /-- AZERO (R273): Zeroes a tile and its block state. -/
  | azero (o : TOp)
  /-- ARD (R273): Reads one quarter of a tile into eight vector registers. -/
  | ard (o : TOp)
  /-- AWR (R273): Writes one quarter of a tile from eight vector registers. -/
  | awr (o : TOp)
  /-- FIN (R287): Drains a tile through a finish program to scratchpad, global memory or registers. -/
  | fin (o : TOp)
  /-- FPL (R280): Loads and checks a finish program into a program slot. -/
  | fpl (o : TOp)
  /-- XPUT (R298): Reads a local source and sends it into a peer's receive window. -/
  | xput (o : XOp)
  /-- XRED (R300): Contributes a chunk to a switch reduction keyed by group, epoch and chunk. -/
  | xred (o : XOp)
  /-- XGET (R299): Requests bytes from a peer's window and writes them locally. -/
  | xget (o : XOp)
  /-- XFEN (R302): Parks the slat until every older fabric transfer is acknowledged. -/
  | xfen (o : XOp)
  /-- DEQ (R333): Takes one item from a queue into eight scalars or parks until one arrives. -/
  | deq (o : YOp)
  /-- ENQ (R333): Releases and puts one item into a device-written work queue. -/
  | enq (o : YOp)
  /-- LNCH (R334): Reads and checks a launch record and enters a child grid. -/
  | lnch (o : YOp)
  /-- CWAIT (R334): Parks until a named child grid, or every child, has retired. -/
  | cwait (o : YOp)
  /-- TRAP (R335): Raises TRAP with a code. -/
  | trap (o : YOp)
  /-- RTI (R335): Returns from a trap handler to %tepc and releases held fragments. -/
  | rti (o : YOp)
  /-- BRK (R335): Raises BREAK with a code. -/
  | brk (o : YOp)
  /-- CTXS (R348): Stops, quiesces and saves a unit of teams as a context image. -/
  | ctxs (o : YOp)
  /-- CTXL (R349): Checks a context image and restores its teams. -/
  | ctxl (o : YOp)
  /-- TLBI (R336): Invalidates translations of named contexts across the partition. -/
  | tlbi (o : YOp)
  /-- PATH_ENTRY_LEAVE (R82): An entry leaves its path queue when no older same-line entry or incomplete marker blocks it, and is served or
  enters the hold window. -/
  | pathEntryLeave (uid seq : Nat)
  /-- FAULT_RECORD_WRITE (R328): A held fault or kill record is written once a fault service queue becomes usable. -/
  | faultRecordWrite (fn : Nat)
  /-- RELEASE_MARKER_COMPLETE (R90): A release marker completes when older entries reach its scope's coherence point, after issuing drains
  of accumulated lines. -/
  | releaseMarkerComplete (uid seq : Nat)
  /-- ACQUIRE_MARKER_COMPLETE (R91): An acquire marker completes after older entries complete, dropping clean L1 copies at home scope and
  promoting if asked. -/
  | acquireMarkerComplete (uid seq : Nat)
  /-- HOLD_WINDOW_EXIT (R85): The head of a core's hold window, at least 256 cycles old, exits and is applied at its home, bank, host port
  queue or peer queue. -/
  | holdWindowExit (core : Nat)
  /-- HOME_READ (R83): A home slice serves a read-class request, resolving veneers and bounded lines, and fills L1. -/
  | homeRead (req : Nat)
  /-- HOME_WRITE (R18): A home slice serves a store or kst write after its veneer and bounded-region steps. -/
  | homeWrite (req : Nat)
  /-- ATOMIC_STEP (R86): An atomic read-modify-write is applied as one step at its home, owned copy or bank. -/
  | atomicStep (req : Nat)
  /-- OWNED_LINE_GRANT (R190): A home grants a line in the owned state to a contending core as a write-class request. -/
  | ownedLineGrant (req : Nat)
  /-- OWNED_COPY_RECALL (R191): The home recalls a core's owned copy, writing its bytes home before serving others. -/
  | ownedCopyRecall (core line : Nat)
  /-- OWNED_COPY_EVICTION (R191): A core evicts an owned copy, writing it home as one step. -/
  | ownedCopyEviction (core line : Nat)
  /-- L1_DROP (R87): A core drops a clean L1 copy at any step. -/
  | l1Drop (core line : Nat)
  /-- GRANT_REQUEST (R212): The home applies a grant request's adds and grants, reclaims or refuses a share. -/
  | grantRequest (req : Nat)
  /-- GRANT_REPLY (R211): A grant reply reaches the core and sets up a delta record, giving up the oldest record if room is needed. -/
  | grantReply (msg : Nat)
  /-- TOLERANT_READ (R212): The home answers a tolerant read after force-draining sharers until the undrained shares fit the tolerance. -/
  | tolerantRead (req : Nat)
  /-- DRAIN (R213): A drain's delta is applied at the home and acknowledged; the sharer stays. -/
  | drain (req : Nat)
  /-- DRAIN_ACK (R213): A drain acknowledgement returns the core's record from draining to holding, releasing waiting entries. -/
  | drainAck (core line : Nat)
  /-- SPONTANEOUS_DRAIN (R211): A core drains one of its records at a step of its own choosing. -/
  | spontaneousDrain (core line : Nat)
  /-- GIVE_UP (R212): A give-up applies the delta, removes the sharer and frees an empty budget entry. -/
  | giveUp (req : Nat)
  /-- HOME_ADD (R212): Unwithheld acc lanes are added at the home, leaving every share in place. -/
  | homeAdd (req : Nat)
  /-- FORCE_DRAIN (R212): A sharer receiving a force-drain replies with its delta, resets its gauge and deletes its record on reclaim or
  revoke. -/
  | forceDrain (msg : Nat)
  /-- FORCE_DRAIN_REPLY (R213): A force-drain reply reaches the home and is taken as part of the waiting request. -/
  | forceDrainReply (req : Nat)
  /-- COPY_SOURCE_STEP (R231): A copy takes the snapshot of one source line at its home. -/
  | copySourceStep (copy line : Nat)
  /-- COPY_DESTINATION_STEP (R231): A copy writes or records one destination line at its home, dropping clean copies; the last completes the
  copy. -/
  | copyDestinationStep (copy line : Nat)
  /-- RESOLUTION_READ (R248): A source home serves a resolution read for a veneer fill at its place among the line's requests. -/
  | resolutionRead (line src : Nat)
  /-- VENEER_FILL (R248): A destination home applies the transform to returned source bytes, fills L2 and adds heat. -/
  | veneerFill (line : Nat)
  /-- MATERIALISE_REQUEST (R251): A dependent destination line is materialised at its home and its entry trimmed or split. -/
  | materialiseRequest (line : Nat)
  /-- MATERIALISE_COMPLETE (R251): The source home receives the completion of all dependents' materialisations and serves the waiting write.
  -/
  | materialiseComplete (req : Nat)
  /-- HOT_MATERIALISE (R249): The veneer engine materialises the next remaining line of a promoting entry and frees it when none remains. -/
  | hotMaterialise (entry : Nat)
  /-- CLAMP_BYTE_COUNT (R200): A transfer adds an applied chunk's bytes to a clamp as one step. -/
  | clampByteCount (cnt : Nat)
  /-- CLAMP_ERR_MARK (R200): A failed transfer marks err at a clamp as one step, waking its watches. -/
  | clampErrMark (cnt : Nat)
  /-- DRAWER_COMMAND_SLOT (R183): A ready drawer command leaves in the next write-fibre slot its class may use. -/
  | drawerCommandSlot (link slot line : Nat)
  /-- DRAWER_READ_DATA (R181): Read data arrives in the paired read slot 80 slots later and is decrypted and filled at the home. -/
  | drawerReadData (link slot line : Nat) (err : FillErr)
  /-- LINE_WRITE_BACK (R375): A line is encrypted under CTR or XTS with a new sidecar and sent to the drawer. -/
  | lineWriteBack (line : Nat) (evict : Bool)
  /-- DRAWER_WRITE_ACK (R185): The drawer's write acknowledgement returns in the paired read slot, or the port resends the line. -/
  | drawerWriteAck (link slot line : Nat) (ok : Bool)
  /-- SLOT_TABLE_SWITCH (R185): A loaded write table takes effect at the first slot 0 of a frame one frame after the command. -/
  | slotTableSwitch (fab : Bool) (link slot : Nat)
  /-- READ_TABLE_SWITCH (R185): The derived read tables switch 80 slots after the write table. -/
  | readTableSwitch (link slot : Nat)
  /-- STC_LOAD_TABLE (R184): STC_CMD op 00 loads the staging table into a drawer link's write table. -/
  | stcLoadTable (v : W64)
  /-- STC_BIND_CLASS (R184): STC_CMD op 01 binds a slot class to a function or partition. -/
  | stcBindClass (v : W64)
  /-- STC_RELEASE_CLASS (R184): STC_CMD op 10 rewrites every entry of a class to open on every link and unbinds it. -/
  | stcReleaseClass (v : W64)
  /-- FTC_LOAD_TABLE (R293): FTC_CMD op 00 loads a fabric-out link's slot table. -/
  | ftcLoadTable (v : W64)
  /-- STATUS_ERR_CLEAR (R396): Writing 1 to err of a command status register clears it, and JX_STAT.why with it. -/
  | statusErrClear (fn off : Nat)
  /-- LINK_SWAP_START (R186): A failing wavelength with a spare left moves a drawer or fabric link from Up to Swap. -/
  | linkSwapStart (fab : Bool) (link : Nat)
  /-- LINK_SWAP_END (R186): A wavelength swap completes and the link returns to Up. -/
  | linkSwapEnd (fab : Bool) (link : Nat)
  /-- LINK_RETRAIN_START (R186): Fibre loss or a failure with no spare moves a link to Retrain. -/
  | linkRetrainStart (fab : Bool) (link : Nat)
  /-- LINK_TRAIN_SUCCESS (R186): Training succeeds and the link returns to Up, reloading tables, resolving stalls and resending sent
  accesses. -/
  | linkTrainSuccess (fab : Bool) (link : Nat)
  /-- LINK_DOWN (R189): Training fails and the link enters Down, rerouting, abandoning sent reads and raising the error interrupt. -/
  | linkDown (fab : Bool) (link : Nat)
  /-- LINK_STALL (R188): A logged link-stall lane waits %slim × 1024 cycles and the slat takes LINK_STALL. -/
  | linkStall (uid : Nat)
  /-- LINK_RESET (R392): LNK_RST moves a Down drawer or fabric link to Retrain. -/
  | linkReset (v : W64)
  /-- PEER_PUT_APPLY (R298): The peer's fabric agent writes a put's bytes into the window, counts them and acknowledges. -/
  | peerPutApply (p : PeerPut)
  /-- PEER_GET_SERVE (R299): The peer's agent reads the window range for a get and returns the bytes. -/
  | peerGetServe (g : PeerGet)
  /-- GET_RESPONSE (R299): Returned get bytes are written locally and counted at the own clamp. -/
  | getResponse (xfer : Nat) (bytes : List Byte)
  /-- FABRIC_ACK (R298): An acknowledgement of a put, get or reduction contribution reaches the issuing device. -/
  | fabricAck (xfer : Nat)
  /-- SWITCH_REDUCTION_RESULT (R300): The switch writes a combined chunk to this member's window and counts it at the chunk clamp. -/
  | switchReductionResult (fn group epoch chunk : Nat) (bytes : List Byte)
  /-- FABRIC_NACK (R305): A negative acknowledgement refuses a transfer, marks err at its clamps and raises FAB_ERROR. -/
  | fabricNack (xfer reason : Nat)
  /-- MAILBOX_ACCESS (R98): The host line agent performs a mailbox access or atomic holding the line exclusive. -/
  | mailboxAccess (req : Nat)
  /-- HOST_SNOOP (R358): A host snoop of a line the agent holds is answered after the agent's step. -/
  | hostSnoop (line : Nat) (bytes : List (Nat × Byte))
  /-- HOST_PORT_MODULE_LOSS (R357): A UCIe module that fails or loses lanes beyond repair is removed and the port runs on the rest. -/
  | hostPortModuleLoss (n : Nat)
  /-- QUEUE_ENABLE (R309): QCTL cmd 01 enables a queue or leaves it Disabled with err 0xF. -/
  | queueEnable (fn q : Nat) (v : W64)
  /-- QUEUE_PAUSE (R309): QCTL cmd 10 pauses a Running queue. -/
  | queuePause (fn q : Nat) (v : W64)
  /-- QUEUE_RESET (R309): QCTL cmd 11 disables a queue and zeroes its pointers. -/
  | queueReset (fn q : Nat) (v : W64)
  /-- QWP_WRITE (R310): A write of QWP publishes slots or puts the queue into Overrun. -/
  | qwpWrite (fn q : Nat) (v : W64)
  /-- LAUNCH_RECORD_TAKE (R315): The launcher takes the ready record of highest priority, checking it and its dependences, and enters the
  grid. -/
  | launchRecordTake
  /-- TEAM_PLACEMENT (R317): The launcher places the next team, gang or persistent grid on free cores. -/
  | teamPlacement (grid : Nat) (firsts : List Nat)
  /-- CORE_START (R322): A placed core begins issuing 4 cycles after the previous core of its placement step. -/
  | coreStart (core : Nat)
  /-- GRID_RETIRE (R318): A finished grid arrives at its done clamp, raises its vector and frees its table entry. -/
  | gridRetire (grid : Nat)
  /-- FAULT_RESOLVE (R329): A settle write with action 1 marks a fault resolved and replays its logged lanes. -/
  | faultResolve (fn token : Nat)
  /-- FAULT_REFER_BACK (R329): A settle write with action 2 abandons the logged lanes and raises PAGE. -/
  | faultReferBack (fn token : Nat)
  /-- WATCHDOG_SLAT (R337): The slat count expires for a parked or waiting slat, killing it with WATCHDOG. -/
  | watchdogSlat (uid : Nat)
  /-- WATCHDOG_ROW (R337): The row count expires after a slat-level kill, killing the whole team. -/
  | watchdogRow (grid team : Nat)
  /-- WATCHDOG_LAUNCHER (R337): The launcher count expires for a live grid, killing the context. -/
  | watchdogLauncher (grid : Nat)
  /-- CONTEXT_CREATE (R361): CTX_CMD op 01 creates an ordinary or protected context with its table root. -/
  | contextCreate (fn : Nat) (v : W64)
  /-- CONTEXT_END (R361): CTX_CMD op 10 ends a context, killing its slats and settling its state. -/
  | contextEnd (fn : Nat) (v : W64)
  /-- CONTEXT_SET_ROOT (R361): CTX_CMD op 11 sets a context's table root for later walks. -/
  | contextSetRoot (fn : Nat) (v : W64)
  /-- MM_INVALIDATE (R362): MM_CMD op 00 invalidates translations as tlbi does. -/
  | mmInvalidate (fn : Nat) (v : W64)
  /-- MM_FLUSH (R362): MM_CMD op 01 flushes host-located lines of a range to host memory. -/
  | mmFlush (fn : Nat) (v : W64)
  /-- MM_FLUSH_INVALIDATE (R362): MM_CMD op 10 flushes and then invalidates. -/
  | mmFlushInvalidate (fn : Nat) (v : W64)
  /-- FN_CTL_RST (R366): A write of FN_CTL.rst starts a function-level reset. -/
  | fnCtlRst (f : Nat) (v : W64)
  /-- INITIATE_FLR (R366): A CXL.io Initiate FLR starts a function-level reset of the function. -/
  | initiateFlr (f : Nat)
  /-- TENSOR_DECLARE (R374): TD_CMD op 01 declares or redeclares a tensor slot with a new version and abandons its range. -/
  | tensorDeclare (fn : Nat) (v : W64)
  /-- TENSOR_RETIRE (R374): TD_CMD op 10 retires a tensor slot and abandons its range. -/
  | tensorRetire (fn : Nat) (v : W64)
  /-- JX_LOAD (R381): JX_CMD go verifies, copies, seals and measures a signed image. -/
  | jxLoad (fn : Nat) (v : W64)
  /-- PART_CFG_WRITE (R370): A machine-level PART_CFG write changes layout or protection, rekeying affected partitions. -/
  | partCfgWrite (v : W64)
  /-- MEASUREMENT_REQUEST (R383): A management measurement request returns the slots with a signature. -/
  | measurementRequest (part : Nat) (nonce : List Byte)
  /-- FIRMWARE_ACTIVATION (R384): A firmware activation command is verified and accepted. -/
  | firmwareActivation (fw sig : List Byte)
  /-- FIRMWARE_SWITCH (R384): Accepted firmware switches in when the hub is idle and slot 0 is extended. -/
  | firmwareSwitch
  /-- DEBUG_UNLOCK (R385): A signed debug unlock token unlocks a partition unless a protected context is live. -/
  | debugUnlock (part : Nat) (token sig : List Byte)
  /-- KEY_ENROLMENT (R395): A management command enrols a JX signing key for a partition. -/
  | keyEnrolment (part : Nat) (hash : List Byte)
  /-- POWER_ON_RESET (R390): Power-on or machine-level reset brings the device up through its ordered boot steps. -/
  | powerOnReset (b : BootOutcome)
  /-- UPSET_REPORT (R387): A sensor report rolls the core back 256 cycles, or kills its slats when upset protection is off. -/
  | upsetReport (core : Nat)
  /-- POWER_THROTTLE (R394): A die approaching its power limit lowers its matrix and vector issue rates. -/
  | powerThrottle (die : Nat)
  /-- REGISTER_WRITE (R5): A write of a register with no behaviour of its own stores its writable fields. -/
  | registerWrite (fn off : Nat) (v : W64)
  /-- HOST_PORT_RESPONSE (R358): A CXL.cache response or completion comes back across the host port: data for a host-located line fill,
  ownership of a mailbox line, or the acknowledgement that an entry has left the host port queue and reached the host's point of coherence.
  -/
  | hostPortResponse (r : HostResp)
  /-- FABRIC_OUT_SLOT (R293): A transfer at the head of a peer queue leaves in the next fabric-out slot that its class may use, in the order
  of R182. -/
  | fabricOutSlot (link slot xfer : Nat)
  /-- PARTITION_MACHINE_RESET (R379): A machine-level reset of one hard partition increments its partition epoch, clears its measurement
  slots and ends its debug-unlocked state. -/
  | partitionMachineReset (part : Nat)
  /-- POWER_THROTTLE_END (R394): A die that no longer approaches its power limit clears its PWR_STAT.thr bit and raises its vector and
  matrix issue rates again, ramping the matrix engines over at least 4096 cycles. -/
  | powerThrottleEnd (die : Nat)
  deriving DecidableEq, Repr

end Sys2Proof
end

