-- ==== Sys2Proof/WellFormed.lean ====
section
/-! DEFINITION. Well-formedness: what the decoder accepts in each field of each instruction (R43 to R53, R57 and the fault
tables of the class chapters). An instruction is well formed when it breaks none of these rules; the reasons it
breaks are the reason codes of R57. -/

namespace Sys2Proof

/-- The classes of a clause header (R33). -/
inductive Cls where
  | alu | mem | async | mtx | sys
  deriving DecidableEq, Repr

/-- The class of an instruction (R34); nop may stand anywhere, part only in alu clauses, flow last in any clause. -/
inductive Grp where
  | scalar | flow | nop | part | vector | memory | copy | matrix | fabric | system
  deriving DecidableEq, Repr

/-- What a source field accepts. -/
inductive SrcRule where
  | zero                -- unused: zero (R45)
  | raw                 -- part of a larger field
  | sca                 -- scalar register, constants 0-5 and 7 (R47, R107)
  | lane (wide : Bool)  -- any kind (R47); 64-bit: no latch, an even vector register (R120)
  | sreg                -- a scalar register only
  | s                   -- scalar register only, M format (R204)
  | sk                  -- scalar register or constant
  | vsk                 -- vector, scalar or constant, M format (R47)
  | store               -- M-format data: vector aligned to the width, scalar and constant up to .b64 (R172, R193)
  | group               -- the register group of compare and swap (R46)
  | predA               -- a predicate operand with negation in A (R150)
  | predC               -- a predicate operand in C (R109, R131)
  deriving DecidableEq, Repr

/-- What a destination field accepts. -/
inductive DstRule where
  | zero
  | raw
  | any
  | sreg
  | vreg (wide : Bool)
  | vw                  -- a vector register aligned to the access width (R172)
  | cmp                 -- predicate and condition (R49)
  | pred                -- predicate only (R49, R150)
  | breg                -- translation register (R111)
  deriving DecidableEq, Repr

/-- The limits of an R-format instruction. -/
structure RLim where
  dst : DstRule
  a : SrcRule
  b : SrcRule
  c : SrcRule
  fmts : List Nat
  rnd : Bool
  ftz : Bool
  ovf : List Nat
  sub : List Nat
  latch : Bool

/-- What an imm29 field accepts (R50). -/
inductive ImmRule where
  | any
  | max (n : Nat)
  | part
  | srd
  | swr
  | shf

/-- The limits of an I-format instruction. -/
structure ILim where
  dst : DstRule
  a : SrcRule
  latch : Bool
  imm : ImmRule

/-- What [10:0] of an M-format instruction accepts. -/
inductive MImm where
  | any
  | zero
  | drn
  | clm
  | atm (sgn ffmt : Bool)

/-- The limits of an M-format instruction; bn: whether [36:33] is used; noCtr: the counter field must be 7. -/
structure MLim where
  dst : DstRule
  bn : Bool
  off : SrcRule
  data : SrcRule
  widths : List Nat
  imm : MImm
  noCtr : Bool

/-- The limits of an async instruction: which fields are used. -/
structure XLim where
  sD : Bool
  sS : Bool
  sN : Bool
  sE : Bool
  cont : Bool
  hint : Bool
  c16 : List Nat
  noCtr : Bool

/-- The limits of a matrix instruction: which fields are used. -/
structure TLim where
  tile : Bool
  va : Option Nat
  vb : Bool
  sF : Bool
  p : Bool
  prog : Bool
  qtr : Bool

/-- The limits of a system instruction: which fields are used, the largest immediate, and the groups of eight. -/
structure YLim where
  sD : Bool
  sA : Bool
  sB : Bool
  imm : Nat
  noCtr : Bool
  grpD : Bool
  grpB : Bool

/-- Format codes .i64 and .u64 (R48). -/
def i64 (f : BitVec 4) : Bool := f = 2#4 || f = 3#4

/-- A 64-bit form by its fmt (R122). -/
def wd (o : ROp) : Bool := i64 o.m.fmt

/-- The operations that scan and lred accept for the fmt (R152), plus the exclusive bit. -/
def scanOps (o : ROp) (ex : Nat) : List Nat :=
  (if o.m.fmt = 8#4 then [0, 1, 2] else [0, 1, 2, 3, 4, 5]).map (· + ex)

/-- The raw bits of a source field (R47). -/
def Src.bits : Src → BitVec 8
  | .v n => 0#2 ++ n
  | .s n => 1#2 ++ n
  | .y n => 2#2 ++ n
  | .k n => 3#2 ++ n

/-- The raw bits of the mod field (R48). -/
def Mod.bits (m : Mod) : BitVec 13 := m.fmt ++ m.rnd ++ BitVec.ofBool m.ftz ++ m.ovf ++ m.sub

/-- The 14 bits [42:29] of a divergent branch: its reconvergence offset (R59, R113). -/
def IOp.rvOff (o : IOp) : BitVec 14 := o.dst ++ o.a.bits

/-- A reason when a rule is broken. -/
def rsn (c : Bool) (r : Nat) : List Nat := if c then [r] else []

/-- Reasons of a source field outside the M format; width 4 for the M-format rules is w. -/
def SrcRule.reasons (r : SrcRule) (x : Src) (w : Nat) : List Nat :=
  match r with
  | .zero => rsn (x.bits != 0#8) 2
  | .raw => []
  | .sca => match x with
    | .v _ => [3]
    | .y _ => [3]
    | .s _ => []
    | .k n => rsn (decide (8 ≤ n.toNat) || n == 6#6) 3
  | .lane wide => match x with
    | .v n => rsn (wide && n.getLsbD 0) 5
    | .y n => rsn (wide || decide (4 ≤ n.toNat)) 3
    | .s _ => []
    | .k n => rsn (decide (8 ≤ n.toNat)) 3
  | .sreg => match x with
    | .s _ => []
    | _ => [3]
  | .s => match x with
    | .s _ => []
    | _ => [3]
  | .sk => match x with
    | .s _ => []
    | .k n => rsn (decide (8 ≤ n.toNat)) 3
    | _ => [3]
  | .vsk => match x with
    | .v _ => []
    | .s _ => []
    | .y _ => [3]
    | .k n => rsn (decide (8 ≤ n.toNat)) 3
  | .store => match x with
    | .v n => rsn ((w == 3 && n.toNat % 2 != 0) || (w == 4 && n.toNat % 4 != 0)) 5
    | .s _ => rsn (w == 4) 3
    | .y _ => [3]
    | .k n => rsn (w == 4 || decide (8 ≤ n.toNat)) 3
  | .group => match x with
    | .v n => rsn ((w == 2 && n.toNat % 2 != 0) || (w == 3 && n.toNat % 4 != 0) || (w == 4 && n.toNat % 8 != 0)) 5
    | _ => [3]
  | .predA => rsn (decide (16 ≤ x.bits.toNat)) 2
  | .predC => rsn (decide (8 ≤ x.bits.toNat)) 2

/-- Reasons of a destination field. -/
def DstRule.reasons (r : DstRule) (d : BitVec 6) (w : Nat) : List Nat :=
  match r with
  | .zero => rsn (d != 0#6) 2
  | .raw => []
  | .any => []
  | .sreg => []
  | .vreg wide => rsn (wide && d.getLsbD 0) 5
  | .vw => rsn ((w == 3 && d.toNat % 2 != 0) || (w == 4 && d.toNat % 4 != 0)) 5
  | .cmp => rsn (d.toNat % 8 == 7) 5 ++ rsn (decide (48 ≤ d.toNat)) 4
  | .pred => rsn (d.toNat % 8 == 7) 5 ++ rsn (decide (8 ≤ d.toNat)) 2
  | .breg => rsn (decide (16 ≤ d.toNat)) 2

/-- The class of an encoded instruction; none for an event. -/
def Instr.grp : Instr → Option Grp
  | .smov _ => some .scalar
  | .sadd _ => some .scalar
  | .ssub _ => some .scalar
  | .smul _ => some .scalar
  | .smulh _ => some .scalar
  | .sand _ => some .scalar
  | .sor _ => some .scalar
  | .sxor _ => some .scalar
  | .sshl _ => some .scalar
  | .sshr _ => some .scalar
  | .ssar _ => some .scalar
  | .smin _ => some .scalar
  | .smax _ => some .scalar
  | .scmpSigned _ => some .scalar
  | .scmpUnsigned _ => some .scalar
  | .ssel _ => some .scalar
  | .sclz _ => some .scalar
  | .spop _ => some .scalar
  | .sxlat _ => some .scalar
  | .sli _ => some .scalar
  | .slih _ => some .scalar
  | .srd _ => some .scalar
  | .swr _ => some .scalar
  | .saddI _ => some .scalar
  | .ssubI _ => some .scalar
  | .smulI _ => some .scalar
  | .sandI _ => some .scalar
  | .sorI _ => some .scalar
  | .sxorI _ => some .scalar
  | .sshlI _ => some .scalar
  | .sshrI _ => some .scalar
  | .ssarI _ => some .scalar
  | .scmpSignedI _ => some .scalar
  | .scmpUnsignedI _ => some .scalar
  | .bra _ => some .flow
  | .braDivergent _ => some .flow
  | .brx _ => some .flow
  | .call _ => some .flow
  | .ret _ => some .flow
  | .exit _ => some .flow
  | .yield _ => some .flow
  | .nop _ => some .nop
  | .part _ => some .part
  | .mov _ => some .vector
  | .iadd _ => some .vector
  | .isub _ => some .vector
  | .iaddc _ => some .vector
  | .isubb _ => some .vector
  | .imul _ => some .vector
  | .imulh _ => some .vector
  | .imad _ => some .vector
  | .imin _ => some .vector
  | .imax _ => some .vector
  | .iabs _ => some .vector
  | .lgf _ => some .vector
  | .shl _ => some .vector
  | .shr _ => some .vector
  | .sar _ => some .vector
  | .rot _ => some .vector
  | .clz _ => some .vector
  | .pop _ => some .vector
  | .brev _ => some .vector
  | .bfx _ => some .vector
  | .bfi _ => some .vector
  | .bmix _ => some .vector
  | .icmpSigned _ => some .vector
  | .icmpUnsigned _ => some .vector
  | .sel _ => some .vector
  | .iext _ => some .vector
  | .li _ => some .vector
  | .iaddI _ => some .vector
  | .isubI _ => some .vector
  | .imulI _ => some .vector
  | .shlI _ => some .vector
  | .shrI _ => some .vector
  | .sarI _ => some .vector
  | .rotI _ => some .vector
  | .icmpSignedI _ => some .vector
  | .icmpUnsignedI _ => some .vector
  | .fadd _ => some .vector
  | .fsub _ => some .vector
  | .fmul _ => some .vector
  | .ffma _ => some .vector
  | .fmin _ => some .vector
  | .fmax _ => some .vector
  | .fcmp _ => some .vector
  | .frnd _ => some .vector
  | .fscl _ => some .vector
  | .fclass _ => some .vector
  | .frcp _ => some .vector
  | .frsq _ => some .vector
  | .fsqrt _ => some .vector
  | .fex2 _ => some .vector
  | .flg2 _ => some .vector
  | .fsin _ => some .vector
  | .fcos _ => some .vector
  | .fcvt _ => some .vector
  | .pfadd _ => some .vector
  | .pfmul _ => some .vector
  | .pffma _ => some .vector
  | .pfcvt _ => some .vector
  | .faddI _ => some .vector
  | .fsubI _ => some .vector
  | .fmulI _ => some .vector
  | .fminI _ => some .vector
  | .fmaxI _ => some .vector
  | .shf _ => some .vector
  | .vall _ => some .vector
  | .vany _ => some .vector
  | .vbal _ => some .vector
  | .vmatch _ => some .vector
  | .scan _ => some .vector
  | .lred _ => some .vector
  | .isect _ => some .vector
  | .shfI _ => some .vector
  | .ld _ => some .memory
  | .st _ => some .memory
  | .lds _ => some .memory
  | .sts _ => some .memory
  | .ldp _ => some .memory
  | .stp _ => some .memory
  | .sld _ => some .memory
  | .sst _ => some .memory
  | .pref _ => some .memory
  | .acc _ => some .memory
  | .ldt _ => some .memory
  | .drn _ => some .memory
  | .grd _ => some .memory
  | .bnd _ => some .memory
  | .atmAdd _ => some .memory
  | .atmMin _ => some .memory
  | .atmMax _ => some .memory
  | .atmAnd _ => some .memory
  | .atmOr _ => some .memory
  | .atmXor _ => some .memory
  | .atmXchg _ => some .memory
  | .atmCas _ => some .memory
  | .atmFadd _ => some .memory
  | .atmFmax _ => some .memory
  | .atmsAdd _ => some .memory
  | .atmsMin _ => some .memory
  | .atmsMax _ => some .memory
  | .atmsAnd _ => some .memory
  | .atmsOr _ => some .memory
  | .atmsXor _ => some .memory
  | .atmsXchg _ => some .memory
  | .atmsCas _ => some .memory
  | .atmsFadd _ => some .memory
  | .atmsFmax _ => some .memory
  | .fen _ => some .memory
  | .clmi _ => some .memory
  | .clmx _ => some .memory
  | .clma _ => some .memory
  | .clmw _ => some .memory
  | .clmt _ => some .memory
  | .tbar _ => some .memory
  | .cpy _ => some .copy
  | .cpye _ => some .copy
  | .rel _ => some .copy
  | .cpys _ => some .copy
  | .cpym _ => some .copy
  | .mat _ => some .copy
  | .vdrop _ => some .copy
  | .vstat _ => some .copy
  | .mmaF8 _ => some .matrix
  | .mmaBf _ => some .matrix
  | .mmaI8 _ => some .matrix
  | .azero _ => some .matrix
  | .ard _ => some .matrix
  | .awr _ => some .matrix
  | .fin _ => some .matrix
  | .fpl _ => some .matrix
  | .xput _ => some .fabric
  | .xred _ => some .fabric
  | .xget _ => some .fabric
  | .xfen _ => some .fabric
  | .deq _ => some .system
  | .enq _ => some .system
  | .lnch _ => some .system
  | .cwait _ => some .system
  | .trap _ => some .system
  | .rti _ => some .system
  | .brk _ => some .system
  | .ctxs _ => some .system
  | .ctxl _ => some .system
  | .tlbi _ => some .system
  | _ => none

/-- Every read-write register number that swr may name: %slim, %tvec, %tepc, %fres (R103, R329). -/
def writableRegs : List Nat := [0x00B, 0x010, 0x012, 0x150]

/-- Every register number that srd may name (R103, R258, R259). -/
def readableRegs : List Nat :=
  [0x000, 0x001, 0x002, 0x003, 0x004, 0x005, 0x006, 0x007, 0x008, 0x009, 0x00A, 0x00B,
   0x010, 0x011, 0x012, 0x013, 0x014, 0x015, 0x140, 0x141, 0x142, 0x143, 0x144, 0x145]

/-- Reasons of an immediate (R50, R104, R146). -/
def ImmRule.reasons (r : ImmRule) (x : BitVec 29) : List Nat :=
  match r with
  | .any => []
  | .max n => rsn (decide (n < x.toNat)) 4
  | .part => rsn (!([2, 4, 8, 16, 32].contains x.toNat)) 4
  | .srd => rsn (!(readableRegs.contains x.toNat)) 4
  | .swr => rsn (!(writableRegs.contains x.toNat)) 4
  | .shf => rsn (decide (128 ≤ x.toNat)) 2

/-- Reasons of [10:0] of an M-format word (R46, R202, R216). -/
def MImm.reasons (r : MImm) (x : BitVec 11) : List Nat :=
  match r with
  | .any => []
  | .zero => rsn (x != 0#11) 2
  | .drn => rsn (x.toNat / 512 % 4 == 3) 4 ++ rsn (x.toNat % 512 != 0) 2
  | .clm => rsn (x.toNat / 512 % 4 == 3) 4 ++ rsn (x.toNat % 512 != 0) 2
  | .atm sgn ffmt => rsn (decide (5 ≤ x.toNat / 256)) 4 ++ rsn (x.getLsbD 5 && !sgn) 4 ++ rsn (x.getLsbD 4 && !ffmt) 4
      ++ rsn (x.toNat % 16 != 0) 2

/-- The limits of the R-format instructions (fen apart, which R60 lays out). -/
def Instr.rlim : Instr → Option (ROp × RLim)
  | .smov o => some (o, ⟨.sreg, .sca, .zero, .zero, [0], false, false, [0], [0], false⟩)
  | .sadd o => some (o, ⟨.sreg, .sca, .sca, .zero, [0], false, false, [0], [0], false⟩)
  | .ssub o => some (o, ⟨.sreg, .sca, .sca, .zero, [0], false, false, [0], [0], false⟩)
  | .smul o => some (o, ⟨.sreg, .sca, .sca, .zero, [0], false, false, [0], [0], false⟩)
  | .smulh o => some (o, ⟨.sreg, .sca, .sca, .zero, [0, 2, 3], false, false, [0], [0], false⟩)
  | .sand o => some (o, ⟨.sreg, .sca, .sca, .zero, [0], false, false, [0], [0], false⟩)
  | .sor o => some (o, ⟨.sreg, .sca, .sca, .zero, [0], false, false, [0], [0], false⟩)
  | .sxor o => some (o, ⟨.sreg, .sca, .sca, .zero, [0], false, false, [0], [0], false⟩)
  | .sshl o => some (o, ⟨.sreg, .sca, .sca, .zero, [0], false, false, [0], [0], false⟩)
  | .sshr o => some (o, ⟨.sreg, .sca, .sca, .zero, [0], false, false, [0], [0], false⟩)
  | .ssar o => some (o, ⟨.sreg, .sca, .sca, .zero, [0], false, false, [0], [0], false⟩)
  | .smin o => some (o, ⟨.sreg, .sca, .sca, .zero, [0, 2, 3], false, false, [0], [0], false⟩)
  | .smax o => some (o, ⟨.sreg, .sca, .sca, .zero, [0, 2, 3], false, false, [0], [0], false⟩)
  | .scmpSigned o => some (o, ⟨.cmp, .sca, .sca, .zero, [0, 2], false, false, [0], [0], false⟩)
  | .scmpUnsigned o => some (o, ⟨.cmp, .sca, .sca, .zero, [0, 3], false, false, [0], [0], false⟩)
  | .ssel o => some (o, ⟨.sreg, .sca, .sca, .predC, [0], false, false, [0], [0], false⟩)
  | .sclz o => some (o, ⟨.sreg, .sca, .zero, .zero, [0], false, false, [0], [0], false⟩)
  | .spop o => some (o, ⟨.sreg, .sca, .zero, .zero, [0], false, false, [0], [0], false⟩)
  | .sxlat o => some (o, ⟨.breg, .sreg, .zero, .zero, [0], false, false, [0], [0], false⟩)
  | .brx o => some (o, ⟨.zero, .sca, .zero, .zero, [0], false, false, [0], [0], false⟩)
  | .ret o => some (o, ⟨.zero, .sca, .zero, .zero, [0], false, false, [0], [0], false⟩)
  | .mov o => some (o, ⟨(.vreg (wd o)), (.lane (wd o)), .zero, .zero, [0, 2], false, false, [0], [0], (!wd o)⟩)
  | .iadd o => some (o, ⟨(.vreg (wd o)), (.lane (wd o)), (.lane (wd o)), (.lane (wd o)), [0, 1, 2, 3], false, false, [0, 1], [0], (!wd o)⟩)
  | .isub o => some (o, ⟨(.vreg (wd o)), (.lane (wd o)), (.lane (wd o)), (.lane (wd o)), [0, 1, 2, 3], false, false, [0, 1], [0], (!wd o)⟩)
  | .iaddc o => some (o, ⟨(.vreg false), (.lane false), (.lane false), (.lane false), [0, 1], false, false, [0], [0], true⟩)
  | .isubb o => some (o, ⟨(.vreg false), (.lane false), (.lane false), (.lane false), [0, 1], false, false, [0], [0], true⟩)
  | .imul o => some (o, ⟨(.vreg (wd o)), (.lane (wd o)), (.lane (wd o)), .zero, [0, 1, 2, 3], false, false, [0], [0], (!wd o)⟩)
  | .imulh o => some (o, ⟨(.vreg (wd o)), (.lane (wd o)), (.lane (wd o)), .zero, [0, 1, 2, 3], false, false, [0], [0], (!wd o)⟩)
  | .imad o => some (o, ⟨(.vreg false), (.lane false), (.lane false), (.lane false), [0, 1], false, false, [0], [0], true⟩)
  | .imin o => some (o, ⟨(.vreg (wd o)), (.lane (wd o)), (.lane (wd o)), .zero, [0, 1, 2, 3], false, false, [0], [0], (!wd o)⟩)
  | .imax o => some (o, ⟨(.vreg (wd o)), (.lane (wd o)), (.lane (wd o)), .zero, [0, 1, 2, 3], false, false, [0], [0], (!wd o)⟩)
  | .iabs o => some (o, ⟨(.vreg (wd o)), (.lane (wd o)), .zero, .zero, [0, 2], false, false, [0, 1], [0], (!wd o)⟩)
  | .lgf o => some (o, ⟨(.vreg false), (.lane false), (.lane false), (.lane false), [0], true, true, [0, 1, 2, 3], (List.range 16), true⟩)
  | .shl o => some (o, ⟨(.vreg (wd o)), (.lane (wd o)), (.lane false), .zero, [0, 2], false, false, [0], [0], (!wd o)⟩)
  | .shr o => some (o, ⟨(.vreg (wd o)), (.lane (wd o)), (.lane false), .zero, [0, 2], false, false, [0], [0], (!wd o)⟩)
  | .sar o => some (o, ⟨(.vreg (wd o)), (.lane (wd o)), (.lane false), .zero, [0, 2], false, false, [0], [0], (!wd o)⟩)
  | .rot o => some (o, ⟨(.vreg (wd o)), (.lane (wd o)), (.lane false), .zero, [0, 2], false, false, [0], [0], (!wd o)⟩)
  | .clz o => some (o, ⟨(.vreg false), (.lane false), .zero, .zero, [0], false, false, [0], [0], true⟩)
  | .pop o => some (o, ⟨(.vreg false), (.lane false), .zero, .zero, [0], false, false, [0], [0], true⟩)
  | .brev o => some (o, ⟨(.vreg false), (.lane false), .zero, .zero, [0], false, false, [0], [0], true⟩)
  | .bfx o => some (o, ⟨(.vreg false), (.lane false), (.lane false), .zero, [0, 1], false, false, [0], [0], true⟩)
  | .bfi o => some (o, ⟨(.vreg false), (.lane false), (.lane false), (.lane false), [0], false, false, [0], [0], true⟩)
  | .bmix o => some (o, ⟨(.vreg false), (.lane false), (.lane false), (.lane false), [0], false, false, [0], [0], true⟩)
  | .icmpSigned o => some (o, ⟨.cmp, (.lane (wd o)), (.lane (wd o)), .zero, [0, 2], false, false, [0], [0], false⟩)
  | .icmpUnsigned o => some (o, ⟨.cmp, (.lane (wd o)), (.lane (wd o)), .zero, [0, 1, 3], false, false, [0], [0], false⟩)
  | .sel o => some (o, ⟨(.vreg (wd o)), (.lane (wd o)), (.lane (wd o)), .predC, [0, 2], false, false, [0], [0], (!wd o)⟩)
  | .iext o => some (o, ⟨(.vreg (decide (o.m.fmt.toNat ≤ 1))), (.lane false), .zero, .zero, [0, 1, 4, 5, 6, 7], false, false, [0], [0], (decide (2 ≤ o.m.fmt.toNat))⟩)
  | .fadd o => some (o, ⟨(.vreg false), (.lane false), (.lane false), .zero, [0, 8], true, true, [0, 1], [0], true⟩)
  | .fsub o => some (o, ⟨(.vreg false), (.lane false), (.lane false), .zero, [0, 8], true, true, [0, 1], [0], true⟩)
  | .fmul o => some (o, ⟨(.vreg false), (.lane false), (.lane false), .zero, [0, 8], true, true, [0, 1], [0], true⟩)
  | .ffma o => some (o, ⟨(.vreg false), (.lane false), (.lane false), (.lane false), [0, 8], true, true, [0, 1], [0], true⟩)
  | .fmin o => some (o, ⟨(.vreg false), (.lane false), (.lane false), .zero, [0, 8], false, true, [0], [0], true⟩)
  | .fmax o => some (o, ⟨(.vreg false), (.lane false), (.lane false), .zero, [0, 8], false, true, [0], [0], true⟩)
  | .fcmp o => some (o, ⟨.cmp, (.lane false), (.lane false), .zero, [0, 8], false, true, [0], [0, 1], false⟩)
  | .frnd o => some (o, ⟨(.vreg false), (.lane false), .zero, .zero, [0, 8], true, false, [0], [0], true⟩)
  | .fscl o => some (o, ⟨(.vreg false), (.lane false), (.lane false), .zero, [0, 8], true, true, [0, 1], [0], true⟩)
  | .fclass o => some (o, ⟨(.vreg false), (.lane false), .zero, .zero, [0, 8, 9, 10, 11, 12], false, false, [0], [0], true⟩)
  | .frcp o => some (o, ⟨(.vreg false), (.lane false), .zero, .zero, [0, 8], false, true, [0], [0], true⟩)
  | .frsq o => some (o, ⟨(.vreg false), (.lane false), .zero, .zero, [0, 8], false, true, [0], [0], true⟩)
  | .fsqrt o => some (o, ⟨(.vreg false), (.lane false), .zero, .zero, [0, 8], true, true, [0], [0], true⟩)
  | .fex2 o => some (o, ⟨(.vreg false), (.lane false), .zero, .zero, [0, 8], false, true, [0], [0], true⟩)
  | .flg2 o => some (o, ⟨(.vreg false), (.lane false), .zero, .zero, [0, 8], false, true, [0], [0], true⟩)
  | .fsin o => some (o, ⟨(.vreg false), (.lane false), .zero, .zero, [0, 8], false, true, [0], [0], true⟩)
  | .fcos o => some (o, ⟨(.vreg false), (.lane false), .zero, .zero, [0, 8], false, true, [0], [0], true⟩)
  | .fcvt o => some (o, ⟨(.vreg (wd o)), (.lane (i64 o.m.sub)), (if o.m.ovf = 3#2 ∧ o.m.fmt = 11#4 then .sreg else .zero), (if o.m.ovf = 3#2 ∧ o.m.fmt = 11#4 then .lane false else .zero), (List.range 13), true, true, (if o.m.fmt = 11#4 then [0, 1, 2, 3] else [0, 1]), ((List.range 13).filter (· ≠ o.m.fmt.toNat)), (!wd o)⟩)
  | .pfadd o => some (o, ⟨(.vreg false), (.lane false), (.lane false), .zero, [9, 10], true, true, [0, 1], [0], true⟩)
  | .pfmul o => some (o, ⟨(.vreg false), (.lane false), (.lane false), .zero, [9, 10], true, true, [0, 1], [0], true⟩)
  | .pffma o => some (o, ⟨(.vreg false), (.lane false), (.lane false), (.lane false), [9, 10], true, true, [0, 1], [0], true⟩)
  | .pfcvt o => some (o, ⟨(.vreg (decide (o.m.fmt = 8#4))), (.lane false), (if o.m.sub = 8#4 then .lane false else .zero), .zero, [8, 9, 10, 11, 12], true, true, (if o.m.fmt = 11#4 then [0, 1, 2] else [0, 1]), (if o.m.fmt = 8#4 then [9, 10] else if o.m.fmt.toNat ≤ 10 then [8, 11, 12] else [9, 10]), (decide (o.m.fmt ≠ 8#4))⟩)
  | .shf o => some (o, ⟨(.vreg false), (.lane false), (.lane false), .zero, [0], false, false, [0], [0, 1, 2, 3], true⟩)
  | .vall o => some (o, ⟨.pred, .predA, .zero, .zero, [0], false, false, [0], [0], false⟩)
  | .vany o => some (o, ⟨.pred, .predA, .zero, .zero, [0], false, false, [0], [0], false⟩)
  | .vbal o => some (o, ⟨(.vreg false), .predA, .zero, .zero, [0], false, false, [0], [0], true⟩)
  | .vmatch o => some (o, ⟨(.vreg false), (.lane false), .zero, .zero, [0], false, false, [0], [0], true⟩)
  | .scan o => some (o, ⟨(.vreg false), (.lane false), .zero, .zero, [0, 1, 8], false, false, [0], (scanOps o (if 8 ≤ o.m.sub.toNat then 8 else 0)), true⟩)
  | .lred o => some (o, ⟨(.vreg false), (.lane false), .zero, .zero, [0, 1, 8], false, false, [0], (scanOps o 0), true⟩)
  | .isect o => some (o, ⟨(.vreg true), (.lane false), (.lane false), .zero, [0, 1], false, false, [0], [0], false⟩)
  | .bnd o => some (o, ⟨.zero, .sreg, .sk, .zero, [0], false, false, [0], [0], false⟩)
  | _ => none

/-- The limits of the I-format instructions. -/
def Instr.ilim : Instr → Option (IOp × ILim)
  | .sli o => some (o, ⟨.sreg, .zero, false, .any⟩)
  | .slih o => some (o, ⟨.sreg, .sca, false, .any⟩)
  | .srd o => some (o, ⟨.sreg, .zero, false, .srd⟩)
  | .swr o => some (o, ⟨.zero, .sca, false, .swr⟩)
  | .saddI o => some (o, ⟨.sreg, .sca, false, .any⟩)
  | .ssubI o => some (o, ⟨.sreg, .sca, false, .any⟩)
  | .smulI o => some (o, ⟨.sreg, .sca, false, .any⟩)
  | .sandI o => some (o, ⟨.sreg, .sca, false, .any⟩)
  | .sorI o => some (o, ⟨.sreg, .sca, false, .any⟩)
  | .sxorI o => some (o, ⟨.sreg, .sca, false, .any⟩)
  | .sshlI o => some (o, ⟨.sreg, .sca, false, (.max 63)⟩)
  | .sshrI o => some (o, ⟨.sreg, .sca, false, (.max 63)⟩)
  | .ssarI o => some (o, ⟨.sreg, .sca, false, (.max 63)⟩)
  | .scmpSignedI o => some (o, ⟨.cmp, .sca, false, .any⟩)
  | .scmpUnsignedI o => some (o, ⟨.cmp, .sca, false, .any⟩)
  | .bra o => some (o, ⟨.zero, .zero, false, .any⟩)
  | .braDivergent o => some (o, ⟨.raw, .raw, false, .any⟩)
  | .call o => some (o, ⟨.sreg, .zero, false, .any⟩)
  | .yield o => some (o, ⟨.zero, .zero, false, .any⟩)
  | .part o => some (o, ⟨.zero, .zero, false, .part⟩)
  | .li o => some (o, ⟨(.vreg false), .zero, true, .any⟩)
  | .iaddI o => some (o, ⟨(.vreg false), (.lane false), true, .any⟩)
  | .isubI o => some (o, ⟨(.vreg false), (.lane false), true, .any⟩)
  | .imulI o => some (o, ⟨(.vreg false), (.lane false), true, .any⟩)
  | .shlI o => some (o, ⟨(.vreg false), (.lane false), true, (.max 31)⟩)
  | .shrI o => some (o, ⟨(.vreg false), (.lane false), true, (.max 31)⟩)
  | .sarI o => some (o, ⟨(.vreg false), (.lane false), true, (.max 31)⟩)
  | .rotI o => some (o, ⟨(.vreg false), (.lane false), true, (.max 31)⟩)
  | .icmpSignedI o => some (o, ⟨.cmp, (.lane false), false, .any⟩)
  | .icmpUnsignedI o => some (o, ⟨.cmp, (.lane false), false, .any⟩)
  | .faddI o => some (o, ⟨(.vreg false), (.lane false), true, .any⟩)
  | .fsubI o => some (o, ⟨(.vreg false), (.lane false), true, .any⟩)
  | .fmulI o => some (o, ⟨(.vreg false), (.lane false), true, .any⟩)
  | .fminI o => some (o, ⟨(.vreg false), (.lane false), true, .any⟩)
  | .fmaxI o => some (o, ⟨(.vreg false), (.lane false), true, .any⟩)
  | .shfI o => some (o, ⟨(.vreg false), (.lane false), true, .shf⟩)
  | _ => none

/-- The limits of the M-format instructions. -/
def Instr.mlim : Instr → Option (MOp × MLim)
  | .ld o => some (o, ⟨.vw, true, .vsk, .zero, [0, 1, 2, 3, 4], .any, false⟩)
  | .st o => some (o, ⟨.zero, true, .vsk, .store, [0, 1, 2, 3, 4], .any, false⟩)
  | .lds o => some (o, ⟨.vw, false, .vsk, .zero, [0, 1, 2, 3, 4], .any, false⟩)
  | .sts o => some (o, ⟨.zero, false, .vsk, .store, [0, 1, 2, 3, 4], .any, false⟩)
  | .ldp o => some (o, ⟨.vw, true, .vsk, .zero, [0, 1, 2, 3, 4], .any, false⟩)
  | .stp o => some (o, ⟨.zero, true, .vsk, .store, [0, 1, 2, 3, 4], .any, false⟩)
  | .sld o => some (o, ⟨.any, true, .sk, .zero, [0, 1, 2, 3], .any, false⟩)
  | .sst o => some (o, ⟨.zero, true, .sk, .sk, [0, 1, 2, 3], .any, false⟩)
  | .pref o => some (o, ⟨.zero, true, .vsk, .zero, [0, 1, 2, 3, 4], .any, false⟩)
  | .acc o => some (o, ⟨.zero, true, .vsk, .vsk, [1, 2], .any, false⟩)
  | .ldt o => some (o, ⟨.any, true, .vsk, .vsk, [1, 2], .any, false⟩)
  | .drn o => some (o, ⟨.zero, (decide (o.imm.toNat / 512 % 4 = 0 ∨ o.imm.toNat / 512 % 4 = 3)), (if o.imm.toNat / 512 % 4 = 2 then .zero else .sk), .zero, [0], .drn, false⟩)
  | .grd o => some (o, ⟨.any, true, .sk, .zero, [3], .zero, false⟩)
  | .atmAdd o => some (o, ⟨.vw, true, .vsk, .store, [2, 3], (.atm false false), false⟩)
  | .atmMin o => some (o, ⟨.vw, true, .vsk, .store, [2, 3], (.atm true false), false⟩)
  | .atmMax o => some (o, ⟨.vw, true, .vsk, .store, [2, 3], (.atm true false), false⟩)
  | .atmAnd o => some (o, ⟨.vw, true, .vsk, .store, [2, 3], (.atm false false), false⟩)
  | .atmOr o => some (o, ⟨.vw, true, .vsk, .store, [2, 3], (.atm false false), false⟩)
  | .atmXor o => some (o, ⟨.vw, true, .vsk, .store, [2, 3], (.atm false false), false⟩)
  | .atmXchg o => some (o, ⟨.vw, true, .vsk, .store, [2, 3, 4], (.atm false false), false⟩)
  | .atmCas o => some (o, ⟨.vw, true, .vsk, .group, [2, 3, 4], (.atm false false), false⟩)
  | .atmFadd o => some (o, ⟨.vw, true, .vsk, .store, [2], (.atm false true), false⟩)
  | .atmFmax o => some (o, ⟨.vw, true, .vsk, .store, [2], (.atm false true), false⟩)
  | .atmsAdd o => some (o, ⟨.vw, false, .vsk, .store, [2, 3], (.atm false false), false⟩)
  | .atmsMin o => some (o, ⟨.vw, false, .vsk, .store, [2, 3], (.atm true false), false⟩)
  | .atmsMax o => some (o, ⟨.vw, false, .vsk, .store, [2, 3], (.atm true false), false⟩)
  | .atmsAnd o => some (o, ⟨.vw, false, .vsk, .store, [2, 3], (.atm false false), false⟩)
  | .atmsOr o => some (o, ⟨.vw, false, .vsk, .store, [2, 3], (.atm false false), false⟩)
  | .atmsXor o => some (o, ⟨.vw, false, .vsk, .store, [2, 3], (.atm false false), false⟩)
  | .atmsXchg o => some (o, ⟨.vw, false, .vsk, .store, [2, 3, 4], (.atm false false), false⟩)
  | .atmsCas o => some (o, ⟨.vw, false, .vsk, .group, [2, 3, 4], (.atm false false), false⟩)
  | .atmsFadd o => some (o, ⟨.vw, false, .vsk, .store, [2], (.atm false true), false⟩)
  | .atmsFmax o => some (o, ⟨.vw, false, .vsk, .store, [2], (.atm false true), false⟩)
  | .clmi o => some (o, ⟨.zero, (decide (o.imm.toNat / 512 % 4 ≠ 1)), .sk, .s, [4], .clm, false⟩)
  | .clmx o => some (o, ⟨.zero, (decide (o.imm.toNat / 512 % 4 ≠ 1)), .sk, .sk, [4], .clm, false⟩)
  | .clma o => some (o, ⟨.zero, (decide (o.imm.toNat / 512 % 4 ≠ 1)), .sk, .zero, [4], .clm, false⟩)
  | .clmw o => some (o, ⟨.zero, (decide (o.imm.toNat / 512 % 4 ≠ 1)), .sk, .sk, [4], .clm, true⟩)
  | .clmt o => some (o, ⟨.pred, (decide (o.imm.toNat / 512 % 4 ≠ 1)), .sk, .sk, [4], .clm, false⟩)
  | _ => none

/-- The limits of the async instructions. -/
def Instr.xlim : Instr → Option (XOp × XLim)
  | .cpy o => some (o, ⟨true, true, true, false, true, true, [0], false⟩)
  | .cpye o => some (o, ⟨true, true, true, false, true, true, [0], false⟩)
  | .rel o => some (o, ⟨true, true, true, true, true, true, [0], false⟩)
  | .cpys o => some (o, ⟨true, true, true, false, true, true, [0], false⟩)
  | .cpym o => some (o, ⟨true, true, true, true, true, true, [0], false⟩)
  | .mat o => some (o, ⟨true, false, true, false, true, true, [0], false⟩)
  | .vdrop o => some (o, ⟨true, false, true, false, true, true, [0], false⟩)
  | .vstat o => some (o, ⟨true, true, false, false, false, true, [0], false⟩)
  | .xput o => some (o, ⟨true, true, true, true, false, false, [0], false⟩)
  | .xred o => some (o, ⟨true, true, true, true, false, false, [0, 1, 2, 4, 5, 6], false⟩)
  | .xget o => some (o, ⟨true, true, true, true, false, false, [0], false⟩)
  | .xfen o => some (o, ⟨false, false, false, false, false, false, [0], true⟩)
  | _ => none

/-- The limits of the matrix instructions. -/
def Instr.tlim : Instr → Option (TOp × TLim)
  | .mmaF8 o => some (o, ⟨true, some 8, true, true, true, false, false⟩)
  | .mmaBf o => some (o, ⟨true, some 8, true, false, false, false, false⟩)
  | .mmaI8 o => some (o, ⟨true, some 8, true, false, false, false, false⟩)
  | .azero o => some (o, ⟨true, none, false, false, false, false, false⟩)
  | .ard o => some (o, ⟨true, some 8, false, false, false, false, true⟩)
  | .awr o => some (o, ⟨true, some 8, false, false, false, false, true⟩)
  | .fin o => some (o, ⟨true, some 1, false, true, false, true, false⟩)
  | .fpl o => some (o, ⟨false, none, false, true, false, true, false⟩)
  | _ => none

/-- The limits of the system instructions. -/
def Instr.ylim : Instr → Option (YOp × YLim)
  | .deq o => some (o, ⟨true, true, false, 0, true, true, false⟩)
  | .enq o => some (o, ⟨true, true, true, 0, false, false, true⟩)
  | .lnch o => some (o, ⟨true, true, false, 0, false, false, false⟩)
  | .cwait o => some (o, ⟨false, true, false, 0, true, false, false⟩)
  | .trap o => some (o, ⟨false, false, false, 131071, true, false, false⟩)
  | .rti o => some (o, ⟨false, false, false, 0, true, false, false⟩)
  | .brk o => some (o, ⟨false, false, false, 131071, true, false, false⟩)
  | .ctxs o => some (o, ⟨true, true, true, 1, false, false, false⟩)
  | .ctxl o => some (o, ⟨true, true, false, 0, false, false, false⟩)
  | .tlbi o => some (o, ⟨false, true, true, 131071, false, false, false⟩)
  | _ => none

/-- Reasons of the no-write-back bit: accepted where a latch is written, with dst zero (R51); 0xB on the ALU classes
(R107, R121, R146), 0x2 elsewhere, where it is an unused field (R45, R221). -/
def nwReasons (nw latch alu : Bool) (d : BitVec 6) : List Nat :=
  if nw then (if latch then rsn (d != 0#6) 2 else if alu then [0xB] else [2]) else []

/-- Whether nw = 1 on an instruction is misuse of a latch: the classes whose entries name nw (scalar, vector, lane exchange), and `call`,
which writes a register and no latch (R45, R51). -/
def Instr.aluCls (i : Instr) : Bool :=
  i.grp == some .scalar || i.grp == some .vector || (match i with
    | .call _ => true
    | _ => false)

/-- The bits of mod that are zero-fields of an instruction whose mod is not laid out as R48 lays it out: all of it in `bnd` (R221), [12:8]
in `lgf` (R48; the reason is that of a zero-field: log 64, DEDUCED). -/
def Instr.zeroMod (i : Instr) : BitVec 13 :=
  match i with
  | .bnd _ => 0x1FFF#13
  | .lgf _ => 0x1F00#13
  | _ => 0#13

/-- Reasons of an R-format word; z is the instruction's zeroMod. -/
def rReasons (o : ROp) (l : RLim) (alu : Bool) (z : BitVec 13) : List Nat :=
  rsn (o.h.hint != 0#2) 4
    ++ nwReasons o.nw l.latch alu o.dst ++ (if o.nw && l.latch then [] else l.dst.reasons o.dst 0)
    ++ l.a.reasons o.a 0 ++ l.b.reasons o.b 0 ++ l.c.reasons o.c 0
    ++ (if z ≠ 0#13 then rsn ((o.m.bits &&& z) != 0#13) 2 else
        rsn (!(l.fmts.contains o.m.fmt.toNat)) 4 ++ rsn (!l.rnd && o.m.rnd != 0#2) 4 ++ rsn (!l.ftz && o.m.ftz) 4
          ++ rsn (!(l.ovf.contains o.m.ovf.toNat)) 4 ++ rsn (!(l.sub.contains o.m.sub.toNat)) 4)

/-- Reasons of a fence word (R60). -/
def fenReasons (o : ROp) : List Nat :=
  let m := o.m.bits
  let scope := m.toNat / 1024
  let kind := m.toNat / 256 % 4
  let paths := m.toNat / 8 % 32
  let promote := m.getLsbD 2
  rsn (o.h.hint != 0#2) 4 ++ rsn o.nw 2 ++ rsn (o.dst != 0#6) 2 ++ rsn (o.b.bits != 0#8) 2 ++ rsn (o.c.bits != 0#8) 2
    ++ rsn (m.toNat % 4 != 0) 2 ++ rsn (decide (5 ≤ scope)) 4 ++ rsn (kind == 0) 4 ++ rsn (paths == 0) 4
    ++ (if promote then SrcRule.reasons .sreg o.a 0 ++ rsn (kind < 2 || scope != 3) 4 else rsn (o.a.bits != 0#8) 2)

/-- Reasons of an I-format word. -/
def iReasons (o : IOp) (l : ILim) (alu : Bool) : List Nat :=
  rsn (o.h.hint != 0#2) 4
    ++ nwReasons o.nw l.latch alu o.dst ++ (if o.nw && l.latch then [] else l.dst.reasons o.dst 0)
    ++ l.a.reasons o.a 0 ++ l.imm.reasons o.imm

/-- Reasons of an M-format word; hint is accepted on the nine instructions of R172 only (R44). -/
def mReasons (o : MOp) (l : MLim) (hint : Bool) : List Nat :=
  let w := o.width.toNat
  rsn (!hint && o.h.hint != 0#2) 4 ++ rsn o.nw 2 ++ l.dst.reasons o.dst w ++ rsn (!l.bn && o.bn != 0#4) 2
    ++ l.off.reasons o.off w ++ l.data.reasons o.data w ++ rsn (o.ctr == 6#3) 4 ++ rsn (l.noCtr && o.ctr != 7#3) 4
    ++ rsn (!(l.widths.contains w)) 4 ++ l.imm.reasons o.imm

/-- Reasons of an async word (R237, R297). -/
def xReasons (o : XOp) (l : XLim) : List Nat :=
  rsn (!l.hint && o.h.hint != 0#2) 4 ++ rsn (!l.sD && o.sD != 0#6) 2 ++ rsn (!l.sS && o.sS != 0#6) 2
    ++ rsn (!l.sN && o.sN != 0#6) 2 ++ rsn (!l.sE && o.sE != 0#6) 2 ++ rsn (o.ctr == 6#3) 4
    ++ rsn (l.noCtr && o.ctr != 7#3) 4 ++ rsn (!l.cont && o.cont) 2
    ++ (if l.cont then rsn (!o.cont && o.c16 != 0#16) 2
        else if l.c16.contains o.c16.toNat then []
        else rsn (decide (8 ≤ o.c16.toNat) || l.c16 == [0]) 2 ++ rsn (o.c16.toNat % 4 == 3 && l.c16 != [0]) 4)

/-- Reasons of a matrix word (R274, R286). -/
def tReasons (o : TOp) (l : TLim) : List Nat :=
  rsn (o.h.hint != 0#2) 4 ++ rsn (!l.tile && o.tile != 0#6) 2
    ++ (match l.va with
        | some k => rsn (o.va.toNat % k != 0) 5
        | none => rsn (o.va != 0#6) 2)
    ++ (if l.vb then rsn (o.vb.toNat % 8 != 0) 5 else rsn (o.vb != 0#6) 2)
    ++ rsn (!l.sF && o.sF != 0#6) 2 ++ rsn (!l.p && o.p) 2 ++ rsn (!l.prog && o.prog != 0#4) 2
    ++ rsn (!l.qtr && o.qtr != 0#2) 2 ++ rsn (o.z != 0#10) 2 ++ rsn (o.ctr == 6#3) 4

/-- Reasons of a system word (R331). -/
def yReasons (o : YOp) (l : YLim) : List Nat :=
  rsn (o.h.hint != 0#2) 4 ++ rsn (!l.sD && o.sD != 0#6) 2 ++ rsn (!l.sA && o.sA != 0#6) 2 ++ rsn (!l.sB && o.sB != 0#6) 2
    ++ rsn (o.z != 0#6) 2 ++ rsn (o.ctr == 6#3) 4 ++ rsn (l.noCtr && o.ctr != 7#3) 4 ++ rsn (decide (l.imm < o.imm.toNat)) 2
    ++ rsn (l.grpD && o.sD.toNat % 8 != 0) 5 ++ rsn (l.grpB && o.sB.toNat % 8 != 0) 5

/-- Reasons of a word whose operand area is zero. -/
def zReasons (o : ZOp) : List Nat := rsn (o.h.hint != 0#2) 4 ++ rsn (o.area != 0#44) 2

/-- The nine memory instructions that take a hint (R44). -/
def Instr.hinted : Instr → Bool
  | .ld _ => true
  | .st _ => true
  | .lds _ => true
  | .sts _ => true
  | .ldp _ => true
  | .stp _ => true
  | .sld _ => true
  | .sst _ => true
  | .pref _ => true
  | _ => false

/-- The reasons for which the decoder refuses a word (R57); `fin` takes any va, since only a program that writes registers reads it
(R286). -/
def Instr.reasons (i : Instr) : List Nat :=
  match i with
  | .exit o => zReasons o
  | .nop o => zReasons o
  | .tbar o => zReasons o
  | .fen o => fenReasons o
  | i =>
    match i.rlim with
    | some (o, l) => rReasons o l i.aluCls i.zeroMod
    | none => match i.ilim with
      | some (o, l) => iReasons o l i.aluCls
      | none => match i.mlim with
        | some (o, l) => mReasons o l i.hinted
        | none => match i.xlim with
          | some (o, l) => xReasons o l
          | none => match i.tlim with
            | some (o, l) => tReasons o l
            | none => match i.ylim with
              | some (o, l) => yReasons o l
              | none => []

/-- A well-formed instruction: the decoder finds no fault in its word (R57, R58). Events are not encoded and carry no
field to check. -/
def Instr.wf (i : Instr) : Bool := i.reasons.isEmpty

/-- The latch written by an instruction at clause position p, if it writes one (R35, R51). -/
def Instr.writesLatch (i : Instr) : Bool :=
  match i.rlim with
  | some (_, l) => l.latch
  | none => match i.ilim with
    | some (_, l) => l.latch
    | none => false

/-- The latches an instruction reads in its source fields (R51). -/
def Instr.latchReads (i : Instr) : List Nat :=
  let one : Src → List Nat := fun x => match x with
    | .y n => [n.toNat % 4]
    | _ => []
  match i.rlim with
  | some (o, l) => if l.a = .predA then [] else one o.a ++ one o.b ++ (if l.c = .predC then [] else one o.c)
  | none => match i.ilim with
    | some (o, l) => if l.a = .raw then [] else one o.a
    | none => []

end Sys2Proof
end

