-- ==== Sys2Proof/Decode.lean ====
section
/-! DEFINITION. The decoder, total on every word and every clause (R42 to R61), and the encoder from the same tables. -/

namespace Sys2Proof

/-- Why a word is refused: the reason codes of R57, by name. -/
inductive BadWord where
  /-- 0x1: no instruction has this opcode. -/
  | unallocated
  /-- 0x2: a reserved or unused field is not zero. -/
  | unusedField
  /-- 0x3: a source kind, constant or latch number that is not accepted. -/
  | sourceKind
  /-- 0x4: a modifier or immediate that is not accepted. -/
  | modifier
  /-- 0x5: a misaligned register or an unwritable destination. -/
  | register
  /-- 0x8: no header, or a header that breaks R53. -/
  | noHeader
  /-- 0x9: the instruction's class may not stand in the clause. -/
  | classOfClause
  /-- 0xA: a transfer of control before the last position. -/
  | notLast
  /-- 0xB: latch misuse. -/
  | latchMisuse
  /-- 0xC: a header word in the body. -/
  | headerInBody
  /-- Fewer bytes than a word. -/
  | shortInput
  deriving DecidableEq, Repr

/-- The reason code (R57). -/
def BadWord.code : BadWord → Nat
  | .unallocated => 1
  | .unusedField => 2
  | .sourceKind => 3
  | .modifier => 4
  | .register => 5
  | .noHeader => 8
  | .classOfClause => 9
  | .notLast => 10
  | .latchMisuse => 11
  | .headerInBody => 12
  | .shortInput => 8

/-- The reason of a code. -/
def BadWord.ofCode : Nat → BadWord
  | 1 => .unallocated
  | 2 => .unusedField
  | 3 => .sourceKind
  | 4 => .modifier
  | 5 => .register
  | 8 => .noHeader
  | 9 => .classOfClause
  | 10 => .notLast
  | 11 => .latchMisuse
  | _ => .headerInBody

/-- The opcode field (R42). -/
def opField (w : W64) : Nat := (w.extractLsb' 54 10).toNat

/-- A guard field (R42). -/
def Guard.ofBits (x : BitVec 4) : Guard := ⟨x.getLsbD 3, x.extractLsb' 0 3⟩

/-- A source field (R47). -/
def Src.ofBits (x : BitVec 8) : Src :=
  let n := x.extractLsb' 0 6
  if x.getLsbD 7 then (if x.getLsbD 6 then .k n else .y n) else if x.getLsbD 6 then .s n else .v n

/-- The mod field (R48). -/
def Mod.ofBits (x : BitVec 13) : Mod :=
  ⟨x.extractLsb' 9 4, x.extractLsb' 7 2, x.getLsbD 6, x.extractLsb' 4 2, x.extractLsb' 0 4⟩

/-- Guards and hint (R42). -/
def parseHdr (w : W64) : Hdr :=
  ⟨Guard.ofBits (w.extractLsb' 50 4), Guard.ofBits (w.extractLsb' 46 4), w.extractLsb' 44 2⟩

/-- Format R (R45). -/
def parseR (w : W64) : ROp :=
  ⟨parseHdr w, w.getLsbD 43, w.extractLsb' 37 6, Src.ofBits (w.extractLsb' 29 8), Src.ofBits (w.extractLsb' 21 8),
    Src.ofBits (w.extractLsb' 13 8), Mod.ofBits (w.extractLsb' 0 13)⟩

/-- Format I (R45). -/
def parseI (w : W64) : IOp :=
  ⟨parseHdr w, w.getLsbD 43, w.extractLsb' 37 6, Src.ofBits (w.extractLsb' 29 8), w.extractLsb' 0 29⟩

/-- An operand area taken whole (R59). -/
def parseZ (w : W64) : ZOp := ⟨parseHdr w, w.extractLsb' 0 44⟩

/-- Format M (R46). -/
def parseM (w : W64) : MOp :=
  ⟨parseHdr w, w.getLsbD 43, w.extractLsb' 37 6, w.extractLsb' 33 4, Src.ofBits (w.extractLsb' 25 8),
    Src.ofBits (w.extractLsb' 17 8), w.extractLsb' 14 3, w.extractLsb' 11 3, w.extractLsb' 0 11⟩

/-- Format X, async (R52). -/
def parseX (w : W64) : XOp :=
  ⟨parseHdr w, w.extractLsb' 38 6, w.extractLsb' 32 6, w.extractLsb' 26 6, w.extractLsb' 20 6, w.extractLsb' 17 3,
    w.getLsbD 16, w.extractLsb' 0 16⟩

/-- Format X, matrix (R52). -/
def parseT (w : W64) : TOp :=
  ⟨parseHdr w, w.extractLsb' 38 6, w.extractLsb' 32 6, w.extractLsb' 26 6, w.extractLsb' 20 6, w.extractLsb' 17 3,
    w.getLsbD 16, w.extractLsb' 12 4, w.extractLsb' 10 2, w.extractLsb' 0 10⟩

/-- Format X, system (R52). -/
def parseY (w : W64) : YOp :=
  ⟨parseHdr w, w.extractLsb' 38 6, w.extractLsb' 32 6, w.extractLsb' 26 6, w.extractLsb' 20 6, w.extractLsb' 17 3,
    w.extractLsb' 0 17⟩

/-- Opcodes 0x000 to 0x07F of the map (R59). -/
def ofOpScalar (w : W64) : Nat → Option Instr
  | 0x000 => some (.smov (parseR w))
  | 0x001 => some (.sadd (parseR w))
  | 0x002 => some (.ssub (parseR w))
  | 0x003 => some (.smul (parseR w))
  | 0x004 => some (.smulh (parseR w))
  | 0x005 => some (.sand (parseR w))
  | 0x006 => some (.sor (parseR w))
  | 0x007 => some (.sxor (parseR w))
  | 0x008 => some (.sshl (parseR w))
  | 0x009 => some (.sshr (parseR w))
  | 0x00A => some (.ssar (parseR w))
  | 0x00B => some (.smin (parseR w))
  | 0x00C => some (.smax (parseR w))
  | 0x00D => some (.scmpSigned (parseR w))
  | 0x00E => some (.scmpUnsigned (parseR w))
  | 0x00F => some (.ssel (parseR w))
  | 0x010 => some (.sclz (parseR w))
  | 0x011 => some (.spop (parseR w))
  | 0x012 => some (.sxlat (parseR w))
  | 0x020 => some (.sli (parseI w))
  | 0x021 => some (.slih (parseI w))
  | 0x022 => some (.srd (parseI w))
  | 0x023 => some (.swr (parseI w))
  | 0x041 => some (.saddI (parseI w))
  | 0x042 => some (.ssubI (parseI w))
  | 0x043 => some (.smulI (parseI w))
  | 0x045 => some (.sandI (parseI w))
  | 0x046 => some (.sorI (parseI w))
  | 0x047 => some (.sxorI (parseI w))
  | 0x048 => some (.sshlI (parseI w))
  | 0x049 => some (.sshrI (parseI w))
  | 0x04A => some (.ssarI (parseI w))
  | 0x04D => some (.scmpSignedI (parseI w))
  | 0x04E => some (.scmpUnsignedI (parseI w))
  | _ => none

/-- Opcodes 0x080 to 0x0BF of the map (R59). -/
def ofOpFlow (w : W64) : Nat → Option Instr
  | 0x080 => some (.bra (parseI w))
  | 0x081 => some (.braDivergent (parseI w))
  | 0x082 => some (.brx (parseR w))
  | 0x083 => some (.call (parseI w))
  | 0x084 => some (.ret (parseR w))
  | 0x085 => some (.exit (parseZ w))
  | 0x086 => some (.yield (parseI w))
  | 0x087 => some (.nop (parseZ w))
  | 0x088 => some (.part (parseI w))
  | _ => none

/-- Opcodes 0x0C0 to 0x17F of the map (R59). -/
def ofOpVec (w : W64) : Nat → Option Instr
  | 0x0C0 => some (.mov (parseR w))
  | 0x0C1 => some (.iadd (parseR w))
  | 0x0C2 => some (.isub (parseR w))
  | 0x0C3 => some (.iaddc (parseR w))
  | 0x0C4 => some (.isubb (parseR w))
  | 0x0C5 => some (.imul (parseR w))
  | 0x0C6 => some (.imulh (parseR w))
  | 0x0C7 => some (.imad (parseR w))
  | 0x0C8 => some (.imin (parseR w))
  | 0x0C9 => some (.imax (parseR w))
  | 0x0CA => some (.iabs (parseR w))
  | 0x0CB => some (.lgf (parseR w))
  | 0x0CC => some (.shl (parseR w))
  | 0x0CD => some (.shr (parseR w))
  | 0x0CE => some (.sar (parseR w))
  | 0x0CF => some (.rot (parseR w))
  | 0x0D0 => some (.clz (parseR w))
  | 0x0D1 => some (.pop (parseR w))
  | 0x0D2 => some (.brev (parseR w))
  | 0x0D3 => some (.bfx (parseR w))
  | 0x0D4 => some (.bfi (parseR w))
  | 0x0D5 => some (.bmix (parseR w))
  | 0x0D6 => some (.icmpSigned (parseR w))
  | 0x0D7 => some (.icmpUnsigned (parseR w))
  | 0x0D8 => some (.sel (parseR w))
  | 0x0D9 => some (.iext (parseR w))
  | 0x100 => some (.li (parseI w))
  | 0x101 => some (.iaddI (parseI w))
  | 0x102 => some (.isubI (parseI w))
  | 0x105 => some (.imulI (parseI w))
  | 0x10C => some (.shlI (parseI w))
  | 0x10D => some (.shrI (parseI w))
  | 0x10E => some (.sarI (parseI w))
  | 0x10F => some (.rotI (parseI w))
  | 0x116 => some (.icmpSignedI (parseI w))
  | 0x117 => some (.icmpUnsignedI (parseI w))
  | _ => none

/-- Opcodes 0x180 to 0x23F of the map (R59). -/
def ofOpFloat (w : W64) : Nat → Option Instr
  | 0x180 => some (.fadd (parseR w))
  | 0x181 => some (.fsub (parseR w))
  | 0x182 => some (.fmul (parseR w))
  | 0x183 => some (.ffma (parseR w))
  | 0x184 => some (.fmin (parseR w))
  | 0x185 => some (.fmax (parseR w))
  | 0x186 => some (.fcmp (parseR w))
  | 0x187 => some (.frnd (parseR w))
  | 0x188 => some (.fscl (parseR w))
  | 0x189 => some (.fclass (parseR w))
  | 0x18A => some (.frcp (parseR w))
  | 0x18B => some (.frsq (parseR w))
  | 0x18C => some (.fsqrt (parseR w))
  | 0x18D => some (.fex2 (parseR w))
  | 0x18E => some (.flg2 (parseR w))
  | 0x18F => some (.fsin (parseR w))
  | 0x190 => some (.fcos (parseR w))
  | 0x191 => some (.fcvt (parseR w))
  | 0x192 => some (.pfadd (parseR w))
  | 0x193 => some (.pfmul (parseR w))
  | 0x194 => some (.pffma (parseR w))
  | 0x195 => some (.pfcvt (parseR w))
  | 0x1C0 => some (.faddI (parseI w))
  | 0x1C1 => some (.fsubI (parseI w))
  | 0x1C2 => some (.fmulI (parseI w))
  | 0x1C4 => some (.fminI (parseI w))
  | 0x1C5 => some (.fmaxI (parseI w))
  | _ => none

/-- Opcodes 0x240 to 0x27F of the map (R59). -/
def ofOpLane (w : W64) : Nat → Option Instr
  | 0x240 => some (.shf (parseR w))
  | 0x241 => some (.vall (parseR w))
  | 0x242 => some (.vany (parseR w))
  | 0x243 => some (.vbal (parseR w))
  | 0x244 => some (.vmatch (parseR w))
  | 0x245 => some (.scan (parseR w))
  | 0x246 => some (.lred (parseR w))
  | 0x247 => some (.isect (parseR w))
  | 0x260 => some (.shfI (parseI w))
  | _ => none

/-- Opcodes 0x280 to 0x33F of the map (R59). -/
def ofOpMem (w : W64) : Nat → Option Instr
  | 0x280 => some (.ld (parseM w))
  | 0x281 => some (.st (parseM w))
  | 0x282 => some (.lds (parseM w))
  | 0x283 => some (.sts (parseM w))
  | 0x284 => some (.ldp (parseM w))
  | 0x285 => some (.stp (parseM w))
  | 0x286 => some (.sld (parseM w))
  | 0x287 => some (.sst (parseM w))
  | 0x288 => some (.pref (parseM w))
  | 0x2E0 => some (.acc (parseM w))
  | 0x2E1 => some (.ldt (parseM w))
  | 0x2E2 => some (.drn (parseM w))
  | 0x2E3 => some (.grd (parseM w))
  | 0x2E4 => some (.bnd (parseR w))
  | 0x300 => some (.atmAdd (parseM w))
  | 0x301 => some (.atmMin (parseM w))
  | 0x302 => some (.atmMax (parseM w))
  | 0x303 => some (.atmAnd (parseM w))
  | 0x304 => some (.atmOr (parseM w))
  | 0x305 => some (.atmXor (parseM w))
  | 0x306 => some (.atmXchg (parseM w))
  | 0x307 => some (.atmCas (parseM w))
  | 0x308 => some (.atmFadd (parseM w))
  | 0x309 => some (.atmFmax (parseM w))
  | 0x310 => some (.atmsAdd (parseM w))
  | 0x311 => some (.atmsMin (parseM w))
  | 0x312 => some (.atmsMax (parseM w))
  | 0x313 => some (.atmsAnd (parseM w))
  | 0x314 => some (.atmsOr (parseM w))
  | 0x315 => some (.atmsXor (parseM w))
  | 0x316 => some (.atmsXchg (parseM w))
  | 0x317 => some (.atmsCas (parseM w))
  | 0x318 => some (.atmsFadd (parseM w))
  | 0x319 => some (.atmsFmax (parseM w))
  | 0x320 => some (.fen (parseR w))
  | 0x321 => some (.clmi (parseM w))
  | 0x322 => some (.clmx (parseM w))
  | 0x323 => some (.clma (parseM w))
  | 0x324 => some (.clmw (parseM w))
  | 0x325 => some (.clmt (parseM w))
  | 0x326 => some (.tbar (parseZ w))
  | _ => none

/-- Opcodes 0x340 to 0x3EF of the map (R59). -/
def ofOpAsync (w : W64) : Nat → Option Instr
  | 0x340 => some (.cpy (parseX w))
  | 0x341 => some (.cpye (parseX w))
  | 0x342 => some (.rel (parseX w))
  | 0x343 => some (.cpys (parseX w))
  | 0x344 => some (.cpym (parseX w))
  | 0x345 => some (.mat (parseX w))
  | 0x346 => some (.vdrop (parseX w))
  | 0x347 => some (.vstat (parseX w))
  | 0x380 => some (.mmaF8 (parseT w))
  | 0x381 => some (.mmaBf (parseT w))
  | 0x382 => some (.mmaI8 (parseT w))
  | 0x383 => some (.azero (parseT w))
  | 0x384 => some (.ard (parseT w))
  | 0x385 => some (.awr (parseT w))
  | 0x386 => some (.fin (parseT w))
  | 0x387 => some (.fpl (parseT w))
  | 0x3A0 => some (.xput (parseX w))
  | 0x3A1 => some (.xred (parseX w))
  | 0x3A2 => some (.xget (parseX w))
  | 0x3A3 => some (.xfen (parseX w))
  | 0x3B0 => some (.deq (parseY w))
  | 0x3B1 => some (.enq (parseY w))
  | 0x3B2 => some (.lnch (parseY w))
  | 0x3B3 => some (.cwait (parseY w))
  | 0x3B4 => some (.trap (parseY w))
  | 0x3B5 => some (.rti (parseY w))
  | 0x3B6 => some (.brk (parseY w))
  | 0x3B7 => some (.ctxs (parseY w))
  | 0x3B8 => some (.ctxl (parseY w))
  | 0x3B9 => some (.tlbi (parseY w))
  | _ => none

/-- The instruction of an opcode, its fields taken as they stand (R59). -/
def ofOp (w : W64) (op : Nat) : Option Instr :=
  if op < 0x80 then ofOpScalar w op
  else if op < 0xC0 then ofOpFlow w op
  else if op < 0x180 then ofOpVec w op
  else if op < 0x240 then ofOpFloat w op
  else if op < 0x280 then ofOpLane w op
  else if op < 0x340 then ofOpMem w op
  else ofOpAsync w op

/-- One instruction word: its instruction, or the lowest reason of R57 that applies to the word alone. -/
def decodeWord (w : W64) : Except BadWord Instr :=
  if 0x3F0 ≤ opField w then .error .headerInBody
  else match ofOp w (opField w) with
    | none => .error .unallocated
    | some i => match i.reasons.min? with
      | none => .ok i
      | some r => .error (BadWord.ofCode r)

/-- The first word of a byte list, and the rest (R3: little-endian). -/
def decodeBytes (bs : List Byte) : Except BadWord (Instr × List Byte) :=
  if bs.length < 8 then .error .shortInput
  else match decodeWord (BitVec.ofNat 64 (leNat (bs.take 8))) with
    | .ok i => .ok (i, bs.drop 8)
    | .error r => .error r

/-- A clause header (R33, R53). -/
structure Header where
  cls : BitVec 3
  count : BitVec 4
  mask : BitVec 6
  tctr : BitVec 3
  thr : BitVec 4
  yld : Bool
  deriving DecidableEq, Repr

/-- The class a code names (R33). -/
def clsOf (c : BitVec 3) : Option Cls :=
  match c.toNat with
  | 0 => some .alu
  | 1 => some .mem
  | 2 => some .async
  | 3 => some .mtx
  | 4 => some .sys
  | _ => none

/-- A word that carries the marker of a header (R33). -/
def isHeader (w : W64) : Bool := w.extractLsb' 58 6 == 0x3F#6

/-- A header word's fields (R33). -/
def headerOf (w : W64) : Header :=
  ⟨w.extractLsb' 55 3, w.extractLsb' 51 4, w.extractLsb' 45 6, w.extractLsb' 42 3, w.extractLsb' 38 4, w.getLsbD 37⟩

/-- A header word, refused where it lacks the marker or breaks R53. -/
def decodeHeader (w : W64) : Except BadWord Header :=
  let h := headerOf w
  if !(isHeader w) || h.tctr == 6#3 || (h.tctr == 7#3 && h.thr != 0#4) || h.mask.getLsbD h.tctr.toNat
      || decide (5 ≤ h.cls.toNat) || w.extractLsb' 0 37 != 0#37 then .error .noHeader
  else .ok h

/-- The word of a header (R33). -/
def encodeHeader (h : Header) : W64 :=
  0x3F#6 ++ h.cls ++ h.count ++ h.mask ++ h.tctr ++ h.thr ++ BitVec.ofBool h.yld ++ 0#37

/-- Which instruction classes a clause class holds (R34). -/
def Cls.holds : Cls → Grp → Bool
  | _, .nop => true
  | _, .flow => true
  | .alu, .scalar => true
  | .alu, .vector => true
  | .alu, .part => true
  | .mem, .memory => true
  | .async, .copy => true
  | .async, .fabric => true
  | .mtx, .matrix => true
  | .sys, .system => true
  | _, _ => false

/-- A copy instruction with cont = 1 (R52). -/
def Instr.cont (i : Instr) : Bool :=
  match i.xlim with
  | some (o, _) => o.cont
  | none => false

/-- rti transfers control and stands only last (R331). -/
def Instr.isRti (i : Instr) : Bool :=
  match i with
  | .rti _ => true
  | _ => false

/-- Reasons an instruction has at its place in a clause: its own, its class, its position, its latches (R34, R51, R57). -/
def placeReasons (cls : Cls) (last : Bool) (written : List Nat) (i : Instr) : List Nat :=
  i.reasons
    ++ (match i.grp with
        | some g => rsn (!(cls.holds g)) 9
        | none => [9])
    ++ rsn (!last && (i.grp == some .flow || i.cont || i.isRti)) 10
    ++ rsn (i.latchReads.any (fun k => cls != .alu || !(written.contains k))) 11

/-- The body of a clause from position p on: the instructions, or the position and reason of the first faulty word. -/
def decodeBody (cls : Cls) : Nat → List Nat → List W64 → Except (Nat × BadWord) (List Instr)
  | _, _, [] => .ok []
  | p, written, w :: ws =>
    if 0x3F0 ≤ opField w then .error (p, .headerInBody)
    else match ofOp w (opField w) with
      | none => .error (p, .unallocated)
      | some i =>
        match (placeReasons cls ws.isEmpty written i).min? with
        | some r => .error (p, BadWord.ofCode r)
        | none =>
          match decodeBody cls (p + 1) (if i.writesLatch then (p % 4) :: written else written) ws with
          | .ok is => .ok (i :: is)
          | .error e => .error e

/-- A decoding fault of a clause: the word (0 the header, i + 1 the instruction at position i) and its reason (R57). -/
structure ClauseFault where
  word : Nat
  why : BadWord
  deriving DecidableEq, Repr

/-- The cause of a decoding fault: ILLEGAL_OP 0x01 or ILLEGAL_CLAUSE 0x02 (R57). -/
def ClauseFault.cause (f : ClauseFault) : Nat := if f.why.code < 8 then 1 else 2

/-- What %tinfo holds on a decoding fault (R57). -/
def ClauseFault.tinfo (f : ClauseFault) : W64 := BitVec.ofNat 64 (f.why.code * 256 + f.word)

/-- The instructions of a clause whose header has been accepted (R53, R57). -/
def decodeClause (h : Header) (body : List W64) : Except ClauseFault (List Instr) :=
  match clsOf h.cls with
  | none => .error ⟨0, .noHeader⟩
  | some c => match decodeBody c 0 [] body with
    | .ok is => .ok is
    | .error (p, r) => .error ⟨p + 1, r⟩

/-- The number of words of a clause body (R33: the count field is one less). -/
def Header.words (h : Header) : Nat := h.count.toNat + 1

/-- The guard kind of an instruction: per lane (P) or once for the slat (Q) (R43, R59). -/
def Instr.perLane (i : Instr) : Bool :=
  match i with
  | .sld _ => false
  | .sst _ => false
  | .drn _ => false
  | .grd _ => false
  | .bnd _ => false
  | .fen _ => false
  | .clmi _ => false
  | .clmx _ => false
  | .clma _ => false
  | .clmw _ => false
  | .clmt _ => false
  | .tbar _ => false
  | .braDivergent _ => true
  | i => i.grp == some .vector || i.grp == some .memory

/-- A guard field's bits (R42). -/
def Guard.bits (g : Guard) : BitVec 4 := BitVec.ofBool g.neg ++ g.p

/-- The top 20 bits of a word (R42). -/
def encHdr (op : Nat) (h : Hdr) : BitVec 20 := BitVec.ofNat 10 op ++ h.g1.bits ++ h.g2.bits ++ h.hint

/-- Format R (R45). -/
def encR (op : Nat) (o : ROp) : W64 :=
  encHdr op o.h ++ (BitVec.ofBool o.nw ++ o.dst ++ o.a.bits ++ o.b.bits ++ o.c.bits ++ o.m.bits : BitVec 44)

/-- Format I (R45). -/
def encI (op : Nat) (o : IOp) : W64 := encHdr op o.h ++ (BitVec.ofBool o.nw ++ o.dst ++ o.a.bits ++ o.imm : BitVec 44)

/-- An operand area taken whole (R59). -/
def encZ (op : Nat) (o : ZOp) : W64 := encHdr op o.h ++ o.area

/-- Format M (R46). -/
def encM (op : Nat) (o : MOp) : W64 :=
  encHdr op o.h ++ (BitVec.ofBool o.nw ++ o.dst ++ o.bn ++ o.off.bits ++ o.data.bits ++ o.ctr ++ o.width ++ o.imm : BitVec 44)

/-- Format X, async (R52). -/
def encX (op : Nat) (o : XOp) : W64 :=
  encHdr op o.h ++ (o.sD ++ o.sS ++ o.sN ++ o.sE ++ o.ctr ++ BitVec.ofBool o.cont ++ o.c16 : BitVec 44)

/-- Format X, matrix (R52). -/
def encT (op : Nat) (o : TOp) : W64 :=
  encHdr op o.h ++ (o.tile ++ o.va ++ o.vb ++ o.sF ++ o.ctr ++ BitVec.ofBool o.p ++ o.prog ++ o.qtr ++ o.z : BitVec 44)

/-- Format X, system (R52). -/
def encY (op : Nat) (o : YOp) : W64 :=
  encHdr op o.h ++ (o.sD ++ o.sA ++ o.sB ++ o.z ++ o.ctr ++ o.imm : BitVec 44)

/-- The word of an encoded instruction (R59); none for an event, which no word encodes. -/
def encode : Instr → Option W64
  | .smov o => some (encR 0x000 o)
  | .sadd o => some (encR 0x001 o)
  | .ssub o => some (encR 0x002 o)
  | .smul o => some (encR 0x003 o)
  | .smulh o => some (encR 0x004 o)
  | .sand o => some (encR 0x005 o)
  | .sor o => some (encR 0x006 o)
  | .sxor o => some (encR 0x007 o)
  | .sshl o => some (encR 0x008 o)
  | .sshr o => some (encR 0x009 o)
  | .ssar o => some (encR 0x00A o)
  | .smin o => some (encR 0x00B o)
  | .smax o => some (encR 0x00C o)
  | .scmpSigned o => some (encR 0x00D o)
  | .scmpUnsigned o => some (encR 0x00E o)
  | .ssel o => some (encR 0x00F o)
  | .sclz o => some (encR 0x010 o)
  | .spop o => some (encR 0x011 o)
  | .sxlat o => some (encR 0x012 o)
  | .sli o => some (encI 0x020 o)
  | .slih o => some (encI 0x021 o)
  | .srd o => some (encI 0x022 o)
  | .swr o => some (encI 0x023 o)
  | .saddI o => some (encI 0x041 o)
  | .ssubI o => some (encI 0x042 o)
  | .smulI o => some (encI 0x043 o)
  | .sandI o => some (encI 0x045 o)
  | .sorI o => some (encI 0x046 o)
  | .sxorI o => some (encI 0x047 o)
  | .sshlI o => some (encI 0x048 o)
  | .sshrI o => some (encI 0x049 o)
  | .ssarI o => some (encI 0x04A o)
  | .scmpSignedI o => some (encI 0x04D o)
  | .scmpUnsignedI o => some (encI 0x04E o)
  | .bra o => some (encI 0x080 o)
  | .braDivergent o => some (encI 0x081 o)
  | .brx o => some (encR 0x082 o)
  | .call o => some (encI 0x083 o)
  | .ret o => some (encR 0x084 o)
  | .exit o => some (encZ 0x085 o)
  | .yield o => some (encI 0x086 o)
  | .nop o => some (encZ 0x087 o)
  | .part o => some (encI 0x088 o)
  | .mov o => some (encR 0x0C0 o)
  | .iadd o => some (encR 0x0C1 o)
  | .isub o => some (encR 0x0C2 o)
  | .iaddc o => some (encR 0x0C3 o)
  | .isubb o => some (encR 0x0C4 o)
  | .imul o => some (encR 0x0C5 o)
  | .imulh o => some (encR 0x0C6 o)
  | .imad o => some (encR 0x0C7 o)
  | .imin o => some (encR 0x0C8 o)
  | .imax o => some (encR 0x0C9 o)
  | .iabs o => some (encR 0x0CA o)
  | .lgf o => some (encR 0x0CB o)
  | .shl o => some (encR 0x0CC o)
  | .shr o => some (encR 0x0CD o)
  | .sar o => some (encR 0x0CE o)
  | .rot o => some (encR 0x0CF o)
  | .clz o => some (encR 0x0D0 o)
  | .pop o => some (encR 0x0D1 o)
  | .brev o => some (encR 0x0D2 o)
  | .bfx o => some (encR 0x0D3 o)
  | .bfi o => some (encR 0x0D4 o)
  | .bmix o => some (encR 0x0D5 o)
  | .icmpSigned o => some (encR 0x0D6 o)
  | .icmpUnsigned o => some (encR 0x0D7 o)
  | .sel o => some (encR 0x0D8 o)
  | .iext o => some (encR 0x0D9 o)
  | .li o => some (encI 0x100 o)
  | .iaddI o => some (encI 0x101 o)
  | .isubI o => some (encI 0x102 o)
  | .imulI o => some (encI 0x105 o)
  | .shlI o => some (encI 0x10C o)
  | .shrI o => some (encI 0x10D o)
  | .sarI o => some (encI 0x10E o)
  | .rotI o => some (encI 0x10F o)
  | .icmpSignedI o => some (encI 0x116 o)
  | .icmpUnsignedI o => some (encI 0x117 o)
  | .fadd o => some (encR 0x180 o)
  | .fsub o => some (encR 0x181 o)
  | .fmul o => some (encR 0x182 o)
  | .ffma o => some (encR 0x183 o)
  | .fmin o => some (encR 0x184 o)
  | .fmax o => some (encR 0x185 o)
  | .fcmp o => some (encR 0x186 o)
  | .frnd o => some (encR 0x187 o)
  | .fscl o => some (encR 0x188 o)
  | .fclass o => some (encR 0x189 o)
  | .frcp o => some (encR 0x18A o)
  | .frsq o => some (encR 0x18B o)
  | .fsqrt o => some (encR 0x18C o)
  | .fex2 o => some (encR 0x18D o)
  | .flg2 o => some (encR 0x18E o)
  | .fsin o => some (encR 0x18F o)
  | .fcos o => some (encR 0x190 o)
  | .fcvt o => some (encR 0x191 o)
  | .pfadd o => some (encR 0x192 o)
  | .pfmul o => some (encR 0x193 o)
  | .pffma o => some (encR 0x194 o)
  | .pfcvt o => some (encR 0x195 o)
  | .faddI o => some (encI 0x1C0 o)
  | .fsubI o => some (encI 0x1C1 o)
  | .fmulI o => some (encI 0x1C2 o)
  | .fminI o => some (encI 0x1C4 o)
  | .fmaxI o => some (encI 0x1C5 o)
  | .shf o => some (encR 0x240 o)
  | .vall o => some (encR 0x241 o)
  | .vany o => some (encR 0x242 o)
  | .vbal o => some (encR 0x243 o)
  | .vmatch o => some (encR 0x244 o)
  | .scan o => some (encR 0x245 o)
  | .lred o => some (encR 0x246 o)
  | .isect o => some (encR 0x247 o)
  | .shfI o => some (encI 0x260 o)
  | .ld o => some (encM 0x280 o)
  | .st o => some (encM 0x281 o)
  | .lds o => some (encM 0x282 o)
  | .sts o => some (encM 0x283 o)
  | .ldp o => some (encM 0x284 o)
  | .stp o => some (encM 0x285 o)
  | .sld o => some (encM 0x286 o)
  | .sst o => some (encM 0x287 o)
  | .pref o => some (encM 0x288 o)
  | .acc o => some (encM 0x2E0 o)
  | .ldt o => some (encM 0x2E1 o)
  | .drn o => some (encM 0x2E2 o)
  | .grd o => some (encM 0x2E3 o)
  | .bnd o => some (encR 0x2E4 o)
  | .atmAdd o => some (encM 0x300 o)
  | .atmMin o => some (encM 0x301 o)
  | .atmMax o => some (encM 0x302 o)
  | .atmAnd o => some (encM 0x303 o)
  | .atmOr o => some (encM 0x304 o)
  | .atmXor o => some (encM 0x305 o)
  | .atmXchg o => some (encM 0x306 o)
  | .atmCas o => some (encM 0x307 o)
  | .atmFadd o => some (encM 0x308 o)
  | .atmFmax o => some (encM 0x309 o)
  | .atmsAdd o => some (encM 0x310 o)
  | .atmsMin o => some (encM 0x311 o)
  | .atmsMax o => some (encM 0x312 o)
  | .atmsAnd o => some (encM 0x313 o)
  | .atmsOr o => some (encM 0x314 o)
  | .atmsXor o => some (encM 0x315 o)
  | .atmsXchg o => some (encM 0x316 o)
  | .atmsCas o => some (encM 0x317 o)
  | .atmsFadd o => some (encM 0x318 o)
  | .atmsFmax o => some (encM 0x319 o)
  | .fen o => some (encR 0x320 o)
  | .clmi o => some (encM 0x321 o)
  | .clmx o => some (encM 0x322 o)
  | .clma o => some (encM 0x323 o)
  | .clmw o => some (encM 0x324 o)
  | .clmt o => some (encM 0x325 o)
  | .tbar o => some (encZ 0x326 o)
  | .cpy o => some (encX 0x340 o)
  | .cpye o => some (encX 0x341 o)
  | .rel o => some (encX 0x342 o)
  | .cpys o => some (encX 0x343 o)
  | .cpym o => some (encX 0x344 o)
  | .mat o => some (encX 0x345 o)
  | .vdrop o => some (encX 0x346 o)
  | .vstat o => some (encX 0x347 o)
  | .mmaF8 o => some (encT 0x380 o)
  | .mmaBf o => some (encT 0x381 o)
  | .mmaI8 o => some (encT 0x382 o)
  | .azero o => some (encT 0x383 o)
  | .ard o => some (encT 0x384 o)
  | .awr o => some (encT 0x385 o)
  | .fin o => some (encT 0x386 o)
  | .fpl o => some (encT 0x387 o)
  | .xput o => some (encX 0x3A0 o)
  | .xred o => some (encX 0x3A1 o)
  | .xget o => some (encX 0x3A2 o)
  | .xfen o => some (encX 0x3A3 o)
  | .deq o => some (encY 0x3B0 o)
  | .enq o => some (encY 0x3B1 o)
  | .lnch o => some (encY 0x3B2 o)
  | .cwait o => some (encY 0x3B3 o)
  | .trap o => some (encY 0x3B4 o)
  | .rti o => some (encY 0x3B5 o)
  | .brk o => some (encY 0x3B6 o)
  | .ctxs o => some (encY 0x3B7 o)
  | .ctxl o => some (encY 0x3B8 o)
  | .tlbi o => some (encY 0x3B9 o)
  | _ => none

/-- A finish step's fields (R61). -/
structure FStep where
  kop : BitVec 5
  fd : BitVec 2
  fa : BitVec 2
  bsel : BitVec 3
  operand : BitVec 20
  deriving DecidableEq, Repr

/-- The fields of a finish-step word (R61). -/
def parseFStep (w : W32) : FStep :=
  ⟨w.extractLsb' 27 5, w.extractLsb' 25 2, w.extractLsb' 23 2, w.extractLsb' 20 3, w.extractLsb' 0 20⟩

/-- The word of a finish step (R61). -/
def encFStep (s : FStep) : W32 := s.kop ++ s.fd ++ s.fa ++ s.bsel ++ s.operand

/-- The format codes a finish step accepts: .f32, .bf16, .e4m3 (R61). -/
def finFmt (n : Nat) : Bool := n == 8 || n == 10 || n == 11

/-- Second operand of an arithmetic step: bsel 0 to 3, where register 0 to 3 uses operand[1:0] alone (R61). -/
def FStep.opndOk (s : FStep) : Bool :=
  match s.bsel.toNat with
  | 0 => decide (s.operand.toNat < 4)
  | 1 => true
  | 2 => true
  | 3 => true
  | _ => false

/-- Whether fpl accepts a step (R61); the overflow modes of a kcvt are those R283 gives its format. -/
def FStep.ok (s : FStep) : Bool :=
  let d0 := s.fd == 0#2
  let a0 := s.fa == 0#2
  let b0 := s.bsel == 0#3
  let n := s.operand.toNat
  match s.kop.toNat with
  | 0x00 => a0 && s.bsel == 4#3 && n == 0
  | 0x01 => s.opndOk
  | 0x02 => s.opndOk
  | 0x03 => s.opndOk
  | 0x04 => s.opndOk
  | 0x05 => b0 && decide (n < 256)
  | 0x06 => s.opndOk
  | 0x07 => d0 && b0 && n == 0
  | 0x08 => b0 && decide (n < 64) && finFmt (n % 16) && (n % 16 == 11 || n / 16 == 0 || (n % 16 == 10 && n / 16 == 1))
  | 0x09 => d0 && b0 && n % 16384 == 0 && decide (n / 262144 ≠ 3) && finFmt (n / 16384 % 16)
  | 0x0A => d0 && a0 && b0 && n == 0
  | _ => false

/-- The instruction the decoder reads from a word of nbits bits, numbered from its least significant bit; every instruction
is one 64-bit little-endian word (R3, R42). -/
def decodeTableWord (nbits w : Nat) : Option Instr :=
  match decodeWord (BitVec.ofNat 64 (w % 2 ^ nbits)) with
  | .ok i => some i
  | .error _ => none

end Sys2Proof
end

