-- ==== Sys2Proof/Machine/Crypto.lean ====
section
/-! DEFINITION. The functions that the manual names by their standards: the AES-256 block cipher (FIPS 197) and SHAKE256 (FIPS 202), which
R345, R372 and R379 use. (Log 50: PRESUMED.) -/

namespace Sys2Proof.Machine

/-- Sixteen bytes as a block, byte 0 the most significant, as GCM numbers them. -/
def beBlock (bs : List Byte) : W128 := (List.range 16).foldl (fun (x : W128) i => x <<< 8 ||| (bs.getD i 0#8).zeroExtend 128) 0#128

/-- A block's bytes, the most significant first. -/
def blockBytes (x : W128) : List Byte := (List.range 16).map (fun i => (x >>> (8 * (15 - i))).truncate 8)

/-- Doubling in the field of AES. -/
def aesDouble (x : Byte) : Byte := if x.getLsbD 7 then (x <<< 1) ^^^ 0x1B#8 else x <<< 1

/-- Multiplication in the field of AES. -/
def aesMul (x y : Byte) : Byte :=
  ((List.range 8).foldl (fun (a : Byte × Byte) i => (if y.getLsbD i then a.1 ^^^ a.2 else a.1, aesDouble a.2)) (0#8, x)).1

/-- The inverse in the field of AES, zero for zero: the 254th power. -/
def aesInverse (x : Byte) : Byte :=
  (List.range 7).foldl (fun (a : Byte × Byte) _ => let s := aesMul a.2 a.2; (aesMul a.1 s, s)) (1#8, x) |>.1

/-- The substitution of a byte, computed. -/
def aesSubOf (x : Byte) : Byte :=
  let b := aesInverse x
  b ^^^ b.rotateLeft 1 ^^^ b.rotateLeft 2 ^^^ b.rotateLeft 3 ^^^ b.rotateLeft 4 ^^^ 0x63#8

/-- The substitution of every byte. -/
def aesSubTable : Array Byte := ((List.range 256).map (fun i => aesSubOf (BitVec.ofNat 8 i))).toArray

/-- The substitution of a byte. -/
def aesSub (x : Byte) : Byte := aesSubTable.getD x.toNat 0#8

/-- The round words of a 256-bit key: each word is four bytes; n words are made, the latest first. -/
def aesWords (key : List Byte) : Nat → List (List Byte)
  | 0 => []
  | n + 1 =>
    let ws := aesWords key n
    if n < 8 then (List.range 4).map (fun j => key.getD (4 * n + j) 0#8) :: ws
    else
      let last := ws.getD 0 []
      let t := if n % 8 = 0 then
          let r := (last.drop 1 ++ last.take 1).map aesSub
          (r.zipIdx).map (fun b => if b.2 = 0 then b.1 ^^^ (1#8 <<< (n / 8 - 1)) else b.1)
        else if n % 8 = 4 then last.map aesSub else last
      (List.zipWith (· ^^^ ·) (ws.getD 7 []) t) :: ws

/-- The round keys of AES-256, first to last: fifteen of sixteen bytes. -/
def aesKeys (key : List Byte) : List (List Byte) :=
  let ws := (aesWords key 60).reverse
  (List.range 15).map (fun r => ((ws.drop (4 * r)).take 4).flatten)

/-- The rows of a block shifted, byte 4c + r being row r of column c. -/
def aesShift (b : List Byte) : List Byte := (List.range 16).map (fun i => b.getD ((i + 4 * (i % 4)) % 16) 0#8)

/-- The columns of a block mixed. -/
def aesMix (b : List Byte) : List Byte :=
  (List.range 16).map (fun i =>
    let g := fun (k : Nat) => b.getD (i / 4 * 4 + (i + k) % 4) 0#8
    aesDouble (g 0) ^^^ (aesDouble (g 1) ^^^ g 1) ^^^ g 2 ^^^ g 3)

/-- One block under round keys. -/
def aesRounds (keys : List (List Byte)) (x : W128) : W128 :=
  let add := fun (b k : List Byte) => List.zipWith (· ^^^ ·) b k
  let first := add (blockBytes x) (keys.getD 0 [])
  let mid := ((keys.drop 1).take 13).foldl (fun b k => add (aesMix (aesShift (b.map aesSub))) k) first
  beBlock (add (aesShift (mid.map aesSub)) (keys.getD 14 []))

/-- The AES-256 block cipher, forward direction. -/
def aesBlock (key : List Byte) (x : W128) : W128 := aesRounds (aesKeys key) x

/-- The state of Keccak: lane x + 5y. -/
abbrev Sponge := List W64

/-- A lane of the state. -/
def Sponge.lane (a : Sponge) (x y : Nat) : W64 := a.getD (x % 5 + 5 * (y % 5)) 0#64

/-- The rotations of the lanes, lane x + 5y in place x + 5y. -/
def keccakRot : List Nat := [0, 1, 62, 28, 27, 36, 44, 6, 55, 20, 3, 10, 43, 25, 39, 41, 45, 15, 21, 8, 18, 2, 61, 56, 14]

/-- The constants of the 24 rounds. -/
def keccakRounds : List W64 :=
  [0x0000000000000001#64, 0x0000000000008082#64, 0x800000000000808A#64, 0x8000000080008000#64, 0x000000000000808B#64,
   0x0000000080000001#64, 0x8000000080008081#64, 0x8000000000008009#64, 0x000000000000008A#64, 0x0000000000000088#64,
   0x0000000080008009#64, 0x000000008000000A#64, 0x000000008000808B#64, 0x800000000000008B#64, 0x8000000000008089#64,
   0x8000000000008003#64, 0x8000000000008002#64, 0x8000000000000080#64, 0x000000000000800A#64, 0x800000008000000A#64,
   0x8000000080008081#64, 0x8000000000008080#64, 0x0000000080000001#64, 0x8000000080008008#64]

/-- One round of Keccak. -/
def keccakRound (a : Sponge) (rc : W64) : Sponge :=
  let c := (List.range 5).map (fun x => a.lane x 0 ^^^ a.lane x 1 ^^^ a.lane x 2 ^^^ a.lane x 3 ^^^ a.lane x 4)
  let d := fun (x : Nat) => c.getD ((x + 4) % 5) 0#64 ^^^ (c.getD ((x + 1) % 5) 0#64).rotateLeft 1
  let t : Sponge := (List.range 25).map (fun i => (a.getD i 0#64 ^^^ d (i % 5)).rotateLeft (keccakRot.getD i 0))
  let b : Sponge := (List.range 25).map (fun i => t.lane (i % 5 + 3 * (i / 5)) (i % 5))
  (List.range 25).map (fun i =>
    let x := b.lane (i % 5) (i / 5) ^^^ (~~~(b.lane (i % 5 + 1) (i / 5)) &&& b.lane (i % 5 + 2) (i / 5))
    if i = 0 then x ^^^ rc else x)

/-- The permutation of Keccak. -/
def keccak (a : Sponge) : Sponge := keccakRounds.foldl keccakRound a

/-- The bytes that one rate of SHAKE256 holds. -/
def shakeRate : Nat := 136

/-- The state after the padded input is absorbed, n rates of it. -/
def shakeAbsorb : Nat → Sponge → List Byte → Sponge
  | 0, a, _ => a
  | n + 1, a, bs =>
    shakeAbsorb n (keccak ((List.range 25).map (fun i =>
      a.getD i 0#64 ^^^ (if i < 17 then BitVec.ofNat 64 (leNat ((bs.drop (8 * i)).take 8)) else 0#64)))) (bs.drop shakeRate)

/-- n rates of output. -/
def shakeSqueeze : Nat → Sponge → List Byte
  | 0, _ => []
  | n + 1, a => ((a.take 17).map (fun x => leBytes 8 x.toNat)).flatten ++ shakeSqueeze n (keccak a)

/-- SHAKE256 with the given number of output bytes. -/
def shake256 (len : Nat) (x : List Byte) : List Byte :=
  let zeros := shakeRate - 1 - x.length % shakeRate
  let padded := if zeros = 0 then x ++ [0x9F#8] else x ++ [0x1F#8] ++ List.replicate (zeros - 1) 0#8 ++ [0x80#8]
  let a := shakeAbsorb (padded.length / shakeRate) (List.replicate 25 0#64) padded
  (shakeSqueeze (len / shakeRate + 1) a).take len

end Sys2Proof.Machine
end

