-- ==== Sys2Proof/Machine/Keys.lean ====
section
/-! DEFINITION. Key derivation and measurement (R379, R383), over SHAKE256. -/

namespace Sys2Proof.Machine

/-- The ASCII bytes of a label. -/
def ascii (l : List Nat) : List Byte := l.map (BitVec.ofNat 8)

/-- `DVLKDF` and the root secret, with which every derivation begins (R379). -/
def kdfHead : List Byte := ascii [0x44, 0x56, 0x4C, 0x4B, 0x44, 0x46] ++ Config.rootSecret

/-- A partition key by the second letter of its label, `KC`, `KX` or `KI` (R379). -/
def partKey (letter part epoch : Nat) : List Byte :=
  shake256 32 (kdfHead ++ ascii [0x4B, letter] ++ leBytes 1 part ++ leBytes 8 epoch)

/-- Kc, for counter mode. -/
def keyC (part epoch : Nat) : List Byte := partKey 0x43 part epoch
/-- Kx, for XTS. -/
def keyX (part epoch : Nat) : List Byte := partKey 0x58 part epoch
/-- Ki, for integrity. -/
def keyI (part epoch : Nat) : List Byte := partKey 0x49 part epoch

/-- The image key of a protected context (R379). -/
def imageKey (part epoch ctx creation : Nat) : List Byte :=
  shake256 32 (kdfHead ++ ascii [0x49, 0x4D] ++ leBytes 1 part ++ leBytes 8 epoch ++ leBytes 2 ctx ++ leBytes 8 creation)

/-- The seed of the attestation key (R379). -/
def attestSeed : List Byte := shake256 48 (kdfHead ++ ascii [0x41, 0x54] ++ Config.deviceLabel)

/-- A cleared measurement slot (R383). -/
def clearSlot : List Byte := List.replicate 64 0#8

/-- A measurement slot (R383). -/
def measOf (m : List (Nat × List Byte)) (k : Nat) : List Byte := sget clearSlot m k

/-- Extending slot k by a measurement (R383). -/
def extendSlot (m : List (Nat × List Byte)) (k : Nat) (x : List Byte) : List (Nat × List Byte) :=
  sput m k (shake256 64 (measOf m k ++ x))

/-- The measurement of some bytes: SHAKE256-512 (R380). -/
def measure (x : List Byte) : List Byte := shake256 64 x

end Sys2Proof.Machine
end

