-- ==== Sys2Proof/Machine/State.lean ====
section
/-! DEFINITION. Everything the manual gives the machine, as plain data, and the machine after reset. -/

namespace Sys2Proof.Machine

/-- The five path queues (R80). -/
inductive Path where
  | ls | ac | cp | mx | xf
  deriving DecidableEq, Repr

/-- How a split-table entry joins (R112). -/
inductive Join where
  | entry (n : Nat)
  | deferred
  | none
  deriving DecidableEq, Repr

/-- State of a split-table entry (R112). -/
inductive SplitSt where
  | free | running | waiting
  deriving DecidableEq, Repr

/-- A split-table entry (R112), with what the choice of issue keeps of its fragment (R323) and the copy whose completion a
continued fragment waits for (R234), the token and reason of a fetch that waits on the fault service (R313),
and whether that fetch is one after a regeneration (R167). -/
structure SplitEntry where
  st : SplitSt
  mask : W32
  pc : W64
  rcv : Option W64
  join : Join
  pend : W32
  stamp : Option Nat
  skip : Nat
  yld : Option (List (Nat × Nat))
  cont : Option Nat
  fetch : Option (Nat × Nat)
  regen : Bool
  deriving DecidableEq, Repr

/-- A deferral record (R112). -/
structure DefRec where
  owner : Nat
  fmask : W32
  fpc : W64
  mask : W32
  rcv : Option W64
  join : Join
  phase : Nat
  deriving DecidableEq, Repr

/-- Permissions a translation register or TLB entry copies from a leaf (R105, R159). -/
structure Perm where
  rd : Bool
  w : Bool
  mail : Bool
  bnd : Bool
  deriving DecidableEq, Repr

/-- What a resolved translation register adds to its pointer (R105), and the page that holds it (R106). -/
structure TRes where
  pbase : Nat
  limit : Nat
  perm : Perm
  page : Nat
  size : Nat
  deriving DecidableEq, Repr

/-- A translation register (R105). -/
structure TReg where
  vbase : W64
  res : Option TRes
  deriving DecidableEq, Repr

/-- A TLB entry (R158): a leaf of a context, tagged with its partition (R371). -/
structure TlbEnt where
  ctx : Nat
  part : Nat
  va : Nat
  size : Nat
  pa : Nat
  leaf : W64
  deriving DecidableEq, Repr

/-- Where a lane accesses: a virtual address, with the physical address and permissions when its translation register
formed it directly (R157); or a byte of a rank's scratchpad share (R170); or a selector that names none. -/
inductive Loc where
  | glob (va : W64) (direct : Option (Nat × Perm))
  | spad (team rank off : Nat)
  | badSel (off : Nat)
  deriving DecidableEq, Repr

/-- Where a lane of an entry stands: in its queue, on its way, or in the operand log (R88, R165); or misaligned, at its place until its
clause's trap is taken (R88, R164). -/
inductive LaneSt where
  | queued | sent | logged | faulted
  deriving DecidableEq, Repr

/-- One lane of an entry: its place, and data captured for it (R165: up to 16 bytes). -/
structure Lane where
  l : Nat
  loc : Loc
  data : Option Nat
  st : LaneSt
  deriving DecidableEq, Repr

/-- The clamp steps (R203). -/
inductive ClampOp where
  | init (ebytes eslats : Nat)
  | expect (n : Nat)
  | arrive
  | wait (phase : Nat)
  | test (q phase : Nat)
  | count (n : Nat)
  | mark
  deriving DecidableEq, Repr

/-- A fence marker (R90, R91): release or acquire, its scope resolved at placement (R89), the team it promotes (R95), how far it has
got (its drains issued, a promotion begun) and the number that was next then, whether it writes %fst when it completes, and the
status so far (R93). -/
structure Marker where
  rel : Bool
  home : Bool
  sys : Bool
  promote : Option W64
  stage : Nat
  since : Nat
  fst : Bool
  status : Nat
  deriving DecidableEq, Repr

/-- The operands of a copy instruction as read at issue (R236); op counts from cpy = 0 to vstat = 7. -/
structure CopyOps where
  op : Nat
  d : W64
  s : W64
  n : W64
  e : W64
  dst : Nat
  hint : Nat
  deriving DecidableEq, Repr

/-- The operands of a fabric transfer as read at issue (R296); op 0 put, 1 reduction, 2 get. -/
structure XferOps where
  op : Nat
  d : W64
  s : W64
  n : W64
  e : W64
  c16 : Nat
  deriving DecidableEq, Repr

/-- What an entry of a path queue does (R81). -/
inductive EOp where
  | load (w : Nat) (sc : Bool) (dst : Nat) (hint : Nat)
  | store (w : Nat) (sc : Bool) (data : Src) (hint : Nat)
  | record (fin : Bool)
  | pref (w : Nat) (hint : Nat)
  | atomic (n w : Nat) (sgn ffmt : Bool) (dst : Nat) (data : Src)
  | clamp (k : ClampOp) (space : Nat) (sel : W64)
  | acc (bf : Bool) (data : Src)
  | ldt (bf : Bool) (dst : Nat)
  | drn (mode : Nat) (arg : W64)
  | grd (dst : Nat)
  | bnd (addr num : W64)
  | copy (c : CopyOps)
  | engine (job : Nat)
  | xfer (x : XferOps)
  | marker (m : Marker)
  deriving DecidableEq, Repr

/-- An entry of a slat's path queues (R81), in issue order; the paths of a marker are those its fence names. ins names the
instruction instance that a counter counts (R54); cid, pos and len name its place in its clause, ent its fragment; mail says
that it is a mailbox access, tok is the token, reason and lanes field of a fault a whole entry waits on (R238, R304); regen the page
after whose regeneration it is a replay (R167). -/
structure QEnt where
  seq : Nat
  ins : Nat
  paths : List Path
  op : EOp
  lanes : List Lane
  word : W64
  cid : Nat
  pos : Nat
  len : Nat
  ent : Nat
  mail : Bool
  tok : Option (Nat × Nat × W32)
  regen : Option Nat
  deriving DecidableEq, Repr

/-- An instruction instance whose entries or engine work are not all complete, with the counter it holds (R54). -/
structure Inst where
  id : Nat
  ctr : Option Nat
  open_ : Nat
  deriving DecidableEq, Repr

/-- An operand-log entry (R165); token, why (the reason if it is referred back), since and told (LINK_STALL taken for it) serve the
fault service and %slim (R164, R188, R328). -/
structure LogEntry where
  seq : Nat
  word : W64
  lanes : W32
  kind : Nat
  token : Nat
  why : Nat
  since : Nat
  told : Bool
  deriving DecidableEq, Repr

/-- A pending trap cause (R164, R326): its clause, position and fragment; raw or at when %tinfo or %tepc is fixed; nested when
it arose while a handler ran (R325); place is its instruction's position where several of one clause are compared (R164). -/
structure Cause where
  code : Nat
  cid : Nat
  word : Nat
  back : Nat
  reason : Nat
  lanes : W32
  raw : Option W64
  at_ : Option W64
  ent : Nat
  nested : Bool
  place : Nat := 0
  deriving DecidableEq, Repr

/-- Why a slat is parked (R201, R205, R302, R333, R334, R349). -/
inductive Park where
  | none | tbar | clmw | deq | cwait | xfen | room
  deriving DecidableEq, Repr

/-- Where a watched clamp lies. -/
inductive ClampLoc where
  | mem (pa : Nat)
  | spad (team rank off : Nat)
  deriving DecidableEq, Repr

/-- The watch register (R201). -/
structure Watch where
  space : Nat
  addr : W64
  sel : W64
  phase : Nat
  loc : ClampLoc
  deriving DecidableEq, Repr

/-- An outlier record owed at the end of the clause (R74, R141): descriptor, position, lane, index and value, and the vector
register that still holds the lane's result. -/
structure OutRec where
  desc : Nat
  dst : Option Nat
  pos : Nat
  lane : Nat
  idx : W32
  val : W32
  deriving DecidableEq, Repr

/-- The clause a fragment is issuing (R53): its fragment, header address, identity, class, words, the position reached, the
latches (R51), the outlier records collected (R141), and the settle writes that its commit brings (R109, R329). -/
structure Issue where
  ent : Nat
  h : W64
  cid : Nat
  cls : Cls
  words : List W64
  pos : Nat
  yld : Bool
  lat : List (Nat × W32)
  outs : List OutRec
  fres : List W64
  held : Bool
  deriving DecidableEq, Repr

/-- A slat (R100 to R103, R112, R165, R201); text and tlen are the base and bytes of its text segment (R38); told names the clauses whose lane
fault it has been told of (R164); begun counts the clauses it has issued, and redo is that count at the boundary where a save had stopped
it before a rollback (R340); bars counts the phases of its team's barrier that it has gone on from (R205). Vector registers, scalar registers and predicates are maps keyed by 32n + lane, n and n; vp and sp carry
the poison marks (R175). -/
structure Slat where
  uid : Nat
  core : Nat
  slot : Nat
  team : Nat
  idx : Nat
  grid : Nat
  fn : Nat
  ctx : Nat
  part : Nat
  level : Nat
  text : W64
  tlen : Option Nat
  v : List (Nat × W32)
  vp : List (Nat × Bool)
  s : List (Nat × W64)
  sp : List (Nat × Bool)
  p : List (Nat × W32)
  q : BitVec 7
  b : List (Nat × TReg)
  width : Nat
  d : List (Nat × Nat)
  split : List (Nat × SplitEntry)
  recs : List DefRec
  log : List LogEntry
  queue : List QEnt
  insts : List Inst
  tvec : W64
  tepc : W64
  tinfo : W64
  tcause : Nat
  inh : Bool
  hand : Option Nat
  slim : W64
  bst : W64
  fst : W64
  pend : List Cause
  park : Park
  parkArg : W64
  parkDst : Nat
  parkAt : Nat
  watch : Option Watch
  issue : Option Issue
  accd : List Nat
  told : List Nat
  begun : Nat
  redo : Nat
  bars : Nat
  ended : Bool
  deriving DecidableEq, Repr

/-- A team (R16, R319): the core of each rank with the base of its share and tile window, arrivals at the barrier and the number of its phases that
are complete (R205), and what abandonment left (R207). -/
structure Team where
  uid : Nat
  grid : Nat
  idx : Nat
  fn : Nat
  ctx : Nat
  part : Nat
  level : Nat
  slats : Nat
  spad : Nat
  tiles : Nat
  cores : List (Nat × Nat × Nat)
  gang : Nat
  grank : Nat
  arrived : List Nat
  bars : Nat
  aband : Bool
  kslat : Nat
  kcause : Nat
  killedAt : Option Nat
  saved : Bool
  deriving DecidableEq, Repr

/-- An exact partial sum of an FP8 block (R268): NaN, an infinity, or the sum times 2^32. -/
inductive Partial where
  | nan
  | inf (neg : Bool)
  | sum (x : Int)
  deriving DecidableEq, Repr

/-- A tile of accumulator memory with its block state and poison marks (R263, R268, R275); element (i, j) is key 32i + j. -/
structure Tile where
  acc : List (Nat × W32)
  mark : List (Nat × Bool)
  n : Nat
  parts : List (Nat × Partial)
  deriving DecidableEq, Repr

/-- A line's 128 bytes with the poison marks of its 32 words (R175). -/
structure LineVal where
  bytes : List (Nat × Byte)
  marks : W32
  deriving DecidableEq, Repr

/-- A line of an L1 (R80, R169): clean or owned, and its replacement priority as a hint code; delta-holding lines are the records. -/
structure L1Line where
  line : Nat
  owned : Bool
  val : LineVal
  hint : Nat
  deriving DecidableEq, Repr

/-- A delta record (R211). -/
structure DeltaRec where
  line : Nat
  bf : Bool
  delta : List (Nat × W32)
  gauge : W32
  share : W32
  draining : Bool
  order : Nat
  ctx : Nat
  region : Nat
  deriving DecidableEq, Repr

/-- One read of a request: lane, byte address. -/
abbrev RLane := Nat × Nat

/-- One lane of an atomic: lane, address, operand, compare value. -/
structure ALane where
  l : Nat
  a : Nat
  v : Nat
  cmp : Nat
  deriving DecidableEq, Repr

/-- One added lane of an accumulation: element of the line and FP32 addend (R212). -/
abbrev Add := Nat × W32

/-- The memory a request is to: memory by physical address, or a core's scratchpad banks. -/
inductive Tgt where
  | mem
  | spad (core : Nat)
  deriving DecidableEq, Repr

/-- Messages to a home slice, a bank, the host line agent or a fabric queue (R84, R212); hub is the request of a unit outside the cores,
which holds the line, once it is settled for a read or a write, until that unit's step (R18); clear is a flush of a host-located line (R362), or
the abandonment of a line of a tensor's range (R374). -/
inductive Msg where
  | read (w : Nat) (lanes : List RLane) (tol : Option W32)
  | write (bytes : List (Nat × Byte))
  | atomic (n w : Nat) (sgn ffmt : Bool) (lanes : List ALane)
  | own (n w : Nat) (sgn ffmt : Bool) (lanes : List ALane)
  | clamp (k : ClampOp) (a : Nat)
  | grant (bf : Bool) (region : Nat) (adds : List Add)
  | homeAdd (bf : Bool) (adds : List Add)
  | drain (bf : Bool) (delta : List Add)
  | giveUp (bf : Bool) (delta : List Add)
  | reply (bf : Bool) (delta : List Add) (gone : Bool) (dest : Nat)
  | prefetch
  | stat (dst : Nat)
  | copy (id : Nat)
  | xfer (id : Nat)
  | hub (rd : Bool)
  | clear (flush : Bool)
  deriving DecidableEq, Repr

/-- How far a home has got with a request (R18): not begun; waiting for dependents (R251); waiting for forced drains from
the listed cores (R212). -/
inductive ReqSt where
  | fresh
  | mat
  | drains (cores : List Nat)
  deriving DecidableEq, Repr

/-- A request on its way or at its home, in arrival order; uid, seq and path name the entry it serves. -/
structure Req where
  id : Nat
  uid : Nat
  seq : Nat
  path : Path
  core : Nat
  ctx : Nat
  fn : Nat
  part : Nat
  tgt : Tgt
  line : Nat
  hint : Nat
  mail : Bool
  msg : Msg
  st : ReqSt
  deriving DecidableEq, Repr

/-- An entry of a hold window (R80). -/
structure HwEnt where
  since : Nat
  req : Req
  deriving DecidableEq, Repr

/-- A work item of the matrix engine and finish unit (R264): operand registers as read at issue, and the scratchpad bytes or
memory words its mx entry read (R276, R280, R288). -/
structure EngJob where
  id : Nat
  uid : Nat
  team : Nat
  ins : Nat
  cid : Nat
  pos : Nat
  len : Nat
  ent : Nat
  instr : Instr
  ra : List (Nat × W32)
  rb : List (Nat × W32)
  sF : W64
  poison : Bool
  share : Option (List (Nat × Byte))
  words : List W32
  bad : Option (Nat × Nat)
  deriving DecidableEq, Repr

/-- A finish program slot (R279). -/
structure Prog where
  words : List W32
  ctx : Nat
  deriving DecidableEq, Repr

/-- A core (R14): L1 data and instruction caches, hold window, scratchpad with the poison marks of its words (R175, R238), accumulator memory, finish slots, engine queue, delta records,
contention predictor (R190: entry, tag, count), L1 TLB, and the cycle at which a placed core begins issuing (R322). -/
structure Core where
  l1 : List L1Line
  l1i : List (Nat × LineVal)
  hw : List HwEnt
  spad : List (Nat × Byte)
  spadMark : List (Nat × Bool)
  tiles : List (Nat × Tile)
  progs : List (Nat × Prog)
  eng : List EngJob
  recs : List DeltaRec
  pred : List (Nat × Nat × Nat)
  tlb : List TlbEnt
  startAt : Nat
  started : Bool
  deriving DecidableEq, Repr

/-- A line in L2 (R17): its value, whether it is dirty, the function that allocated it, its priority (R169, R235) and its way; 16 when no
way holds it and it stands in the slice's buffers until it has been used or written back (R360). -/
structure L2Line where
  line : Nat
  val : LineVal
  dirty : Bool
  fn : Nat
  hint : Nat
  way : Nat
  deriving DecidableEq, Repr

/-- The transform of a veneer or copy (R229). -/
structure Xform where
  kind : Nat
  esz : Nat
  ovf : Nat
  rnd : Nat
  sfmt : Nat
  dfmt : Nat
  rows : Nat
  cols : Nat
  scale : W32
  deriving DecidableEq, Repr

/-- A veneer entry (R227); todo lists the destination lines that have not yet had their destination step, and unread the
source lines that have not had their source step (R397); since is the number that was next when it began to be promoted (R249). -/
structure Veneer where
  idx : Nat
  promoting : Bool
  since : Nat
  fn : Nat
  ctx : Nat
  part : Nat
  dpa : Nat
  nlines : Nat
  spa : Nat
  xf : Xform
  elem : Nat
  heat : Nat
  hint : Nat
  todo : List Nat
  unread : List Nat
  copy : Nat
  deriving DecidableEq, Repr

/-- A fill of a destination line in progress: the source lines returned so far (R248). -/
structure VFill where
  line : Nat
  got : List (Nat × LineVal)
  deriving DecidableEq, Repr

/-- A budget entry of a gauge directory (R211). -/
structure Budget where
  line : Nat
  ctx : Nat
  region : Nat
  fn : Nat
  bf : Bool
  limit : W32
  n : Nat
  share : W32
  sharers : List (Nat × Nat)
  nseq : Nat
  deriving DecidableEq, Repr

/-- A bounded region of a context (R209, R210). -/
structure Region where
  ctx : Nat
  num : Nat
  base : Nat
  size : Nat
  limit : W32
  split : Nat
  bf : Bool
  deriving DecidableEq, Repr

/-- A grant reply, force-drain or drain acknowledgement on its way to a core (R211 to R213). -/
inductive NetMsg where
  | reply (line : Nat) (bf : Bool) (share : Option W32) (ctx region : Nat)
  | force (line : Nat) (gone : Bool) (req : Nat)
  | ack (line : Nat)
  deriving DecidableEq, Repr

/-- A message with its number and the core it goes to; a grant reply names the entry that it completes, as (slat, sequence number), and
says whether it sets up a record (R211, R212). The messages are delivered in the order of the agenda. (Log 35: DESIGN CHOICE.) -/
structure Net where
  id : Nat
  core : Nat
  msg : NetMsg
  ent : Option (Nat × Nat × Bool)
  deriving DecidableEq, Repr

/-- A copy that has passed its checks (R231, R238): segments give (offset in the range, physical byte address, bytes). out says
that it has exited its hold window; banks lists the scratchpad shares still to be written (R240, R241: team, rank, offset), coff
the clamp that counts there, pend the counts not yet taken; perform the destination lines that may not be recorded
(R397); via the source lines that a collapsed piece reads through their entry (R254). -/
structure Copy where
  id : Nat
  uid : Nat
  seq : Nat
  core : Nat
  ctx : Nat
  fn : Nat
  part : Nat
  ops : CopyOps
  xf : Xform
  src : List (Nat × Nat × Nat)
  dst : List (Nat × Nat × Nat)
  out : Bool
  banks : List (Nat × Nat × Nat)
  coff : Option Nat
  pend : Nat
  srcTodo : List Nat
  dstTodo : List Nat
  snaps : List (Nat × LineVal)
  via : List (Nat × Veneer)
  perform : List Nat
  deriving DecidableEq, Repr

/-- A clamp step that a transfer owes (R96, R200): a byte count, or an error mark; copy names the copy that waits for it. -/
structure Count where
  id : Nat
  loc : ClampLoc
  n : Nat
  err : Bool
  fn : Nat
  copy : Nat
  deriving DecidableEq, Repr

/-- A fabric transfer that has been checked (R298 to R300): st 0 in the hold window, 1 in its peer queue, 2 sent, 3 answered (a get's
bytes written, a reduction's result taken); todo counts the slots it still needs (R293), coff is the clamp of a get. -/
structure Xfer where
  id : Nat
  uid : Nat
  seq : Nat
  core : Nat
  ctx : Nat
  fn : Nat
  part : Nat
  ops : XferOps
  src : List (Nat × Nat × Nat)
  dst : List (Nat × Nat × Nat)
  bytes : List Byte
  st : Nat
  todo : Nat
  link : Nat
  coff : Option ClampLoc
  cid : Nat
  ent : Nat
  deriving DecidableEq, Repr

/-- An answer of this device's fabric agent to a transfer of another device, or of its own (own names it) that looped back (R295,
R298, R299): code 0 with the bytes of a get, or a reason of R305. It is sent when no clamp step tagged with its number is owed. -/
structure Reply where
  id : Nat
  dev : Nat
  own : Option Nat
  code : Nat
  bytes : List Byte
  deriving DecidableEq, Repr

/-- A drawer access: a line read, or a line written whose acknowledgement has not returned (R182, R185). sent is the link and slot it left
in, sel and cell the fields of its command entry (R178, R179), again whether it waits for its link to be sent once more (R185, R187), age the
number that was next when it was made (R182). -/
structure DAcc where
  age : Nat
  line : Nat
  wr : Bool
  bg : Bool
  fn : Nat
  part : Nat
  hint : Nat
  bytes : List (Nat × Byte)
  marks : W32
  sent : Option (Nat × Nat)
  sel : Nat
  cell : Nat
  again : Bool
  deriving DecidableEq, Repr

/-- States of a link (R186). -/
inductive LinkSt where
  | up | swap | retrain | down
  deriving DecidableEq, Repr

/-- A drawer or fabric link (R186): its state and counts, the slot it has reached, counted without end (R183), the spare wavelengths of its
fibres, the hub copy, the port's write table and the derived read table (R181, R185), and a loaded table that has not yet taken effect with
the slot at which it does. -/
structure Link where
  st : LinkSt
  slot : Nat
  retrains : Nat
  swaps : Nat
  spares : List Nat
  hub : List Nat
  port : List Nat
  read : List Nat
  load : Option (List Nat × Nat)
  readSoon : Bool
  deriving DecidableEq, Repr

/-- The owner of a slot class (R184). -/
inductive Owner where
  | fn (f : Nat)
  | part (p : Nat)
  deriving DecidableEq, Repr

/-- The slot-table controller (R184): staging table, err, the link its command waits for and, for a release, all of them. -/
structure Stc where
  stage : List (Nat × Nat)
  err : Bool
  busyD : List Nat
  busyF : List Nat
  classes : List (Nat × Owner)
  deriving DecidableEq, Repr

/-- A hardware queue (R308), with the slats parked on it in order (R333), and the dependences of the record at its head that are latched
as met (R316). -/
structure Queue where
  base : W64
  ctx : Nat
  fn : Nat
  cap : Nat
  prio : Nat
  lsize : Nat
  kind : Nat
  dev : Bool
  sup : Bool
  vec : Nat
  err : Nat
  st : Nat
  rp : Nat
  wp : Nat
  waiters : List Nat
  met : List Nat
  deriving DecidableEq, Repr

/-- A launch record with its argument words (R312). -/
structure LaunchRec where
  persist : Bool
  sup : Bool
  gang : Nat
  irq : Bool
  deps : List (Nat × W64 × Nat)
  entry : W64
  tiles : Nat
  spad : Nat
  cores : Nat
  slats : Nat
  gx : Nat
  gy : Nat
  gz : Nat
  done : W64
  args : List W64
  deriving DecidableEq, Repr

/-- A grid of the active-grid table (R315): its record, launch order, next team to place, parent (grid and team) and depth, and the
dependences latched as met (R316). -/
structure Grid where
  id : Nat
  queue : Option Nat
  fn : Nat
  ctx : Nat
  part : Nat
  prio : Nat
  level : Nat
  depth : Nat
  parent : Option (Nat × Nat)
  launch : LaunchRec
  nextTeam : Nat
  since : Nat
  token : Option Nat
  dead : Bool
  met : List Nat
  deriving DecidableEq, Repr

/-- An outstanding fault (R328): one for each context, page and kind, with its record while it is held back; for a regeneration the leaf and
the priority under which its kernel is launched once the active-grid table has room (R167, R315). -/
structure FaultRec where
  token : Nat
  fn : Nat
  ctx : Nat
  page : Nat
  size : Nat
  kind : Nat
  link : Nat
  held : Option (List W64)
  pte : W64
  prio : Nat
  deriving DecidableEq, Repr

/-- A loaded image of a context (R381): its text segments as they were loaded (address, bytes), the addresses of its entries, and its
scratchpad image. -/
structure Image where
  texts : List (Nat × Nat)
  entries : List Nat
  sdata : List Byte
  deriving DecidableEq, Repr

/-- A context (R361): its function, root, protection, bank key (R171), image key and counter (R345, R346), sealed frames
(R382), loaded images (R381) and first error (R327). -/
structure Context where
  ctx : Nat
  fn : Nat
  part : Nat
  prot : Bool
  root : Nat
  key : BitVec 11
  imgKey : List Byte
  count : Nat
  out : Bool
  sealed : List (Nat × Nat)
  images : List Image
  error : Option Nat
  deriving DecidableEq, Repr

/-- A receive window (R364). -/
structure Window where
  v : Bool
  spad : Bool
  ctx : Nat
  base : W64
  len : W64
  deriving DecidableEq, Repr

/-- A reduction group (R364). -/
structure Group where
  v : Bool
  nm : Nat
  nc : Nat
  csz : Nat
  glen : Nat
  win : Nat
  boff : W64
  cboff : W64
  deriving DecidableEq, Repr

/-- A live tensor slot (R374): its lines, tensor identifier and version. -/
structure Tensor where
  slot : Nat
  tensor : Nat
  line : Nat
  lines : Nat
  part : Nat
  version : Nat
  deriving DecidableEq, Repr

/-- A function (R360): configuration block, watchdog counts (R386), veneer counters (R258), command registers (R362, R374,
R381), registrations (R364), tensor slots (R374), the vectors of its MSI-X table that are masked (R360, R366); the settle register
needs none. -/
structure Fn where
  en : Bool
  busy : Bool
  part : Nat
  ways : Nat
  shq : Nat
  vq : Nat
  thr : Nat
  wdRow : Nat
  wdSlat : Nat
  wdLnch : Nat
  vrec : Nat
  vcoll : Nat
  veag : Nat
  vmln : Nat
  vhot : Nat
  ctxErr : Bool
  mmBase : W64
  mmLen : W64
  mmErr : Bool
  mmBusy : Option Nat
  tdBase : W64
  tdLen : W64
  tdErr : Bool
  tdBusy : Option Nat
  jxSrc : W64
  jxText : W64
  jxData : W64
  jxWhy : Nat
  jxErr : Bool
  jxBusy : Bool
  kernels : List (Nat × W64 × Nat)
  windows : List (Nat × Window)
  groups : List (Nat × Group)
  tensors : List Tensor
  masked : List Nat
  deriving DecidableEq, Repr

/-- What a running sys instruction, or a command of a function's registers, still has to do (R333, R334, R336, R340, R348, R349, R362, R366, R374,
R381). -/
inductive JobKind where
  | enq (q : Nat) (item : List W64) (dst : Nat)
  | lnch (addr : W64) (dst : Nat)
  | room (launch : LaunchRec) (dst : Nat)
  | tlbi (olds : List (Nat × Nat))
  | save (base len : W64) (mode : Nat) (dst : Nat) (teams : List Nat)
  | wrote (ctx len dst : Nat) (teams : List Nat)
  | load (base : W64) (dst : Nat)
  | place (ctx dst n : Nat) (body : List Byte)
  | flush (fn op lo len : Nat) (ctxs : List Nat) (waits : List (Nat × Nat)) (stage : Nat)
  | flr (fns : List Nat) (step : Nat)
  | td (fn : Nat)
  | jx (fn : Nat)
  deriving DecidableEq, Repr

/-- A job: the slat and instruction it serves, the cycle at which it began, the marker it waits for, the token and reason of a fault it waits on
(R334), and whether that fault was a regeneration that is over (R167). -/
structure Job where
  id : Nat
  uid : Nat
  ins : Nat
  cid : Nat
  pos : Nat
  len : Nat
  ent : Nat
  at_ : Nat
  after : Nat
  tok : Option (Nat × Nat)
  regen : Bool
  kind : JobKind
  deriving DecidableEq, Repr

/-- A drawer sidecar (R373); a line with none has never been written. ver is the version its tag covers (R372), old says that the tag
was made under keys that its partition has no more (R379). -/
structure Sidecar where
  gen : Nat
  tslot : Nat
  mode : Nat
  tag : W64
  ver : Nat
  old : Bool
  deriving DecidableEq, Repr

/-- A hard partition's trust state (R370, R379, R383, R385). -/
structure PartTrust where
  num : Nat
  epoch : Nat
  creations : Nat
  kc : List Byte
  kx : List Byte
  ki : List Byte
  decl : Nat
  meas : List (Nat × List Byte)
  enrolled : List (List Byte)
  unlocked : Bool
  deriving DecidableEq, Repr

/-- Partition configuration, trust and error counters (R370, R378 to R385, R389). -/
structure Trust where
  layout : Nat
  prot : Nat
  ups : Nat
  parts : List PartTrust
  sidecars : List (Nat × Sidecar)
  firmware : List Byte
  pendingFw : Option (List Byte)
  corr : Nat
  tagf : Nat
  upset : Nat
  kill : Nat
  replies : List (List Byte)
  deriving DecidableEq, Repr

/-- Boot and power state (R391, R394) and the host port's modules (R357). -/
structure Boot where
  step : Nat
  dies : Nat
  ready : Bool
  modules : Nat
  thr : Nat
  deriving DecidableEq, Repr

/-- The host port (R80, R98, R358): entries on their way to the host, in order, the lines the line agent owns, and the lines that a
protected partition wrote through its XTS (R376: line, partition), for which mem holds what the partition reads there; a line that the
context engine wrote beside it names no partition there, but 4. -/
structure HostPort where
  queue : List (Nat × Nat × List (Nat × Byte))
  owned : List Nat
  crypt : List (Nat × Nat)
  irqs : List (Nat × Nat)
  deriving DecidableEq, Repr

/-- The home slices (R13, R18): L2, filled destination lines, their fills, budget entries, regions, veneers, requests in
arrival order, copies, clamp steps owed by transfers, drawer accesses, and the core that last asked for a line (R190); passed numbers the
window entries and copies of which a drain of their core has been taken while they waited at a home (R85, R213); starts holds the copies and
transfers that have left their window and have not begun, in that order (R85). -/
structure Home where
  l2 : List L2Line
  vfill : List L2Line
  filling : List VFill
  budget : List Budget
  regions : List Region
  veneers : List Veneer
  reqs : List Req
  copies : List Copy
  counts : List Count
  drawer : List DAcc
  owned : List (Nat × Nat)
  lastCore : List (Nat × Nat)
  net : List Net
  passed : List Nat
  starts : List Req
  deriving DecidableEq, Repr

/-- The hub (R11): queues, launcher, fault service, contexts, functions, jobs; ended lists the numbers of contexts that have ended, with
their functions (R336, R361). -/
structure Hub where
  queues : List (Nat × Queue)
  served : List (Nat × Nat)
  grids : List Grid
  retired : List (Nat × Nat)
  faults : List FaultRec
  kills : List (Nat × List W64)
  contexts : List Context
  ended : List (Nat × Nat)
  fns : List (Nat × Fn)
  jobs : List Job
  deriving DecidableEq, Repr

/-- The fabric (R292 to R306): links, transfers, and answers to peers. -/
structure Fabric where
  links : List (Nat × Link)
  xfers : List Xfer
  replies : List Reply
  deriving DecidableEq, Repr

/-- What an upset restores (R387): the slats and cores at a cycle. -/
structure Past where
  at_ : Nat
  slats : List Slat
  cores : List (Nat × Core)
  deriving DecidableEq, Repr

/-- What reached a slat or a core, for delivery again after a rollback (R387). kind 0: lanes of the entry seq, as (lane, value, marks); 1:
the end of the job of instance seq, with its result as (register, value, 0) or its cause; 2: a kill that came from outside the slat; 3: an item for a deq, as (register, value, 0); 4: bytes that reached the scratchpad of the core uid, as (address, value, 0);
5: a clamp read at its home, as (address, clamp, 0); 6: a vstat's result, as (register, value, 0); 7: lanes whose read was lost, with
their cause; 8: a transfer refused, with its cause. -/
structure Answer where
  at_ : Nat
  uid : Nat
  seq : Nat
  kind : Nat
  lanes : List (Nat × Nat × W32)
  cause : Option Cause
  deriving DecidableEq, Repr

/-- What the machine does next: one of the steps of the table, or one of those that the table has no row for: the engine applies the
head of a core's queue (R264), a job of a sys instruction goes on, an uncorrectable error strikes an element of accumulator memory
(R275) or a line in L2 (R377, R388), software masks or unmasks a vector of a function's table (R360, R366), or only time passes and the slats parked on a queue are
served from it (R333). -/
inductive Move where
  | ev (i : Instr)
  | engine (core : Nat)
  | job (id : Nat)
  | accError (core tile elem : Nat)
  | lineError (line : Nat)
  | mask (fn vec : Nat) (on : Bool)
  | idle
  deriving DecidableEq, Repr

/-- A move and the cycles that pass before it (R79: the steps form one total sequence). -/
structure Due where
  dt : Nat
  move : Move
  deriving DecidableEq, Repr

/-- The machine. agenda, focus, snap, free and next are the model's own: the sequence of steps to come (R79), the slat whose
clause is being issued (R53: no other fragment issues in between), that slat as it was before an ALU clause (R55), the
counter of free values, and the next unused number. -/
structure State where
  now : Nat
  agenda : List Due
  focus : Option Nat
  snap : Option Slat
  free : Nat
  next : Nat
  slats : List Slat
  cores : List (Nat × Core)
  teams : List Team
  dieTlb : List (Nat × List TlbEnt)
  mem : List (Nat × Byte)
  marks : List (Nat × W32)
  home : Home
  links : List (Nat × Link)
  stc : Stc
  hub : Hub
  fab : Fabric
  trust : Trust
  boot : Boot
  host : HostPort
  past : List Past
  answers : List Answer
  deriving DecidableEq, Repr

/-- Why the machine stops. -/
inductive Fault where
  /-- An instruction word is executed while no fragment is issuing a clause: the manual gives instructions no other place
  (R53). Raised by every encoded instruction's meaning; safe. -/
  | noFragment
  deriving DecidableEq, Repr

/-- Why the model gives no answer. -/
inductive Refusal where
  /-- The instruction has no meaning yet. Raised by Dispatch alone; safe. -/
  | notModelled (mnemonic : String)
  deriving DecidableEq, Repr

/-- A core as reset leaves it: nothing held (R171, R263, R279). -/
def Core.reset : Core :=
  { l1 := [], l1i := [], hw := [], spad := [], spadMark := [], tiles := [], progs := [], eng := [], recs := [], pred := [], tlb := [], startAt := 0, started := true }

/-- A link after it has trained at step 5 of R390, every table open (step 6: class 31). -/
def Link.reset (st : LinkSt) : Link :=
  { st := st, slot := 0, retrains := 0, swaps := 0, spares := [4, 4, 4], hub := List.replicate 128 31, port := List.replicate 128 31,
    read := List.replicate 128 31, load := none, readSoon := false }

/-- A function's block after device reset (R360, R386, R258): function 0 alone is enabled. (Log 8: DESIGN CHOICE.) -/
def Fn.reset (f : Nat) : Fn :=
  { en := decide (f = 0), busy := false, part := 0, ways := 0xFFFF, shq := 2048, vq := 32, thr := 4096, wdRow := 0, wdSlat := 0,
    wdLnch := 0, vrec := 0, vcoll := 0, veag := 0, vmln := 0, vhot := 0, ctxErr := false, mmBase := 0, mmLen := 0, mmErr := false,
    mmBusy := none, tdBase := 0, tdLen := 0, tdErr := false, tdBusy := none, jxSrc := 0, jxText := 0, jxData := 0, jxWhy := 0, jxErr := false,
    jxBusy := false,
    kernels := [], windows := [], groups := [], tensors := [], masked := [] }

/-- A hardware queue after reset: Disabled, its pointers zero (R309). (Log 8: DESIGN CHOICE.) -/
def Queue.reset : Queue :=
  { base := 0, ctx := 0, fn := 0, cap := 0, prio := 0, lsize := 0, kind := 0, dev := false, sup := false, vec := 0, err := 0, st := 0,
    rp := 0, wp := 0, waiters := [], met := [] }

/-- A partition's trust state after boot: keys of its epoch, slot 0 extended with the firmware (R379, R383, R390). -/
def PartTrust.reset (num epoch : Nat) : PartTrust :=
  { num := num, epoch := epoch, creations := 0, kc := keyC num epoch, kx := keyX num epoch, ki := keyI num epoch, decl := 0,
    meas := extendSlot [] 0 (measure Config.firmware), enrolled := [], unlocked := false }

/-- The trust state of a unit as shipped: layout 0, nothing protected (R370), upset protection on. (Log 8: DESIGN CHOICE.) -/
def Trust.reset : Trust :=
  { layout := 0, prot := 0, ups := 15,
    parts := (List.range 4).map (fun p => PartTrust.reset p 0),
    sidecars := [], firmware := Config.firmware, pendingFw := none, corr := 0, tagf := 0, upset := 0, kill := 0, replies := [] }

/-- The machine after a reset that reached step 8 of R390 with every die, link and host port module in order. (Log 7: DEDUCED.) -/
def State.reset : State :=
  { now := 0, agenda := [], focus := none, snap := none, free := 0, next := 1, slats := [], cores := [], teams := [], dieTlb := [],
    mem := [], marks := [],
    home := { l2 := [], vfill := [], filling := [], budget := [], regions := [], veneers := [], reqs := [], copies := [], counts := [], drawer := [],
              owned := [], lastCore := [], net := [], passed := [], starts := [] },
    links := [], stc := { stage := [], err := false, busyD := [], busyF := [], classes := [] },
    hub := { queues := [], served := [], grids := [], retired := [], faults := [], kills := [], contexts := [], ended := [], fns := [], jobs := [] },
    fab := { links := [], xfers := [], replies := [] },
    trust := Trust.reset,
    boot := { step := 8, dies := 15, ready := true, modules := 8, thr := 0 },
    host := { queue := [], owned := [], crypt := [], irqs := [] },
    past := [], answers := [] }

end Sys2Proof.Machine
end

