-- ==== Sys2Proof/Machine/Access.lean ====
section
/-! DEFINITION. Reading and writing the pieces of the state: registers, guards, tables, cores, counters. -/

namespace Sys2Proof.Machine

/-- The outcome of a step of this machine. -/
abbrev Out := Host.Outcome State Fault Refusal

/-- The lanes of a mask, ascending. -/
def laneList (m : W32) : List Nat := upTo 32 (fun l => m.getLsbD l)

/-- The mask of a list of lanes. -/
def laneMask (ls : List Nat) : W32 := ls.foldl (fun m l => m ||| (1#32 <<< l)) 0#32

/-- The element with a key, replaced; the list unchanged where none has it. -/
def replaceBy {α : Type} (key : α → Nat) (x : α) (l : List α) : List α := l.map (fun y => if key y = key x then x else y)

/-- The slat of a number. -/
def State.slat? (s : State) (uid : Nat) : Option Slat := s.slats.find? (fun t => t.uid == uid)

/-- The state with a slat replaced by its number. -/
def State.setSlat (s : State) (t : Slat) : State := { s with slats := replaceBy Slat.uid t s.slats }

/-- The state with a slat changed. -/
def State.modSlat (s : State) (uid : Nat) (f : Slat → Slat) : State :=
  match s.slat? uid with
  | some t => s.setSlat (f t)
  | none => s

/-- The team of a number. -/
def State.team? (s : State) (uid : Nat) : Option Team := s.teams.find? (fun t => t.uid == uid)

/-- The state with a team replaced by its number. -/
def State.setTeam (s : State) (t : Team) : State := { s with teams := replaceBy Team.uid t s.teams }

/-- A core; one that holds nothing is listed or not. -/
def State.core (s : State) (c : Nat) : Core := sget Core.reset s.cores c

/-- The state with a core replaced. -/
def State.setCore (s : State) (c : Nat) (x : Core) : State := { s with cores := sput s.cores c x }

/-- The state with a core changed. -/
def State.modCore (s : State) (c : Nat) (f : Core → Core) : State := s.setCore c (f (s.core c))

/-- Every listed core changed. -/
def State.mapCores (s : State) (f : Nat → Core → Core) : State := { s with cores := s.cores.map (fun c => (c.1, f c.1 c.2)) }

/-- Every slat changed. -/
def State.mapSlats (s : State) (f : Slat → Slat) : State := { s with slats := s.slats.map f }

/-- A function's block (R360). -/
def State.fn (s : State) (f : Nat) : Fn := sget (Fn.reset f) s.hub.fns f

/-- The state with a function's block changed. -/
def State.modFn (s : State) (f : Nat) (g : Fn → Fn) : State :=
  { s with hub := { s.hub with fns := sput s.hub.fns f (g (s.fn f)) } }

/-- A hardware queue (R308). -/
def State.queue (s : State) (q : Nat) : Queue := sget Queue.reset s.hub.queues q

/-- The state with a queue changed. -/
def State.modQueue (s : State) (q : Nat) (g : Queue → Queue) : State :=
  { s with hub := { s.hub with queues := sput s.hub.queues q (g (s.queue q)) } }

/-- A live context (R361). -/
def State.context? (s : State) (c : Nat) : Option Context := s.hub.contexts.find? (fun x => x.ctx == c)

/-- The state with a context changed. -/
def State.modContext (s : State) (c : Nat) (g : Context → Context) : State :=
  { s with hub := { s.hub with contexts := s.hub.contexts.map (fun x => if x.ctx = c then g x else x) } }

/-- A grid of the active-grid table (R315). -/
def State.grid? (s : State) (g : Nat) : Option Grid := s.hub.grids.find? (fun x => x.id == g)

/-- The state with a grid changed. -/
def State.modGrid (s : State) (g : Nat) (f : Grid → Grid) : State :=
  { s with hub := { s.hub with grids := s.hub.grids.map (fun x => if x.id = g then f x else x) } }

/-- A drawer link (R186). -/
def State.link (s : State) (n : Nat) : Link := sget (Link.reset .up) s.links n

/-- The state with a drawer link changed. -/
def State.modLink (s : State) (n : Nat) (f : Link → Link) : State := { s with links := sput s.links n (f (s.link n)) }

/-- A fabric link (R294). -/
def State.flink (s : State) (n : Nat) : Link := sget (Link.reset .up) s.fab.links n

/-- The state with a fabric link changed. -/
def State.modFlink (s : State) (n : Nat) (f : Link → Link) : State :=
  { s with fab := { s.fab with links := sput s.fab.links n (f (s.flink n)) } }

/-- The state with the home slices changed. -/
def State.modHome (s : State) (f : Home → Home) : State := { s with home := f s.home }

/-- The state with the hub changed. -/
def State.modHub (s : State) (f : Hub → Hub) : State := { s with hub := f s.hub }

/-- A partition's trust state (R379). -/
def State.partTrust (s : State) (p : Nat) : PartTrust := (s.trust.parts.find? (fun x => x.num == p)).getD (PartTrust.reset p 0)

/-- The state with a partition's trust state changed. -/
def State.modPart (s : State) (p : Nat) (f : PartTrust → PartTrust) : State :=
  let x := f (s.partTrust p)
  { s with trust := { s.trust with parts := if s.trust.parts.any (fun y => y.num == p) then replaceBy PartTrust.num x s.trust.parts
                                            else x :: s.trust.parts } }

/-- The next unused number, and the state that has used it. (Log 6: DESIGN CHOICE.) -/
def State.fresh (s : State) : Nat × State := (s.next, { s with next := s.next + 1 })

/-- A free value (see the assumption log), and the state whose counter has advanced. (Log 5: DESIGN CHOICE.) -/
def State.freeVal (s : State) : W64 × State := (Config.freeWord s.free, { s with free := s.free + 1 })

/-- An answer kept for delivery again after a rollback (R387). -/
def State.note (s : State) (uid seq kind : Nat) (lanes : List (Nat × Nat × W32)) (cause : Option Cause) : State :=
  { s with answers := s.answers ++ [⟨s.now, uid, seq, kind, lanes, cause⟩] }

/-- A core with bytes written to its scratchpad. A write that covers an aligned block of 128 bytes clears the marks of its words, any other
leaves them, as R175 has it for a line. (Log 71: DESIGN CHOICE.) -/
def Core.bankPut (k : Core) (bs : List (Nat × Byte)) : Core :=
  { k with spad := Memory.writeEach k.spad bs
           spadMark := if k.spadMark.isEmpty then [] else k.spadMark.filter (fun m =>
             (upTo 128 (fun i => bs.any (fun b => b.1 == m.1 / 32 * 128 + i))).length != 128) }

/-- Whether one of w bytes of a scratchpad lies in a marked word. -/
def Core.bankMarked (k : Core) (a w : Nat) : Bool := !k.spadMark.isEmpty && (List.range w).any (fun i => sget false k.spadMark ((a + i) / 4))

/-- A core with the words of some scratchpad bytes marked (R175, R238). -/
def Core.bankMark (k : Core) (as : List Nat) : Core := { k with spadMark := as.foldl (fun m a => cput false m (a / 4) true) k.spadMark }

/-- Bytes that reach a core's scratchpad from a hold window, a copy or another device, each with whether it was formed from a marked word;
they are kept for a rollback of that core, since what arrived there stands (R387). -/
def State.bankWriteMarked (s : State) (core : Nat) (bs : List (Nat × Byte × Bool)) : State :=
  (s.modCore core (fun k => (k.bankPut (bs.map (fun b => (b.1, b.2.1)))).bankMark ((bs.filter (fun b => b.2.2)).map Prod.fst))).note core 0 4
    (bs.map (fun b => (b.1, b.2.1.toNat, if b.2.2 then 1#32 else 0#32))) none

/-- The same, none of them formed from a marked word. -/
def State.bankWrite (s : State) (core : Nat) (bs : List (Nat × Byte)) : State := s.bankWriteMarked core (bs.map (fun b => (b.1, b.2, false)))

/-- The error or queue interrupt of a function raised, unless the vector is masked in the function's table, or all are while it is being
reset (R309, R360, R366). (Log 89: DESIGN CHOICE.) -/
def State.irq (s : State) (f v : Nat) : State :=
  if (s.fn f).busy || (s.fn f).masked.contains v then s else { s with host := { s.host with irqs := s.host.irqs ++ [(f, v)] } }

/-- A vector of a function's table masked or unmasked by software (R360, R366). -/
def State.maskVector (s : State) (fn vec : Nat) (on : Bool) : State :=
  if 32 ≤ fn ∨ 1024 ≤ vec then s
  else s.modFn fn (fun f => { f with masked := if on then vec :: f.masked.filter (fun v => v != vec) else f.masked.filter (fun v => v != vec) })

/-- A vector register's lane (R100). -/
def Slat.vget (t : Slat) (n l : Nat) : W32 := sget 0#32 t.v (32 * n + l)

/-- A vector register's lane written; m is its poison mark (R175). -/
def Slat.vput (t : Slat) (n l : Nat) (x : W32) (m : Bool) : Slat :=
  { t with v := sput t.v (32 * n + l) x, vp := cput false t.vp (32 * n + l) m }

/-- A scalar register (R100). -/
def Slat.sget (t : Slat) (n : Nat) : W64 := Sys2Proof.sget 0#64 t.s n

/-- A scalar register written, with its poison mark. -/
def Slat.sput (t : Slat) (n : Nat) (x : W64) (m : Bool) : Slat :=
  { t with s := Sys2Proof.sput t.s n x, sp := cput false t.sp n m }

/-- A lane predicate; p7 reads true (R43, R100). -/
def Slat.pget (t : Slat) (n l : Nat) : Bool := if n = 7 then true else (Sys2Proof.sget 0#32 t.p n).getLsbD l

/-- A predicate register's 32 lanes. -/
def Slat.pmask (t : Slat) (n : Nat) : W32 := if n = 7 then 0xFFFFFFFF#32 else Sys2Proof.sget 0#32 t.p n

/-- A predicate register's lanes written where the mask selects. -/
def Slat.pput (t : Slat) (n : Nat) (lanes vals : W32) : Slat :=
  { t with p := Sys2Proof.sput t.p n ((t.pmask n &&& ~~~lanes) ||| (vals &&& lanes)) }

/-- A scalar predicate; q7 reads true (R100). -/
def Slat.qget (t : Slat) (n : Nat) : Bool := if n = 7 then true else t.q.getLsbD n

/-- A scalar predicate written. -/
def Slat.qput (t : Slat) (n : Nat) (x : Bool) : Slat :=
  { t with q := if x then t.q ||| (1#7 <<< n) else t.q &&& ~~~(1#7 <<< n) }

/-- A translation register (R105). -/
def Slat.bget (t : Slat) (n : Nat) : TReg := Sys2Proof.sget ⟨0#64, none⟩ t.b n

/-- A translation register written. -/
def Slat.bput (t : Slat) (n : Nat) (x : TReg) : Slat := { t with b := Sys2Proof.sput t.b n x }

/-- A dependency counter (R54). -/
def Slat.dget (t : Slat) (k : Nat) : Nat := Sys2Proof.sget 0 t.d k

/-- A free split-table entry (R112). -/
def SplitEntry.free : SplitEntry :=
  { st := .free, mask := 0, pc := 0, rcv := none, join := .none, pend := 0, stamp := none, skip := 0, yld := none, cont := none, fetch := none, regen := false }

/-- A split-table entry (R112). -/
def Slat.ent (t : Slat) (e : Nat) : SplitEntry := Sys2Proof.sget SplitEntry.free t.split e

/-- A split-table entry written. -/
def Slat.setEnt (t : Slat) (e : Nat) (x : SplitEntry) : Slat := { t with split := Sys2Proof.sput t.split e x }

/-- The lanes of the slat: those of its running entries (R112). -/
def Slat.live (t : Slat) : W32 := t.split.foldl (fun m e => if e.2.st = .running then m ||| e.2.mask else m) 0#32

/-- A guard of kind Q (R43). -/
def Slat.qGuard (t : Slat) (g : Guard) : Bool := t.qget g.p.toNat != g.neg

/-- Both guards of kind Q hold (R43). -/
def Slat.qHolds (t : Slat) (h : Hdr) : Bool := t.qGuard h.g1 && t.qGuard h.g2

/-- A guard of kind P in a lane (R43). -/
def Slat.pGuard (t : Slat) (g : Guard) (l : Nat) : Bool := t.pget g.p.toNat l != g.neg

/-- The active lanes of an instruction (R102). -/
def Slat.active (t : Slat) (u : Issue) (h : Hdr) : List Nat :=
  (laneList (t.ent u.ent).mask).filter (fun l => t.pGuard h.g1 l && t.pGuard h.g2 l)

/-- The fragment that is issuing: its slat and its clause (R53). -/
def State.frag (s : State) : Option (Slat × Issue) :=
  match s.focus with
  | none => none
  | some u => match s.slat? u with
    | none => none
    | some t => match t.issue with
      | none => none
      | some i => some (t, i)

/-- The effect of an instruction on the issuing fragment; an instruction outside a clause has none. (Log 3: DESIGN CHOICE.) -/
def onFrag (s : State) (f : Slat → Issue → State) : Out :=
  match s.frag with
  | some (t, u) => .next (f t u)
  | none => .fault .noFragment

/-- The clause moved past its current instruction. -/
def Issue.step (u : Issue) : Issue := { u with pos := u.pos + 1 }

/-- The state with the issuing slat changed and its clause moved past the instruction. -/
def State.advance (s : State) (t : Slat) (u : Issue) : State := s.setSlat { t with issue := some u.step }

/-- A counter raised for an instruction of n parts (R54); no parts, or no counter, holds nothing. -/
def Slat.openInst (t : Slat) (id : Nat) (ctr : Option Nat) (n : Nat) : Slat :=
  if n = 0 then t
  else
    { t with insts := t.insts ++ [⟨id, ctr, n⟩],
             d := match ctr with
               | some k => Sys2Proof.sput t.d k (t.dget k + 1)
               | none => t.d }

/-- One part of an instruction done; the last lowers its counter (R54). -/
def Slat.doneInst (t : Slat) (id : Nat) : Slat :=
  match t.insts.find? (fun i => i.id == id) with
  | none => t
  | some i =>
    if i.open_ ≤ 1 then
      { t with insts := t.insts.filter (fun j => j.id != id),
               d := match i.ctr with
                 | some k => Sys2Proof.sput t.d k (t.dget k - 1)
                 | none => t.d }
    else { t with insts := replaceBy Inst.id { i with open_ := i.open_ - 1 } t.insts }

/-- The counter a ctr field names (R46). -/
def ctrOf (c : BitVec 3) : Option Nat := if c.toNat < 6 then some c.toNat else none

/-- An entry of a slat's queues by its number. -/
def Slat.qent? (t : Slat) (seq : Nat) : Option QEnt := t.queue.find? (fun e => e.seq == seq)

/-- A slat's entry replaced. -/
def Slat.setQent (t : Slat) (e : QEnt) : Slat := { t with queue := replaceBy QEnt.seq e t.queue }

/-- A slat's entry gone. -/
def Slat.dropQent (t : Slat) (seq : Nat) : Slat := { t with queue := t.queue.filter (fun e => e.seq != seq) }

/-- An entry complete: it leaves the slat, its instruction is one part nearer its end (R54), and a fragment that continues after
it goes on (R234). -/
def Slat.finish (t : Slat) (e : QEnt) : Slat :=
  let t := (t.dropQent e.seq).doneInst e.ins
  { t with split := t.split.map (fun x => (x.1, if x.2.cont = some e.seq then { x.2 with cont := none } else x.2)) }

/-- An entry given up: a wait for a clamp does not park (R204). -/
def Slat.abandonEnt (t : Slat) (e : QEnt) : Slat :=
  match e.op with
  | .clamp (.wait _) _ _ => { t.finish e with park := .none, watch := none }
  | _ => t.finish e

/-- The core of a rank of a team, with the base of its share and of its tile window (R170, R263). -/
def Team.rankCore (t : Team) (r : Nat) : Option (Nat × Nat × Nat) := t.cores[r]?

/-- The rank of a core in a team. -/
def Team.rankOf (t : Team) (core : Nat) : Nat := t.cores.findIdx (fun c => c.1 == core)

/-- The teams of a team's gang (R320). -/
def State.gang (s : State) (t : Team) : List Team :=
  if t.gang = 0 then [t]
  else s.teams.filter (fun x => x.grid == t.grid && x.idx / t.gang == t.idx / t.gang)

/-- The slats of a team. -/
def State.teamSlats (s : State) (team : Nat) : List Slat := s.slats.filter (fun t => t.team == team)

/-- Upset protection of a core's die (R387). -/
def State.upsOn (s : State) (core : Nat) : Bool := s.trust.ups.testBit (core / Config.coresPerDie)

/-- What a slat of a core asked of the hub at a cycle is out of a rollback's reach: only then does the hub act on it (R387). (Log 56:
DEDUCED.) -/
def State.beyond (s : State) (core at_ : Nat) : Bool := !(s.upsOn core) || decide (at_ + 256 ≤ s.now)

/-- The cycle counter of a core (R9, R393): it counts from 0 at the cycle in which its core is enabled, those of a die 4 cycles apart in
ascending number (R390). The base of a die is what its last core has counted when the clock is at 0. (Log 10: DESIGN CHOICE.) -/
def State.cyc (s : State) (core : Nat) : Nat :=
  Config.cycBase (core / Config.coresPerDie) + 4 * (Config.coresPerDie - 1 - core % Config.coresPerDie) + s.now

/-- The partition that holds a die under a layout (R369). -/
def partOfDie (layout die : Nat) : Nat :=
  match layout with
  | 0 => 0
  | 1 => die / 2
  | 2 => if die < 2 then 0 else die
  | _ => die

/-- The dies of a partition under a layout (R369). -/
def diesOf (layout part : Nat) : List Nat := (List.range 4).filter (fun d => partOfDie layout d == part)

/-- A partition is protected (R370). -/
def State.partProt (s : State) (part : Nat) : Bool := ((diesOf s.trust.layout part).head?).elim false s.trust.prot.testBit

/-- The partitions of a layout (R369). -/
def partsOf (layout : Nat) : List Nat := (List.range 4).filter (fun p => !(diesOf layout p).isEmpty)

/-- The partition whose drawer range holds a line's address (R369). -/
def drawerPart (layout pa : Nat) : Nat := partOfDie layout (pa / 2 ^ 42)

/-- Where a physical address lies (R160). -/
inductive Region3 where
  | drawer | host | none
  deriving DecidableEq, Repr

/-- Where a physical address lies (R160); above its 52 bits it may carry a partition's tag. -/
def paRegion (pa : Nat) : Region3 :=
  if pa < 2 ^ 44 then .drawer else if 2 ^ 51 ≤ pa % 2 ^ 52 then .host else .none

/-- The address under which a partition's caches and homes hold a physical address (R371): a host-located one carries the partition's
number above its 52 bits, so that a lookup with another partition's tag never hits; a drawer one lies in one partition's range. -/
def tagged (part pa : Nat) : Nat := if paRegion pa = .host then pa % 2 ^ 52 + part * 2 ^ 52 else pa

/-- The physical address without a tag. -/
def untagged (pa : Nat) : Nat := pa % 2 ^ 52

/-- The fold of a line (R13). -/
def lineFold (pa : Nat) : Nat :=
  natField pa 14 7 ^^^ natField pa 22 15 ^^^ natField pa 30 23 ^^^ natField pa 38 31 ^^^ natField pa 46 39 ^^^ natField pa 51 47

/-- The home die and slice of a line in a partition (R13). -/
def homeSlice (layout part line : Nat) : Nat × Nat :=
  let h := lineFold (line * 128)
  let dies := diesOf layout part
  (dies.getD (h / 64 % dies.length) 0, h % 64)

/-- The partition that a line belongs to: by its drawer range, or by its tag for a host-located one (R369, R371). -/
def State.linePart (s : State) (line : Nat) : Nat :=
  match paRegion (line * 128) with
  | .drawer => drawerPart s.trust.layout (line * 128)
  | _ => line * 128 / 2 ^ 52

end Sys2Proof.Machine
end

