-- ==== Sys2Proof/Machine/Lines.lean ====
section
/-! DEFINITION. Lines at their homes: L2, main memory behind it, sidecars (R17, R18, R175, R372 to R377). -/

namespace Sys2Proof.Machine

/-- A byte of a line. -/
def LineVal.get (v : LineVal) (i : Nat) : Byte := sget 0#8 v.bytes i

/-- A line of zeros, unmarked. -/
def LineVal.zero : LineVal := ⟨[], 0#32⟩

/-- A line with listed bytes written; writing all 128 clears the marks, anything else leaves them (R175). -/
def LineVal.put (v : LineVal) (bs : List (Nat × Byte)) : LineVal :=
  ⟨Memory.writeEach v.bytes bs, if (upTo 128 (fun i => bs.any (fun b => b.1 == i))).length = 128 then 0#32 else v.marks⟩

/-- The little-endian value of w bytes of a line from offset i. -/
def LineVal.num (v : LineVal) (i w : Nat) : Nat := leNat ((List.range w).map (fun k => v.get (i + k)))

/-- Whether a word among w bytes from offset i is marked (R175). -/
def LineVal.marked (v : LineVal) (i w : Nat) : Bool := (List.range w).any (fun k => v.marks.getLsbD ((i + k) / 4))

/-- The line of a byte address. -/
def lineOf (a : Nat) : Nat := a / 128

/-- The 128 bytes of a line as main or host memory holds them. -/
def memLine (m : List (Nat × Byte)) (line : Nat) : List (Nat × Byte) :=
  (m.filter (fun c => c.1 / 128 == line)).map (fun c => (c.1 % 128, c.2))

/-- Memory with a whole line replaced, in canonical form. -/
def memPutLine (m : List (Nat × Byte)) (line : Nat) (v : LineVal) : List (Nat × Byte) :=
  Memory.writeEach m ((List.range 128).map (fun i => (line * 128 + i, v.get i)))

/-- The listed byte writes that fall in a line, as offsets. -/
def bytesIn (line : Nat) (bs : List (Nat × Byte)) : List (Nat × Byte) :=
  (bs.filter (fun b => b.1 / 128 == line)).map (fun b => (b.1 % 128, b.2))

/-- The line of a physical address without its tag. -/
def untagLine (line : Nat) : Nat := line % 2 ^ 45

/-- The 128 bytes of a list of listed bytes. -/
def fullLine (l : List (Nat × Byte)) : List Byte := (List.range 128).map (fun i => sget 0#8 l i)

/-- A line's bytes from all 128 of them, in canonical form. -/
def lineList (bs : List Byte) : List (Nat × Byte) := Memory.writeEach [] ((bs.zipIdx).map (fun b => (b.2, b.1)))

/-- What stands for a partition in the note of a line that the context engine wrote beside the XTS layer (R376). -/
def besideXts : Nat := 4

/-- A host-located line as host memory holds it (R376): ciphertext where a protected partition wrote it. -/
def State.hostRaw (s : State) (u : Nat) : List (Nat × Byte) :=
  match s.host.crypt.find? (fun c => c.1 == u) with
  | none => memLine s.mem u
  | some (_, p) => if p = besideXts then memLine s.mem u else lineList (Config.xtsEncrypt (s.partTrust p).kx (u * 128) (fullLine (memLine s.mem u)))

/-- A host-located line of host memory as its partition reads it through the host port (R376). -/
def State.hostView (s : State) (line : Nat) : List (Nat × Byte) :=
  let u := untagLine line
  let p := line * 128 / 2 ^ 52
  if !(s.partProt p) then s.hostRaw u
  else if s.host.crypt.contains (u, p) || s.host.crypt.contains (u, besideXts) then memLine s.mem u
  else lineList (Config.xtsDecrypt (s.partTrust p).kx (u * 128) (fullLine (s.hostRaw u)))

/-- Bytes of a host-located line written to host memory by its partition (R376), as whole lines (R358). -/
def State.hostPut (s : State) (line : Nat) (bs : List (Nat × Byte)) : State :=
  let u := untagLine line
  let p := line * 128 / 2 ^ 52
  let v := Memory.writeEach (s.hostView line) bs
  { s with mem := Memory.writeEach s.mem ((List.range 128).map (fun i => (u * 128 + i, sget 0#8 v i))),
           host := { s.host with crypt := if s.partProt p then sput s.host.crypt u p else s.host.crypt.filter (fun c => c.1 != u) } }

/-- The marks that are kept for a host-located line (R175). -/
def State.hostMarks (s : State) (line : Nat) : W32 := sget 0#32 s.marks (untagLine line)

/-- The marks of a host-located line noted. -/
def State.noteMarks (s : State) (line : Nat) (m : W32) : State :=
  if paRegion (line * 128) = .host then { s with marks := cput 0#32 s.marks (untagLine line) m } else s

/-- Bytes written to a host-located line by the host or the line agent, as host memory holds them (R163, R359, R376): no copy of the line
stays in L2 unless it is dirty. All 128 clear its marks (R175). -/
def State.hostWrite (s : State) (line : Nat) (bs : List (Nat × Byte)) : State :=
  let u := untagLine line
  let v := Memory.writeEach (s.hostRaw u) bs
  { s with mem := Memory.writeEach s.mem ((List.range 128).map (fun i => (u * 128 + i, sget 0#8 v i))),
           marks := cput 0#32 s.marks u (LineVal.put ⟨[], sget 0#32 s.marks u⟩ bs).marks,
           host := { s.host with crypt := s.host.crypt.filter (fun c => c.1 != u) },
           home := { s.home with l2 := s.home.l2.filter (fun x => x.dirty || untagLine x.line != u || paRegion (x.line * 128) != .host) } }

/-- A host-located line as the device sees it (R85, R376): host memory under what is on its way there, with the marks kept for it (R175). It
carries no sidecar. (Log 9: DESIGN CHOICE.) -/
def State.hostLine (s : State) (line : Nat) : LineVal :=
  { s.host.queue.foldl (fun (v : LineVal) q => v.put (bytesIn line q.2.2)) ⟨s.hostView line, 0#32⟩ with marks := s.hostMarks line }

/-- The live tensor slot whose range holds a line, with its function (R374). -/
def State.tensorOf (s : State) (line : Nat) : Option (Nat × Tensor) :=
  s.hub.fns.findSome? (fun f => (f.2.tensors.find? (fun t => decide (t.line ≤ line) && decide (line < t.line + t.lines))).map
    (fun t => (f.1, t)))

/-- What a fill of a line from the drawer returns (R375); host-located lines carry no sidecar (R376). -/
def State.fillVal (s : State) (line : Nat) : LineVal :=
  let raw : LineVal := ⟨memLine s.mem line, sget 0#32 s.marks line⟩
  if paRegion (line * 128) = .host then s.hostLine line
  else match sget none (s.trust.sidecars.map (fun c => (c.1, some c.2))) line with
    | none => LineVal.zero
    | some c =>
      let bad : LineVal := { raw with marks := 0xFFFFFFFF#32 }
      match s.tensorOf line with
      | none => if c.mode ≠ 2 then LineVal.zero else if c.old then bad else raw
      | some (f, t) =>
        if c.mode = 2 ∨ c.tslot ≠ f * 256 + t.slot ∨ c.gen ≠ t.version % 65536 then LineVal.zero
        else if c.old ∨ (c.mode = 0 ∧ c.ver ≠ t.version) then bad
        else raw

/-- The tag of a written line, not abandoned since, fails (R372, R375): its keys are gone, or it covers another version. -/
def State.tagFails (s : State) (line : Nat) : Bool :=
  match sget none (s.trust.sidecars.map (fun c => (c.1, some c.2))) line, s.tensorOf line with
  | none, _ => false
  | some c, none => c.mode == 2 && c.old
  | some c, some (f, t) => c.mode != 2 && c.tslot == f * 256 + t.slot && c.gen == t.version % 65536 && (c.old || (c.mode == 0 && c.ver != t.version))

/-- The counter block of unit u of line n of a tensor (R372), the field named first the most significant. (Log 68: DEDUCED.) -/
def ctrBlock (tensor version n u : Nat) : W128 :=
  BitVec.ofNat 128 (tensor % 2 ^ 32 * 2 ^ 96 + version % 2 ^ 48 * 2 ^ 48 + (8 * n + u) % 2 ^ 48)

/-- The bytes that the fibres and the drawer carry for a line (R372): counter mode under Kc for line n of a tensor in mode 0, XTS under Kx
with the line's address as tweak in the others. -/
def lineCipher (p : PartTrust) (line mode : Nat) (t : Option Tensor) (plain : List Byte) : List Byte :=
  match mode, t with
  | 0, some t =>
    let key := aesKeys p.kc
    let stream := ((List.range 8).map (fun u => blockBytes (aesRounds key (ctrBlock t.tensor t.version (line - t.line) u)))).flatten
    List.zipWith (· ^^^ ·) plain stream
  | _, _ => Config.xtsEncrypt p.kx (line * 128) plain

/-- The integrity tag of a line (R372), over its ciphertext, address, mode, tslot and, in mode 0, the full version. -/
def lineTag (p : PartTrust) (line mode slot : Nat) (t : Option Tensor) (plain : List Byte) : W64 :=
  Config.lineMac p.ki (lineCipher p line mode t plain ++ leBytes 8 (line * 128) ++ leBytes 1 mode ++ leBytes 2 slot
    ++ (if mode = 0 then leBytes 6 (t.elim 0 Tensor.version) else []))

/-- The sidecar a write-back of a line gives it (R373, R375). (Log 51: DESIGN CHOICE.) -/
def State.newSidecar (s : State) (line : Nat) (v : LineVal) : Sidecar :=
  let make := fun (gen slot mode ver : Nat) (t : Option Tensor) =>
    (⟨gen, slot, mode, lineTag (s.partTrust (s.linePart line)) line mode slot t ((List.range 128).map v.get), ver, false⟩ : Sidecar)
  match s.tensorOf line with
  | none => make 0 0 2 0 none
  | some (f, t) =>
    let slot := f * 256 + t.slot
    let gen := t.version % 65536
    match s.trust.sidecars.find? (fun c => c.1 == line) with
    | some (_, c) => make gen slot (if c.mode = 0 ∧ c.tslot = slot ∧ c.gen = gen then 1 else 0) t.version (some t)
    | none => make gen slot 0 t.version (some t)

/-- A line written back: its bytes and its poison marks in memory (R175), its sidecar made (R372, R375); a host-located line has no sidecar. -/
def State.putMem (s : State) (line : Nat) (v : LineVal) : State :=
  if paRegion (line * 128) = .host then (s.hostPut line ((List.range 128).map (fun i => (i, v.get i)))).noteMarks line v.marks
  else { s with mem := memPutLine s.mem line v, marks := cput 0#32 s.marks line v.marks,
                trust := { s.trust with sidecars := sput s.trust.sidecars line (s.newSidecar line v) } }

/-- The line's entry in L2. -/
def State.l2? (s : State) (line : Nat) : Option L2Line := s.home.l2.find? (fun x => x.line == line)

/-- A core's L1 copy of a line. -/
def Core.l1? (c : Core) (line : Nat) : Option L1Line := c.l1.find? (fun x => x.line == line)

/-- Which replacement comes first: stream lines, then normal ones, then keep lines (R169). -/
def hintRank (hint : Nat) : Nat := match hint with | 1 => 0 | 2 => 2 | _ => 1

/-- The first of the lines with least priority. -/
def firstOut {α : Type} (hint : α → Nat) (l : List α) : Option α :=
  match l.find? (fun x => hintRank (hint x) == 0) with
  | some x => some x
  | none => match l.find? (fun x => hintRank (hint x) == 1) with
    | some x => some x
    | none => l.head?

/-- Whether two lines fall in one set of an L1. -/
def sameL1Set (a b : Nat) : Bool := Config.l1Hash a % (Config.l1Lines / Config.l1Ways) == Config.l1Hash b % (Config.l1Lines / Config.l1Ways)

/-- The L1 lines that a core's delta records occupy: one for FP32, two for BF16 (R211). -/
def Core.recLines (c : Core) (p : Nat → Bool) : Nat := ((c.recs.filter (fun r => p r.line)).map (fun r => if r.bf then 2 else 1)).sum

/-- A core's L1, or the set of a line in it, is full (R14, R17). (Log 69: DESIGN CHOICE.) -/
def Core.l1Full (c : Core) (line : Nat) : Bool :=
  decide (2 ≤ c.l1.length + c.recLines (fun _ => true)) &&
    (decide (Config.l1Lines ≤ c.l1.length + c.recLines (fun _ => true))
      || decide (Config.l1Ways ≤ (c.l1.filter (fun y => sameL1Set y.line line)).length + c.recLines (sameL1Set line)))

/-- The clean line that makes room for another in a full L1: of its set, least priority first, oldest first (R169). -/
def Core.l1Victim (c : Core) (line : Nat) : Option L1Line :=
  let clean := c.l1.reverse.filter (fun y => !y.owned)
  firstOut L1Line.hint (if Config.l1Lines ≤ c.l1.length + c.recLines (fun _ => true) then clean else clean.filter (fun y => sameL1Set y.line line))

/-- A core can take a line into its L1. -/
def Core.l1Room (c : Core) (line : Nat) : Bool := (c.l1? line).isSome || !(c.l1Full line) || (c.l1Victim line).isSome

/-- The priority of a fill: a keep fill is normal where half the lines of its set are keep lines already (R169). -/
def Core.l1Hint (c : Core) (line hint : Nat) : Nat :=
  if hint = 2 ∧ Config.l1Ways < 2 * ((c.l1.filter (fun y => y.hint == 2 && y.line != line && sameL1Set y.line line)).length + 1) then 0 else hint

/-- A core without an L1 line. -/
def Core.dropL1 (c : Core) (line : Nat) : Core := { c with l1 := c.l1.filter (fun y => y.line != line) }

/-- A core with an L1 line put: in place of the copy it holds, or in a free way, or in the way of a victim; a line that finds no way is
not kept. -/
def Core.putL1 (c : Core) (x : L1Line) : Core :=
  if c.l1.any (fun y => y.line == x.line) then { c with l1 := replaceBy L1Line.line x c.l1 }
  else if c.l1Full x.line then
    match c.l1Victim x.line with
    | some y => let c := c.dropL1 y.line
                { c with l1 := x :: c.l1 }
    | none => c
  else { c with l1 := x :: c.l1 }

/-- The core that holds a line owned (R190). -/
def State.owner? (s : State) (line : Nat) : Option Nat := (s.home.owned.find? (fun x => x.1 == line)).map Prod.snd

/-- A line's value in L2, or in a write that the drawer has not acknowledged (R17, R182). -/
def State.held (s : State) (line : Nat) : Option LineVal :=
  match s.l2? line with
  | some x => some x.val
  | none => (s.home.drawer.find? (fun d => d.wr && d.line == line)).map (fun d => ⟨d.bytes, d.marks⟩)

/-- The current value at the home of a line that no veneer covers: an owned copy, L2, or main memory (R86). (Log 28: DESIGN CHOICE.) -/
def State.homeVal (s : State) (line : Nat) : LineVal :=
  match (s.owner? line).bind (fun c => (s.core c).l1? line) with
  | some x => x.val
  | none => match s.l2? line with
    | some x => x.val
    | none => s.fillVal line

/-- A line dropped from L2 without write-back. -/
def State.dropL2 (s : State) (line : Nat) : State :=
  s.modHome (fun h => { h with l2 := h.l2.filter (fun y => y.line != line) })

/-- The home die and slice of a line (R13). -/
def State.sliceOf (s : State) (line : Nat) : Nat × Nat := homeSlice s.trust.layout (s.linePart line) line

/-- The lines that hold a way of a line's slice, filled destination lines among them. -/
def State.l2Mates (s : State) (line : Nat) : List L2Line :=
  (s.home.l2 ++ s.home.vfill).filter (fun x => decide (x.way < Config.l2Ways) && s.sliceOf x.line == s.sliceOf line)

/-- A line whose home waits within a request (R18). -/
def State.waiting (s : State) (line : Nat) : Bool := s.home.reqs.any (fun o => o.tgt == .mem && o.line == line && o.st != .fresh)

/-- The way a function's new line takes in its slice and the line it displaces (R17, R169, R360): of the ways the function may allocate, a
free one, or that of the line of least priority, oldest first, that its home is not busy with; 16 where it may allocate none. (Log 69: DESIGN
CHOICE.) -/
def State.l2Way (s : State) (line fn : Nat) : Nat × Option Nat :=
  let mine := upTo Config.l2Ways (fun w => (s.fn fn).ways.testBit w)
  let mates := s.l2Mates line
  match mine.find? (fun w => mates.all (fun x => x.way != w)) with
  | some w => (w, none)
  | none =>
    let set := mates.filter (fun x => Config.l2Hash x.line % Config.l2Sets == Config.l2Hash line % Config.l2Sets)
    match mine.find? (fun w => set.all (fun x => x.way != w)) with
    | some w => (w, none)
    | none => match firstOut L2Line.hint (set.reverse.filter (fun x => mine.contains x.way && !(s.waiting x.line))) with
      | some x => (x.way, some x.line)
      | none => (Config.l2Ways, none)

/-- A line that loses its way: a clean one is gone, a dirty one waits for its write-back. -/
def State.l2Out (s : State) (line : Nat) : State :=
  s.modHome (fun h => { h with
    l2 := (h.l2.filter (fun x => x.dirty || x.line != line)).map (fun x => if x.line = line then { x with way := Config.l2Ways } else x),
    vfill := h.vfill.filter (fun x => x.line != line) })

/-- A line put into L2: in place, where it keeps its way and the function that allocated it, or in a way of the function. -/
def State.putL2 (s : State) (line : Nat) (v : LineVal) (dirty : Bool) (fn hint : Nat) : State :=
  match s.l2? line with
  | some x => s.modHome (fun h => { h with l2 := replaceBy L2Line.line { x with val := v, dirty := dirty, hint := hint } h.l2 })
  | none =>
    let w := s.l2Way line fn
    (w.2.elim s s.l2Out).modHome (fun h => { h with l2 := ⟨line, v, dirty, fn, hint, w.1⟩ :: h.l2 })

/-- A clean line that no way holds is used and not kept (R360). -/
def State.l2Used (s : State) (line : Nat) : State :=
  match s.l2? line with
  | some x => if x.way < Config.l2Ways ∨ x.dirty then s else s.dropL2 line
  | none => s

/-- A line has been used: one that no way of L2 holds is not kept (R360). -/
def State.usedUp (s : State) (line : Nat) : State :=
  (s.modHome (fun h => { h with vfill := h.vfill.filter (fun x => x.line != line || decide (x.way < Config.l2Ways)) })).l2Used line

/-- Every clean L1 copy of a line dropped (R231). -/
def State.dropClean (s : State) (line : Nat) : State :=
  s.mapCores (fun _ c => { c with l1 := c.l1.filter (fun y => y.owned || y.line != line) })

/-- The predictor entry of a core for a line: tag and count (R190). -/
def Core.predOf (c : Core) (line : Nat) : Nat × Nat := sget (0, 0) c.pred (line % 64)

/-- A core's predictor count for a line set (R190). -/
def Core.predSet (c : Core) (line cnt : Nat) : Core := { c with pred := sput c.pred (line % 64) (line / 64, cnt) }

/-- The function whose team a core holds. -/
def State.coreFn (s : State) (core : Nat) : Nat := ((s.teams.find? (fun t => t.cores.any (fun c => c.1 == core))).map Team.fn).getD 0

/-- An owned copy written home and given up (R191), a host-located one clean there, since its writes have entered the host port queue
(R85); recalled says whether the home asked for it. -/
def State.giveBack (s : State) (line : Nat) (recalled : Bool) : State :=
  match s.owner? line with
  | none => s
  | some c =>
    let s1 := match (s.core c).l1? line with
      | some x => s.putL2 line x.val (decide (paRegion (line * 128) ≠ Region3.host)) (s.coreFn c) x.hint
      | none => s
    (s1.modCore c (fun k => let k := k.dropL1 line
                            if recalled && k.predOf line == (line / 64, (k.predOf line).2) then k.predSet line 0 else k)).modHome
      (fun h => { h with owned := h.owned.filter (fun x => x.1 != line) })

/-- Bytes written to a host-located line, by physical address, at the tail of the host port queue (R85); uid and seq name the entry they
came with. -/
def State.toHost (s : State) (line : Nat) (bs : List (Nat × Byte)) (uid seq : Nat) : State :=
  if paRegion (line * 128) = .host then
    { s with host := { s.host with queue := s.host.queue ++ [(uid, seq, bs.map (fun b => (line * 128 + b.1, b.2)))] } }
  else s

/-- A line's new value at its home: dirty in L2, or for a host-located line on its way to the host (R85). -/
def State.putHome (s : State) (line : Nat) (v : LineVal) (bs : List (Nat × Byte)) (fn hint uid seq : Nat) : State :=
  ((s.putL2 line v (decide (paRegion (line * 128) ≠ Region3.host) || (s.l2? line).elim false L2Line.dirty) fn hint).toHost line bs uid seq).noteMarks
    line v.marks

/-- Bytes written into a line at its home; bytes are (offset, value). -/
def State.poke (s : State) (line : Nat) (bs : List (Nat × Byte)) (fn hint uid seq : Nat) : State :=
  s.putHome line ((s.homeVal line).put bs) bs fn hint uid seq

/-- The lines that byte addresses touch, ascending and once each. -/
def linesOf (addrs : List Nat) : List Nat := ((addrs.map lineOf).eraseDups).mergeSort (fun a b => decide (a ≤ b))

/-- Consecutive addresses. -/
def addrs (a n : Nat) : List Nat := (List.range n).map (fun i => a + i)

/-- Bytes at consecutive addresses. -/
def at_ (a : Nat) : List Byte → List (Nat × Byte)
  | [] => []
  | b :: t => (a, b) :: at_ (a + 1) t

end Sys2Proof.Machine
end

