-- ==== Sys2Proof/Machine/Resolve.lean ====
section
/-! DEFINITION. Transforms and veneer entries at the home slices (R226 to R231, R246 to R251). -/

namespace Sys2Proof.Machine

/-- Bytes of an element of a format code. -/
def fmtBytes (code : Nat) : Nat := if code = 8 then 4 else if code = 10 ∨ code = 9 then 2 else 1

/-- The identity transform. -/
def Xform.ident : Xform := ⟨0, 0, 0, 0, 0, 0, 0, 0, 0#32⟩

/-- Size of a destination element (R230). -/
def Xform.dz (x : Xform) : Nat := match x.kind with
  | 1 => 2 ^ x.esz
  | 2 => fmtBytes x.dfmt
  | _ => 1

/-- Size of a source element (R230). -/
def Xform.sz (x : Xform) : Nat := match x.kind with
  | 1 => 2 ^ x.esz
  | 2 => fmtBytes x.sfmt
  | _ => 1

/-- Byte offset in the source range of the element that feeds destination element k (R230). -/
def Xform.srcOff (x : Xform) (k : Nat) : Nat := match x.kind with
  | 1 => (k % x.rows * x.cols + k / x.rows) * x.sz
  | _ => k * x.sz

/-- Source length of a destination of n bytes (R230). -/
def Xform.srcLen (x : Xform) (n : Nat) : Nat := n / x.dz * x.sz

/-- One element through the transform (R72, R230): source bytes to destination bytes. -/
def Xform.elem (x : Xform) (bs : List Byte) : List Byte :=
  if x.kind = 2 then
    let v := fprod (fdec (ffmt x.sfmt) (leNat bs)) (f32 x.scale)
    leBytes x.dz (fround (ffmt x.dfmt) x.rnd x.ovf false v).bits
  else bs

/-- Destination byte i of element-aligned position: element k, source byte addresses through a map from source offsets. -/
def Xform.outByte (x : Xform) (src : Nat → Nat) (get : Nat → Byte) (k j : Nat) : Byte :=
  (x.elem ((List.range x.sz).map (fun m => get (src k + m)))).getD j 0#8

/-- The address of the source element of destination element k of an entry (R227). -/
def Veneer.srcAddr (v : Veneer) (k : Nat) : Nat := v.spa + v.xf.srcOff k - v.xf.srcOff v.elem

/-- Destination element that holds byte i of line m of an entry. -/
def Veneer.elemAt (v : Veneer) (m i : Nat) : Nat := v.elem + ((m - v.dpa) * 128 + i) / v.xf.dz

/-- The source lines that a destination line depends on (R247). -/
def Veneer.deps (v : Veneer) (m : Nat) : List Nat :=
  linesOf (((List.range (128 / v.xf.dz)).map (fun e => addrs (v.srcAddr (v.elemAt m (e * v.xf.dz))) v.xf.sz)).flatten)

/-- Whether a line lies in an entry's destination range. -/
def Veneer.covers (v : Veneer) (m : Nat) : Bool := decide (v.dpa ≤ m) && decide (m < v.dpa + v.nlines)

/-- Whether a line is a destination of the entry: covered, and past its destination step (R246, R397). -/
def Veneer.isDst (v : Veneer) (m : Nat) : Bool := v.covers m && !(v.todo.contains m)

/-- The destination lines of an entry. -/
def Veneer.lines (v : Veneer) : List Nat := (List.range v.nlines).map (fun i => v.dpa + i)

/-- The entry of which a line is a destination (R246). -/
def State.dstOf (s : State) (m : Nat) : Option Veneer := s.home.veneers.find? (fun v => v.isDst m)

/-- The bytes a destination line resolves to, from a reader of source bytes and marks (R248). -/
def Veneer.resolve (v : Veneer) (m : Nat) (get : Nat → Byte) (mark : Nat → Bool) : LineVal :=
  let z := v.xf.dz
  { bytes := Memory.writeEach [] ((List.range 128).map (fun i => (i, v.xf.outByte v.srcAddr get (v.elemAt m i) (i % z)))),
    marks := laneMask (upTo 32 (fun w => (List.range 4).any (fun j =>
      (List.range v.xf.sz).any (fun b => mark (v.srcAddr (v.elemAt m (4 * w + j)) + b))))) }

/-- A destination line as a read at this moment returns it (R247, R248). -/
def State.resolved (s : State) (v : Veneer) (m : Nat) : LineVal :=
  v.resolve m (fun a => (s.homeVal (lineOf a)).get (a % 128)) (fun a => (s.homeVal (lineOf a)).marked (a % 128) 1)

/-- The value of a line as a read returns it (R18, R231). -/
def State.readVal (s : State) (line : Nat) : LineVal :=
  match s.dstOf line with
  | some v => s.resolved v line
  | none => s.homeVal line

/-- The part of an entry from line m on, adjusted so that every line resolves as before (R250). -/
def Veneer.from_ (v : Veneer) (m : Nat) : Veneer :=
  let e := v.elemAt m 0
  { v with dpa := m, nlines := v.dpa + v.nlines - m, spa := v.srcAddr e, elem := e,
           todo := v.todo.filter (fun x => decide (m ≤ x)) }

/-- The part of an entry below line m (R250). -/
def Veneer.below (v : Veneer) (m : Nat) : Veneer :=
  { v with nlines := m - v.dpa, todo := v.todo.filter (fun x => decide (x < m)) }

/-- Live entries of a function (R228). -/
def State.vused (s : State) (f : Nat) : Nat := (s.home.veneers.filter (fun v => v.fn == f)).length

/-- The lowest free entry number a function may take (R228, R250, R253). -/
def State.freeVeneer (s : State) (f : Nat) : Option Nat :=
  if (s.fn f).vq ≤ s.vused f then none
  else (List.range Config.nVeneers).find? (fun i => !(s.home.veneers.any (fun v => v.idx == i)))

/-- The entries with one replaced by others. -/
def State.swapVeneer (s : State) (idx : Nat) (new : List Veneer) : State :=
  s.modHome (fun h => { h with
    veneers := new.filter (fun v => decide (0 < v.nlines)) ++ h.veneers.filter (fun v => v.idx != idx) })

/-- A line forgotten by its fill. -/
def State.dropFill (s : State) (m : Nat) : State :=
  s.modHome (fun h => { h with vfill := h.vfill.filter (fun x => x.line != m), filling := h.filling.filter (fun x => x.line != m) })

/-- Lines of an entry made real: written at their homes under the numbers of the entry that asked for it (R89), counted (R247, R258); a line whose destination step is still to
come is left for that step to perform, and is not counted (R397). (Log 72: DESIGN CHOICE.) -/
def State.realise (s : State) (v : Veneer) (ms : List Nat) (uid : Nat := 0) (seq : Nat := 0) : State :=
  let joined := ms.filter (fun m => v.isDst m)
  let s1 := joined.foldl (fun s m => let x := s.resolved v m
    (s.putHome m x ((List.range 128).map (fun i => (i, x.get i))) v.fn v.hint uid seq).dropFill m) s
  let s2 := s1.modFn v.fn (fun f => { f with vmln := (f.vmln + joined.length) % 2 ^ 64 })
  s2.modHome (fun h => { h with
    copies := h.copies.map (fun c => if c.id = v.copy then { c with perform := c.perform ++ ms.filter (fun m => v.todo.contains m) } else c) })

/-- A line leaves its entry by trim or split; a split that finds no entry makes the smaller part real (R250). -/
def State.leave (s : State) (v : Veneer) (m : Nat) (uid : Nat := 0) (seq : Nat := 0) : State :=
  let s := s.dropFill m
  let lo := v.below m
  let hi := v.from_ (m + 1)
  if lo.nlines = 0 ∨ hi.nlines = 0 then s.swapVeneer v.idx [lo, hi]
  else match s.freeVeneer v.fn with
    | some i => s.swapVeneer v.idx [lo, { hi with idx := i, heat := 0 }]
    | none =>
      if lo.nlines < hi.nlines then (s.realise v lo.lines uid seq).swapVeneer v.idx [hi]
      else (s.realise v hi.lines uid seq).swapVeneer v.idx [lo]

/-- A destination line materialised (R247): written as a real, dirty line, and gone from its entry. -/
def State.materialise (s : State) (m : Nat) (uid : Nat := 0) (seq : Nat := 0) : State :=
  match s.dstOf m with
  | none => s
  | some v => (s.realise v [m] uid seq).leave v m uid seq

/-- A line dropped by vdrop (R243): it leaves its entry and reads as before it was recorded. -/
def State.dropLine (s : State) (m : Nat) : State :=
  match s.dstOf m with
  | some v => s.leave v m
  | none => s

/-- The destination lines that depend on a source line (R247), those whose destination step is still to come included when
the source line has had its source step (R397). -/
def State.dependents (s : State) (l : Nat) : List Nat :=
  (s.home.veneers.map (fun v => if v.unread.contains l then [] else v.lines.filter (fun m => (v.deps m).contains l))).flatten

/-- The dependents that are destinations already. -/
def State.joinedDependents (s : State) (l : Nat) : List Nat := (s.dependents l).filter (fun m => (s.dstOf m).isSome)

/-- The dependents whose copy has still to take their destination step (R397). -/
def State.joiningDependents (s : State) (l : Nat) : List Nat :=
  (s.home.veneers.map (fun v => if v.unread.contains l then []
    else v.todo.filter (fun m => (v.deps m).contains l && s.home.copies.any (fun c => c.id == v.copy && c.dstTodo.contains m)))).flatten

/-- Every dependent of a source line settled at once: destinations materialised, lines still to join marked to be performed
with their snapshots (R251, R397). -/
def State.settleSource (s : State) (l : Nat) : State :=
  let deps := s.dependents l
  let s1 := (deps.filter (fun m => (s.dstOf m).isSome)).foldl (fun s m => s.materialise m) s
  s1.modHome (fun h => { h with
    copies := h.copies.map (fun c => { c with
      perform := c.perform ++ deps.filter (fun m => c.dstTodo.contains m && !(c.perform.contains m)
        && s1.home.veneers.any (fun v => v.copy == c.id && v.covers m && (v.deps m).contains l)) }) })

/-- A destination line that has been filled in L2 (R248). -/
def State.filled (s : State) (line : Nat) : Bool := s.home.vfill.any (fun x => x.line == line)

/-- A line whose value its home holds or can recall (R17); of a destination line it is the filled one, whatever L2 held before. -/
def State.near (s : State) (line : Nat) : Bool :=
  if (s.dstOf line).isSome then s.filled line else (s.held line).isSome || (s.owner? line).isSome

/-- A line whose value its home has at hand, for a destination line that of every source (R17, R247); one it has not has to be fetched
before it is read. -/
def State.present (s : State) (line : Nat) : Bool :=
  s.near line || (match s.dstOf line with
    | some v => (v.deps line).all s.near
    | none => false)

/-- The lines of an entry that are made real because a line leaves it: the smaller part of a split that finds no entry (R250). -/
def State.splitReal (s : State) (v : Veneer) (m : Nat) : List Nat :=
  let lo := v.below m
  let hi := v.from_ (m + 1)
  if lo.nlines = 0 ∨ hi.nlines = 0 ∨ (s.freeVeneer v.fn).isSome then []
  else (if lo.nlines < hi.nlines then lo else hi).lines.filter v.isDst

/-- The source lines that the materialisation of some lines of an entry reads (R247). -/
def Veneer.depsOf (v : Veneer) (ms : List Nat) : List Nat := ((ms.map v.deps).flatten).eraseDups

/-- What has to be at hand before a destination line leaves its entry (R182, R250). -/
def State.leaveDeps (s : State) (line : Nat) : List Nat :=
  match s.dstOf line with
  | some v => v.depsOf (s.splitReal v line)
  | none => []

/-- What has to be at hand before a line is updated in place or made real (R17, R182, R247): the line; for a destination line its sources, and
those of the lines that are made real with it. -/
def State.realDeps (s : State) (line : Nat) : List Nat :=
  match s.dstOf line with
  | some v => v.depsOf (line :: s.splitReal v line)
  | none => [line]

/-- A line can be updated in place or made real. -/
def State.ripe (s : State) (line : Nat) : Bool := (s.realDeps line).all s.near

/-- The role of a line for vstat: a source of a live entry, from its own source step on, through some line that has joined the entry or is
still to join it and not to be performed (R244, R246, R397). -/
def State.isSource (s : State) (l : Nat) : Bool :=
  s.home.veneers.any (fun v => !(v.unread.contains l) && v.lines.any (fun m => (v.deps m).contains l
    && !(v.todo.contains m && s.home.copies.any (fun c => c.id == v.copy && c.perform.contains m))))

end Sys2Proof.Machine
end

