-- ==== Sys2Proof/Machine/Gauge.lean ====
section
/-! DEFINITION. Gauge directories and delta records, and settling a line at once (R210 to R214). -/

namespace Sys2Proof.Machine

/-- A number that no context has: that of work whose context has ended, so that a context created under its number later is another one
(R367). -/
def noCtx : Nat := 65536

/-- The budget entry of a line (R211). -/
def State.budget? (s : State) (line : Nat) : Option Budget := s.home.budget.find? (fun b => b.line == line)

/-- The state with a budget entry put. -/
def State.setBudget (s : State) (b : Budget) : State :=
  s.modHome (fun h => { h with budget := b :: h.budget.filter (fun x => x.line != b.line) })

/-- The state with a budget entry put; one without sharers is freed (R212). -/
def State.putBudget (s : State) (b : Budget) : State :=
  if b.sharers.isEmpty then s.modHome (fun h => { h with budget := h.budget.filter (fun x => x.line != b.line) }) else s.setBudget b

/-- Bytes of an element: 2 in BF16, 4 in FP32. -/
def elemBytes (bf : Bool) : Nat := if bf then 2 else 4

/-- One addend applied to an element of a line, rounded to the region's format (R212, R213). -/
def addElem (bf : Bool) (v : LineVal) (a : Add) : LineVal :=
  let i := a.1 * elemBytes bf
  if bf then
    let r := toB16 (fsum 0 (b16 (v.num i 2)) (f32 a.2))
    { v with bytes := Memory.writeAll v.bytes i (leBytes 2 r) }
  else
    let r := f32add (BitVec.ofNat 32 (v.num i 4)) a.2
    { v with bytes := Memory.writeAll v.bytes i (leBytes 4 r.toNat) }

/-- Adds applied in order at the home (R212); uid and seq name the entry they came with. -/
def State.addHome (s : State) (line : Nat) (bf : Bool) (adds : List Add) (fn uid seq : Nat) : State :=
  let v := adds.foldl (fun v a => addElem bf v a) (s.homeVal line)
  let bs := (adds.map (fun a => (List.range (elemBytes bf)).map (fun k => (a.1 * elemBytes bf + k, v.get (a.1 * elemBytes bf + k))))).flatten
  s.putHome line v bs fn ((s.l2? line).elim 0 L2Line.hint) uid seq

/-- A core's record of a line (R211). -/
def Core.rec? (c : Core) (line : Nat) : Option DeltaRec := c.recs.find? (fun r => r.line == line)

/-- A core's record replaced. -/
def Core.putRec (c : Core) (r : DeltaRec) : Core :=
  { c with recs := if c.recs.any (fun x => x.line == r.line) then replaceBy DeltaRec.line r c.recs else c.recs ++ [r] }

/-- A core without a record. -/
def Core.dropRec (c : Core) (line : Nat) : Core := { c with recs := c.recs.filter (fun r => r.line != line) }

/-- Every element of a record, as a drain carries it (R213). -/
def DeltaRec.carried (r : DeltaRec) : List Add :=
  (List.range (if r.bf then 64 else 32)).map (fun x => (x, sget 0#32 r.delta x))

/-- A record emptied: delta and gauge zero (R212, R213). -/
def DeltaRec.empty (r : DeltaRec) (draining : Bool) : DeltaRec := { r with delta := [], gauge := 0#32, draining := draining }

/-- Entries of a core that waited for the drain of a line need not wait any more: what remains of a drn is told. -/
def Slat.drained (t : Slat) (line : Nat) : Slat :=
  t.queue.foldl (fun t e => match e.op with
    | .drn _ _ =>
      if e.lanes.any (fun l => l.data == some line && l.st == .sent) then
        let e' := { e with lanes := e.lanes.filter (fun l => !(l.data == some line && l.st == .sent)) }
        if e'.lanes.isEmpty then t.finish e' else t.setQent e'
      else t
    | _ => t) t

/-- What becomes of a message to a core when its line's shares are discarded (R366): a reply grants nothing, the rest is void. -/
def Net.revoked (n : Net) (line : Nat) : Option Net :=
  match n.msg with
  | .reply l bf _ c r => if l = line then some { n with msg := .reply l bf none c r } else some n
  | .force l _ _ => if l = line then none else some n
  | .ack l => if l = line then none else some n

/-- A unit outside the cores holds a line: its request has been settled for a read, or for a write (R18). -/
def State.hubHeld (s : State) (rd : Bool) (line : Nat) : Bool :=
  s.home.reqs.any (fun r => r.msg == .hub rd && r.line == line && r.st == .drains [])

/-- A line whose home has no request and nothing to settle before a read, or before a write (R18): no owned copy, no share, and for a
write neither a destination nor a source of a veneer; and the line is at hand. -/
def State.hubIdle (s : State) (rd : Bool) (line : Nat) : Bool :=
  s.present line && s.home.reqs.all (fun r => r.tgt != .mem || r.line != line) && (s.owner? line).isNone && (s.budget? line).isNone
    && (rd || ((s.dstOf line).isNone && (s.dependents line).isEmpty))

/-- The step of a unit outside the cores at some lines can be taken (R18); a line held for a write may be read too. -/
def State.hubOk (s : State) (rd : Bool) (lines : List Nat) : Bool :=
  lines.all (fun l => s.hubHeld rd l || (rd && s.hubHeld false l) || s.hubIdle rd l)

/-- A unit's requests for the lines of a step that it cannot take yet (R18), all at one time, so that no two units wait for each other in a
ring; no core makes them. -/
def State.hubAsk (s : State) (rd : Bool) (fn part : Nat) (lines : List Nat) : State :=
  lines.foldl (fun (s : State) l =>
    if s.home.reqs.any (fun r => r.msg == .hub rd && r.line == l) then s
    else
      let (id, s) := s.fresh
      let r : Req := { id := id, uid := 0, seq := 0, path := .ls, core := Config.nCores, ctx := 0, fn := fn, part := part, tgt := .mem, line := l,
                       hint := 0, mail := false, msg := .hub rd, st := .fresh }
      s.modHome (fun h => { h with reqs := h.reqs ++ [r] })) s

/-- A line that something other than a core's request has been served at (R190). -/
def State.unlast (s : State) (line : Nat) : State := s.modHome (fun h => { h with lastCore := h.lastCore.filter (fun x => x.1 != line) })

/-- A unit's step at some lines is over: it holds them no more, and no core was the last to ask for them (R190). -/
def State.hubFree (s : State) (rd : Bool) (lines : List Nat) : State :=
  if lines.isEmpty then s
  else (lines.foldl State.usedUp s).modHome (fun h => { h with
    reqs := h.reqs.filter (fun r => !(r.msg == .hub rd && lines.contains r.line && r.st == .drains []))
    lastCore := h.lastCore.filter (fun x => !(lines.contains x.1)) })

/-- A unit's step at some lines: taken where they are ready, asked for where they are not. -/
def State.hubStep (s : State) (rd : Bool) (fn part : Nat) (lines : List Nat) (f : State → State) : State :=
  if s.hubOk rd lines then (f s).hubFree rd lines else s.hubAsk rd fn part lines

/-- Bytes written at physical addresses at their homes, each line as one write-class home step; uid and seq name the entry they came with.
(Log 28: DESIGN CHOICE.) -/
def State.hubWriteAs (s : State) (fn uid seq : Nat) (bs : List (Nat × Byte)) : State :=
  (linesOf (bs.map Prod.fst)).foldl (fun (s : State) l => s.poke l (bytesIn l bs) fn 0 uid seq) s

/-- Bytes written at physical addresses by a unit outside the cores. -/
def State.hubWrite (s : State) (fn : Nat) (bs : List (Nat × Byte)) : State := s.hubWriteAs fn 0 0 bs

/-- Every record of some lines given up: each give-up enters its core's hold window (R213, R214). -/
def State.giveUpAll (s : State) (send : State → Nat → DeltaRec → State) (which : DeltaRec → Bool) : State :=
  s.cores.foldl (fun (s : State) c => ((s.core c.1).recs.filter which).foldl (fun (s : State) r => send s c.1 r) s) s

/-- A physical byte as a unit outside the cores reads it at its home (R18). -/
def State.hubByte (s : State) (a : Nat) : Byte := (s.readVal (lineOf a)).get (a % 128)

/-- Consecutive physical bytes as such a unit reads them. -/
def State.hubRead (s : State) (a n : Nat) : List Byte := (addrs a n).map s.hubByte

end Sys2Proof.Machine
end

