-- ==== Sys2Proof/Machine/Translate.lean ====
section
/-! DEFINITION. Address translation and the checks of an access (R156 to R164, R371, R382). -/

namespace Sys2Proof.Machine

/-- What a walk finds (R158 to R160). -/
inductive Walk where
  | leaf (e : W64) (size : Nat)
  | absent
  | malformed
  | regen (e : W64) (size : Nat)
  deriving DecidableEq, Repr

/-- A virtual address is the sign extension of its bits [54:0] (R156). -/
def canonical (va : W64) : Bool := va == (va.truncate 55).signExtend 64

/-- PA[51:16] of an entry's frame, as an address (R159). -/
def pteFrame (e : W64) : Nat := natField e.toNat 51 16 * 65536

/-- The owner field of a leaf: 0 host, 1 device, 2 mailbox (R159). -/
def pteOwn (e : W64) : Nat := natField e.toNat 61 60

/-- The permissions a translation register copies (R105). -/
def ptePerm (e : W64) : Perm := ⟨e.getLsbD 54, e.getLsbD 55, pteOwn e == 2, e.getLsbD 57⟩

/-- A leaf is malformed (R160, R371). -/
def badLeaf (layout part : Nat) (e : W64) (size : Nat) : Bool :=
  let pa := pteFrame e
  e.getLsbD 52 || e.toNat % 65536 != 0 || pa % size != 0 || pteOwn e == 3 || paRegion pa == .none
    || (paRegion pa == .drawer && drawerPart layout pa != part)

/-- One level of a walk: lv counts the levels below it (R158). -/
def State.walkFrom (s : State) (part : Nat) (va : W64) : Nat → Nat → Walk
  | 0, _ => .malformed
  | lv + 1, base =>
    let idx := natField va.toNat (16 + 13 * lv + 12) (16 + 13 * lv)
    let size := 2 ^ (16 + 13 * lv)
    let e := BitVec.ofNat 64 (leNat ((addrs (tagged part (base + 8 * idx)) 8).map (fun a => (s.readVal (lineOf a)).get (a % 128))))
    match natField e.toNat 63 62 with
    | 0 => .absent
    | 1 =>
      if lv = 0 ∨ natField e.toNat 61 52 ≠ 0 ∨ e.toNat % 65536 ≠ 0 ∨ paRegion (pteFrame e) = .none then .malformed
      else s.walkFrom part va lv (pteFrame e)
    | 2 => if badLeaf s.trust.layout part e size then .malformed else .leaf e size
    | _ => if natField e.toNat 53 48 ≠ 0 ∨ e.toNat % 65536 ≠ 0 then .malformed else .regen e size

/-- The lines that a walk reads, up to the first that its home has not at hand (R158, R179). -/
def State.walkFromLines (s : State) (part : Nat) (va : W64) : Nat → Nat → List Nat
  | 0, _ => []
  | lv + 1, base =>
    let a := tagged part (base + 8 * natField va.toNat (16 + 13 * lv + 12) (16 + 13 * lv))
    let e := BitVec.ofNat 64 (leNat ((addrs a 8).map (fun a => (s.readVal (lineOf a)).get (a % 128))))
    if !(s.present (lineOf a)) ∨ natField e.toNat 63 62 ≠ 1 ∨ lv = 0 then [lineOf a]
    else lineOf a :: s.walkFromLines part va lv (pteFrame e)

/-- The walk of a context's tables (R158). -/
def State.walk (s : State) (ctx part : Nat) (va : W64) : Walk :=
  match s.context? ctx with
  | none => .absent
  | some c => s.walkFrom part va 3 c.root

/-- The lines that the walk of a context's tables reads. -/
def State.walkLines (s : State) (ctx part : Nat) (va : W64) : List Nat :=
  match s.context? ctx with
  | none => []
  | some c => if canonical va then s.walkFromLines part va 3 c.root else []

/-- A TLB's entry for an address; a lookup with another partition's tag never hits (R371). -/
def tlbFind (l : List TlbEnt) (ctx part : Nat) (va : W64) : Option TlbEnt :=
  l.find? (fun e => e.ctx == ctx && e.part == part && decide (e.va ≤ va.toNat) && decide (va.toNat < e.va + e.size))

/-- A TLB with an entry put, the oldest leaving when it is full (R158). (Log 32: DESIGN CHOICE.) -/
def tlbAdd (cap : Nat) (l : List TlbEnt) (e : TlbEnt) : List TlbEnt := ((l.filter (fun x => x != e)) ++ [e]).drop (l.length + 1 - cap)

/-- The last-level TLB of a core's die. -/
def State.dieTlbOf (s : State) (core : Nat) : List TlbEnt := sget [] s.dieTlb (core / Config.coresPerDie)

/-- The L1 TLB, then the last-level TLB (R157); a last-level hit fills the L1 TLB. -/
def State.tlbLook (s : State) (core ctx part : Nat) (va : W64) : Option TlbEnt × State :=
  match tlbFind (s.core core).tlb ctx part va with
  | some e => (some e, s)
  | none => match tlbFind (s.dieTlbOf core) ctx part va with
    | some e => (some e, s.modCore core (fun c => { c with tlb := tlbAdd Config.l1TlbSize c.tlb e }))
    | none => (none, s)

/-- The lines that the walks for some addresses read, where a core's TLBs do not hold them (R157, R158). -/
def State.walksFor (s : State) (core ctx part : Nat) (vas : List W64) : List Nat :=
  ((vas.filter (fun va => (s.tlbLook core ctx part va).1.isNone)).map (s.walkLines ctx part)).flatten.eraseDups

/-- Both TLBs filled with a leaf. -/
def State.tlbFill (s : State) (core : Nat) (e : TlbEnt) : State :=
  let d := core / Config.coresPerDie
  { s.modCore core (fun c => { c with tlb := tlbAdd Config.l1TlbSize c.tlb e }) with
    dieTlb := sput s.dieTlb d (tlbAdd Config.dieTlbSize (s.dieTlbOf core) e) }

/-- The TLB entry of a leaf found for an address. -/
def leafEnt (ctx part : Nat) (va : W64) (e : W64) (size : Nat) : TlbEnt :=
  ⟨ctx, part, va.toNat / size * size, size, pteFrame e, e⟩

/-- TLBs, then a walk, which fills them (R157, R158). -/
def State.lookup (s : State) (core ctx part : Nat) (va : W64) : Walk × State :=
  match s.tlbLook core ctx part va with
  | (some e, s) => (.leaf e.leaf e.size, s)
  | (none, s) => match s.walk ctx part va with
    | .leaf e size => (.leaf e size, s.tlbFill core (leafEnt ctx part va e size))
    | w => (w, s)

/-- What an access needs of its page, and the reason it takes on a mailbox page, if it may not stand there (R161). -/
structure Need where
  rd : Bool
  wr : Bool
  fetch : Bool
  mail : Option Nat
  deriving DecidableEq, Repr

/-- The fate of one access (R161). -/
inductive Fate where
  | ok (pa : Nat) (perm : Perm)
  | sync (code reason : Nat)
  | served (kind why page size : Nat) (e : W64)
  deriving DecidableEq, Repr

/-- A frame is sealed for a context (R382). -/
def Context.seals (c : Context) (pa : Nat) : Bool := c.sealed.any (fun r => decide (r.1 ≤ pa) && decide (pa < r.1 + r.2))

/-- A frame is sealed for some context (R382), of whatever partition: memory is one behind the tags. -/
def State.sealedAny (s : State) (pa : Nat) : Bool :=
  s.hub.contexts.any (fun c => c.sealed.any (fun r => decide (untagged r.1 ≤ untagged pa) && decide (untagged pa < untagged r.1 + r.2)))

/-- Checks 7 and 9 of R161 on permissions already held in a translation register. -/
def State.checkDirect (s : State) (need : Need) (pa : Nat) (p : Perm) : Fate :=
  if need.rd && !p.rd then .sync 6 3
  else if need.wr && !p.w then .sync 6 4
  else if need.wr && s.sealedAny pa then .sync 6 0xE
  else match p.mail, need.mail with
    | true, some r => .sync 6 r
    | _, _ => .ok pa p

/-- Checks 6 to 9 of R161 on a leaf; level is the slat's privilege level. -/
def State.checkLeaf (s : State) (ctx part level : Nat) (need : Need) (va : W64) (e : W64) (size : Nat) : Fate :=
  let pa := tagged part (pteFrame e + va.toNat % size)
  if e.getLsbD 53 && level == 0 then .sync 6 1
  else if natField e.toNat 59 58 ≠ part then .sync 6 2
  else if need.rd && !(e.getLsbD 54) then .sync 6 3
  else if need.wr && !(e.getLsbD 55) then .sync 6 4
  else if need.wr && s.sealedAny pa then .sync 6 0xE
  else if need.fetch && !(e.getLsbD 56) then .sync 6 0xF
  else if need.fetch && !((s.context? ctx).elim false (fun c => c.seals pa)) then .sync 6 0xD
  else if pteOwn e = 0 then .served 1 1 (va.toNat / size * size) size e
  else match (ptePerm e).mail, need.mail with
    | true, some r => .sync 6 r
    | _, _ => .ok pa (ptePerm e)

/-- Checks 3 to 9 of R161 on what a walk or TLB found. -/
def State.checkWalk (s : State) (ctx part level : Nat) (need : Need) (va : W64) (w : Walk) : Fate :=
  match w with
  | .absent => .served 0 1 (va.toNat / 65536 * 65536) 0 0
  | .malformed => .served 0 3 (va.toNat / 65536 * 65536) 0 0
  | .regen e size => .served 2 1 (va.toNat / size * size) size e
  | .leaf e size => s.checkLeaf ctx part level need va e size

/-- The page that holds an address and its size, 64 KiB where no leaf tells. -/
def State.pageOf (s : State) (core ctx part : Nat) (va : W64) : Nat × Nat :=
  let size := match (s.lookup core ctx part va).1 with
    | .leaf _ size => size
    | _ => 65536
  (va.toNat / size * size, size)

/-- Checks 3 to 9 of R161 on a virtual address, through the TLBs of a core. -/
def State.check (s : State) (core ctx part level : Nat) (need : Need) (va : W64) : Fate × State :=
  if !canonical va then (.served 0 2 (va.toNat / 65536 * 65536) 0 0, s)
  else
    let (w, s) := s.lookup core ctx part va
    (s.checkWalk ctx part level need va w, s)

/-- The same for a unit of the hub, which walks without a core's TLB. (Log 43: DEDUCED.) -/
def State.hubCheck (s : State) (ctx part level : Nat) (need : Need) (va : W64) : Fate :=
  if !canonical va then .served 0 2 (va.toNat / 65536 * 65536) 0 0
  else s.checkWalk ctx part level need va (s.walk ctx part va)

/-- A load (R161). -/
def Need.load : Need := ⟨true, false, false, none⟩
/-- A store (R161). -/
def Need.store : Need := ⟨false, true, false, none⟩

/-- The page that holds an address, as far as the walk tells: its end. -/
def State.pageEnd (s : State) (ctx part : Nat) (va : W64) : Nat :=
  match s.walk ctx part va with
  | .leaf _ size => va.toNat / size * size + size
  | .regen _ size => va.toNat / size * size + size
  | _ => va.toNat / 65536 * 65536 + 65536

/-- The pages of a range, each as (offset in the range, bytes), ascending; fuel bounds their number (R232, R238). -/
def State.pages (s : State) (ctx part : Nat) (va : W64) (n : Nat) : Nat → Nat → List (Nat × Nat)
  | 0, _ => []
  | fuel + 1, off =>
    if n ≤ off then []
    else
      let a := va + BitVec.ofNat 64 off
      let len := min (n - off) (s.pageEnd ctx part a - a.toNat)
      (off, len) :: s.pages ctx part va n fuel (off + len)

/-- The pages of a range: no page is smaller than 64 KiB. -/
def State.pagesOf (s : State) (ctx part : Nat) (va : W64) (n : Nat) : List (Nat × Nat) :=
  s.pages ctx part va n (n / 65536 + 2) 0

/-- The addresses that stand for the pages of a range. -/
def State.pageVas (s : State) (ctx part : Nat) (va : W64) (n : Nat) : List W64 :=
  (s.pagesOf ctx part va n).map (fun p => va + BitVec.ofNat 64 p.1)

/-- The lines that a unit of the hub, which has no TLB, walks through for a range. -/
def State.hubWalks (s : State) (ctx part : Nat) (va : W64) (n : Nat) : List Nat :=
  ((s.pageVas ctx part va n).map (s.walkLines ctx part)).flatten.eraseDups

/-- The fate of a whole range, and its physical segments (offset, address, bytes) when every page passes: the first page
that fails decides (R238). -/
def State.checkRange (s : State) (ctx part level : Nat) (need : Need) (va : W64) :
    List (Nat × Nat) → Except Fate (List (Nat × Nat × Nat))
  | [] => .ok []
  | (off, len) :: t =>
    match s.hubCheck ctx part level need (va + BitVec.ofNat 64 off) with
    | .ok pa _ => match s.checkRange ctx part level need va t with
      | .ok segs => .ok ((off, pa, len) :: segs)
      | .error f => .error f
    | f => .error f

/-- The physical address of byte i of a range held as segments. -/
def segAddr (segs : List (Nat × Nat × Nat)) (i : Nat) : Nat :=
  match segs.find? (fun g => decide (g.1 ≤ i) && decide (i < g.1 + g.2.2)) with
  | some (off, pa, _) => pa + (i - off)
  | none => 0

/-- The lines that segments touch. -/
def segLines (segs : List (Nat × Nat × Nat)) : List Nat :=
  (segs.map (fun g => (List.range ((g.2.1 + g.2.2 + 127) / 128 - g.2.1 / 128)).map (fun i => g.2.1 / 128 + i))).flatten.eraseDups

/-- The segments of a range that lie on mailbox pages. -/
def State.mailSegs (s : State) (ctx part : Nat) (va : W64) (segs : List (Nat × Nat × Nat)) : List (Nat × Nat × Nat) :=
  segs.filter (fun g => match s.walk ctx part (va + BitVec.ofNat 64 g.1) with
    | .leaf e _ => pteOwn e == 2
    | _ => false)

/-- Whether segments hold byte i of a range. -/
def inSegs (segs : List (Nat × Nat × Nat)) (i : Nat) : Bool := segs.any (fun g => decide (g.1 ≤ i) && decide (i < g.1 + g.2.2))

/-- A byte of a host-located line as the line agent reads it, under an ownership that lasts for its step (R163, R358). -/
def State.agentByte (s : State) (a : Nat) : Byte := sget 0#8 (s.hostRaw (untagLine (lineOf a))) (a % 128)

/-- Bytes written by the line agent, each line under an ownership that lasts for its step (R163, R358). -/
def State.agentPut (s : State) (bs : List (Nat × Byte)) : State :=
  (linesOf (bs.map Prod.fst)).foldl (fun (s : State) l => s.hostWrite l (bytesIn l bs)) s

/-- Bytes read by a hub unit at a virtual range, where every page lets it (R311, R334); mailbox pages by the line agent. -/
def State.hubReadVa (s : State) (ctx part level : Nat) (va : W64) (n : Nat) : Except Fate (List Byte) :=
  match s.checkRange ctx part level Need.load va (s.pagesOf ctx part va n) with
  | .ok segs =>
    let mail := s.mailSegs ctx part va segs
    .ok ((List.range n).map (fun i => if inSegs mail i then s.agentByte (segAddr segs i) else s.hubByte (segAddr segs i)))
  | .error f => .error f

/-- Bytes of a range of segments written by a hub unit: those that direct takes go to host memory by the line agent, the others to their
homes. -/
def State.hubPut (s : State) (fn : Nat) (segs direct : List (Nat × Nat × Nat)) (bs : List Byte) : State :=
  let place := fun (x : List (Nat × Byte)) => x.map (fun b => (segAddr segs b.1, b.2))
  let all := at_ 0 bs
  if direct.isEmpty then s.hubWrite fn (place all)
  else (s.hubWrite fn (place (all.filter (fun b => !(inSegs direct b.1))))).agentPut (place (all.filter (fun b => inSegs direct b.1)))

/-- Bytes written by a hub unit at a virtual range, where every page lets it. -/
def State.hubWriteVa (s : State) (fn ctx part : Nat) (va : W64) (bs : List Byte) : Except Fate State :=
  match s.checkRange ctx part 1 Need.store va (s.pagesOf ctx part va bs.length) with
  | .ok segs => .ok (s.hubPut fn segs (s.mailSegs ctx part va segs) bs)
  | .error f => .error f

/-- The lines at their homes that a unit of the hub reads or writes at a virtual range, where every page lets it: none of a mailbox page. -/
def State.vaLines (s : State) (ctx part level : Nat) (need : Need) (va : W64) (n : Nat) : List Nat :=
  match s.checkRange ctx part level need va (s.pagesOf ctx part va n) with
  | .ok segs => let mail := s.mailSegs ctx part va segs
                segLines (segs.filter (fun g => !(mail.contains g)))
  | .error _ => []

/-- A place that a unit of the hub reads or writes: its context, partition and level, and the range. -/
structure HubAt where
  ctx : Nat
  part : Nat
  level : Nat
  need : Need
  va : W64
  len : Nat

/-- The lines that the walks for a place of a unit read. -/
def State.atWalks (s : State) (x : HubAt) : List Nat := s.hubWalks x.ctx x.part x.va x.len

/-- The lines that a unit reads or writes at a place. -/
def State.atLines (s : State) (x : HubAt) : List Nat := s.vaLines x.ctx x.part x.level x.need x.va x.len

/-- A unit's step at some places can be taken: the lines of their walks, and those it reads or writes, are ready (R18, R158, R179). -/
def State.hubReady (s : State) (xs : List HubAt) : Bool :=
  xs.all (fun x => s.hubOk true (s.atWalks x) && s.hubOk (!x.need.wr) (s.atLines x))

/-- What a unit's step waits for asked for: the walks first. -/
def State.hubWant (s : State) (fn : Nat) (xs : List HubAt) : State :=
  match xs.find? (fun x => !(s.hubOk true (s.atWalks x))) with
  | some x => s.hubAsk true fn x.part (s.atWalks x)
  | none => xs.foldl (fun (s : State) x =>
      if s.hubOk (!x.need.wr) (s.atLines x) then s else s.hubAsk (!x.need.wr) fn x.part (s.atLines x)) s

/-- A unit's step at some places is over; they are as they stood before it. -/
def State.hubOver (s0 s : State) (xs : List HubAt) : State :=
  xs.foldl (fun (s : State) x => (s.hubFree (!x.need.wr) (s0.atLines x)).hubFree true (s0.atWalks x)) s

/-- The dword j of a list of bytes. -/
def dword (bs : List Byte) (j : Nat) : W64 := BitVec.ofNat 64 (leNat ((bs.drop (8 * j)).take 8))

/-- A translation register's own pointer resolved through the TLBs, where the leaf lets the slat in (R106, R111). -/
def Slat.resolveB (t : Slat) (e : TlbEnt) (va : W64) : Option TRes :=
  let p := ptePerm e.leaf
  if pteOwn e.leaf = 0 ∨ (p.rd = false ∧ p.w = false) ∨ (e.leaf.getLsbD 53 ∧ t.level = 0)
      ∨ natField e.leaf.toNat 59 58 ≠ t.part then none
  else some ⟨tagged t.part (e.pa + (va.toNat - e.va)), e.va + e.size - va.toNat, p, e.va, e.size⟩

end Sys2Proof.Machine
end

