-- ==== Sys2Proof/Machine/Hub.lean ====
section
/-! DEFINITION. Markers, clamps, queue items, fault and kill records, launch records: what the units of the hub and the slats
share (R89 to R91, R199 to R207, R308 to R314, R327, R328, R364). -/

namespace Sys2Proof.Machine

/-- All five paths. -/
def allPaths : List Path := [.ls, .ac, .cp, .mx, .xf]

/-- A marker's entry (R90, R91); its place in a clause is not reported. -/
def markerEnt (seq : Nat) (paths : List Path) (m : Marker) : QEnt :=
  { seq := seq, ins := seq, paths := paths, op := .marker m, lanes := [], word := 0, cid := 0, pos := 0, len := 0, ent := 0,
    mail := false, tok := none, regen := none }

/-- A release marker (R90). -/
def relMark (home : Bool) : Marker :=
  { rel := true, home := home, sys := false, promote := none, stage := 0, since := 0, fst := false, status := 0 }

/-- An acquire marker (R91). -/
def acqMark (home : Bool) : Marker :=
  { rel := false, home := home, sys := false, promote := none, stage := 0, since := 0, fst := false, status := 0 }

/-- A marker placed at the end of a slat's queues. -/
def State.mark (s : State) (uid : Nat) (paths : List Path) (m : Marker) : State :=
  let (n, s) := s.fresh
  s.modSlat uid (fun t => { t with queue := t.queue ++ [markerEnt n paths m] })

/-- Whether a scope resolves to the home for a slat (R89). -/
def State.scopeHome (s : State) (t : Slat) (scope : Nat) : Bool :=
  match scope, s.team? t.team with
  | 0, _ => false
  | 1, some m => decide (1 < m.cores.length)
  | 2, some m => decide (1 < ((s.gang m).map (fun x => x.cores.map Prod.fst)).flatten.eraseDups.length)
  | _, _ => true

/-- A device-scope acquire on all five paths (R96, R316, R333). -/
def State.acqAll (s : State) (uid : Nat) : State := s.mark uid allPaths (acqMark true)

/-- A device-scope release on ls, ac and cp (R96). -/
def State.relDev (s : State) (uid : Nat) : State := s.mark uid [.ls, .ac, .cp] (relMark true)

/-- %bst as a slat next sees it: the team part from the team, cerr and cwoke as given or as they stand (R206). -/
def State.newBst (s : State) (t : Slat) (c : Option (Bool × Bool)) : W64 :=
  let team := match s.team? t.team with
    | some m => if m.aband then m.kslat * 65536 + m.kcause * 256 + 1 else 0
    | none => 0
  let bits := match c with
    | some (cerr, cwoke) => (if cerr then 4 else 0) + (if cwoke then 2 else 0)
    | none => natField t.bst.toNat 2 1 * 2
  BitVec.ofNat 64 (team + bits)

/-- A clamp (R199). -/
structure Clamp where
  abytes : Nat
  ebytes : Nat
  aslats : Nat
  eslats : Nat
  ovr : Bool
  err : Bool
  phase : Nat
  deriving DecidableEq, Repr

/-- A clamp's fields (R199). -/
def Clamp.ofBytes (bs : List Byte) : Clamp :=
  let n := leNat bs
  { abytes := natField n 127 96, ebytes := natField n 95 64, aslats := natField n 63 48, eslats := natField n 47 32,
    ovr := n.testBit 31, err := n.testBit 30, phase := n % 65536 }

/-- A clamp's bytes; [29:16] is written as zero (R199). -/
def Clamp.bytes (c : Clamp) : List Byte :=
  leBytes 16 (c.abytes * 2 ^ 96 + c.ebytes * 2 ^ 64 + c.aslats * 2 ^ 48 + c.eslats * 2 ^ 32
    + (if c.ovr then 2 ^ 31 else 0) + (if c.err then 2 ^ 30 else 0) + c.phase)

/-- An addition that stays within a field: the sum or its maximum, and whether it saturated (R200). -/
def satAdd (a b top : Nat) : Nat × Bool := if a + b ≤ top then (a + b, false) else (top, true)

/-- The completion check after a clamp step (R200). -/
def Clamp.settle (c : Clamp) : Clamp :=
  if c.eslats ≤ c.aslats ∧ c.ebytes ≤ c.abytes ∧ (c.eslats ≠ 0 ∨ c.ebytes ≠ 0) then
    { c with ovr := c.ovr || decide (c.eslats < c.aslats) || decide (c.ebytes < c.abytes),
             phase := (c.phase + 1) % 65536, aslats := 0, abytes := 0, ebytes := 0 }
  else c

/-- One clamp step (R200, R203); a wait or test writes nothing. -/
def Clamp.step (c : Clamp) : ClampOp → Clamp
  | .init e n => { abytes := 0, ebytes := e, aslats := 0, eslats := n, ovr := false, err := false, phase := 0 }
  | .expect n => let (x, o) := satAdd c.ebytes n (2 ^ 32 - 1); ({ c with ebytes := x, ovr := c.ovr || o } : Clamp).settle
  | .arrive => let (x, o) := satAdd c.aslats 1 65535; ({ c with aslats := x, ovr := c.ovr || o } : Clamp).settle
  | .count n => let (x, o) := satAdd c.abytes n (2 ^ 32 - 1); ({ c with abytes := x, ovr := c.ovr || o } : Clamp).settle
  | .mark => ({ c with err := true } : Clamp).settle
  | .wait _ => c
  | .test _ _ => c

/-- A parked slat goes on: it holds no wait any more (R201, R205, R333). -/
def State.unpark (s : State) (uid : Nat) : State := s.modSlat uid (fun t => { t with park := .none, parkAt := 0, watch := none })

/-- A clmw returns: %bst, and the device-scope acquire (R203, R206). -/
def State.wakeClmw (s : State) (uid : Nat) (cerr cwoke : Bool) : State :=
  ((s.modSlat uid (fun t => { t with bst := s.newBst t (some (cerr, cwoke)) })).unpark uid).acqAll uid

/-- Every watch on a clamp examined after a step that left it so (R201, R203). -/
def State.wake (s : State) (loc : ClampLoc) (c : Clamp) : State :=
  s.slats.foldl (fun s t => match t.watch with
    | some w => if t.park = .clmw ∧ w.loc = loc ∧ (c.phase ≠ w.phase ∨ c.err) then s.wakeClmw t.uid c.err false else s
    | none => s) s

/-- The physical core and byte of a place in a team's scratchpad (R170, R171). -/
def State.spadByte (s : State) (team rank off : Nat) : Option (Nat × Nat) :=
  ((s.team? team).bind (fun m => m.rankCore rank)).map (fun c => (c.1, c.2.1 + off))

/-- Bytes of a core's scratchpad. -/
def State.spadRead (s : State) (core a n : Nat) : List Byte := Memory.readN (s.core core).spad a n

/-- Bytes written to a core's scratchpad. -/
def State.spadWrite (s : State) (core a : Nat) (bs : List Byte) : State :=
  s.modCore core (fun c => c.bankPut (at_ a bs))

/-- A clamp as it stands at its home or bank, never from an L1 (R203). -/
def State.clampAt (s : State) (loc : ClampLoc) : Clamp :=
  match loc with
  | .mem pa => Clamp.ofBytes (s.hubRead pa 16)
  | .spad team rank off => match s.spadByte team rank off with
    | some (c, a) => Clamp.ofBytes (s.spadRead c a 16)
    | none => Clamp.ofBytes []

/-- The virtual address of slot i of a queue's ring (R308). -/
def Queue.slotVa (q : Queue) (i : Nat) : W64 := q.base + BitVec.ofNat 64 (64 * (i % 2 ^ q.lsize))

/-- Whether a queue has room for an item (R333). -/
def Queue.room (q : Queue) : Bool := (q.wp + 2 ^ 32 - q.rp) % 2 ^ 32 < 2 ^ q.lsize

/-- The partition of a context. -/
def State.ctxPart (s : State) (ctx : Nat) : Nat := (s.context? ctx).elim 0 Context.part

/-- A slot read at system scope through its queue's context (R311). -/
def State.readSlot (s : State) (q : Queue) (i : Nat) : Except Fate (List Byte) :=
  s.hubReadVa q.ctx (s.ctxPart q.ctx) 1 (q.slotVa i) 64

/-- The place of a slot of a queue's ring. -/
def State.slotAt (s : State) (q : Queue) (i : Nat) (wr : Bool) : HubAt :=
  ⟨q.ctx, s.ctxPart q.ctx, 1, if wr then Need.store else Need.load, q.slotVa i, 64⟩

/-- Items handed to the slats parked on a queue, in the order they parked (R333), a slot that is not ready to be read being asked for; fuel is
the number of waiters. -/
def State.serveDeq (s : State) (n : Nat) : Nat → State
  | 0 => s
  | fuel + 1 =>
    let q := s.queue n
    match q.waiters with
    | [] => s
    | u :: rest =>
      if q.st ≠ 1 ∨ q.rp = q.wp then s
      else if (s.slat? u).elim false (fun t => t.parkAt != 0 && !(s.beyond t.core (t.parkAt - 1))) then s
      else if !(s.hubReady [s.slotAt q q.rp false]) then s.hubWant q.fn [s.slotAt q q.rp false]
      else match s.readSlot q q.rp, s.slat? u with
        | .ok bs, some t =>
          let t' := (List.range 8).foldl (fun (t : Slat) j => t.sput (t.parkDst + j) (dword bs j) false) t
          let s := ((s.hubOver s [s.slotAt q q.rp false]).setSlat t').modQueue n (fun q => { q with rp := (q.rp + 1) % 2 ^ 32, waiters := rest })
          (((s.unpark u).acqAll u).note u t.parkDst 3 ((List.range 8).map (fun j => (j, (dword bs j).toNat, 0#32))) none).serveDeq n fuel
        | .ok _, none => (s.modQueue n (fun q => { q with waiters := rest })).serveDeq n fuel
        | .error _, _ => s

/-- The slot that a queue's next item goes to is ready to be written (R18). -/
def State.tailReady (s : State) (n : Nat) : Bool := s.hubReady [s.slotAt (s.queue n) (s.queue n).wp true]

/-- That slot asked for. -/
def State.tailWant (s : State) (n : Nat) : State := s.hubWant (s.queue n).fn [s.slotAt (s.queue n) (s.queue n).wp true]

/-- An item written to a queue and its pointer moved, as one step (R333); none where the slot cannot be written, or not yet. -/
def State.enqueue (s : State) (n : Nat) (bs : List Byte) : Option State :=
  let q := s.queue n
  if !(s.tailReady n) then none
  else match s.hubWriteVa q.fn q.ctx (s.ctxPart q.ctx) (q.slotVa q.wp) bs with
    | .ok s1 =>
      let s := (s.hubOver s1 [s.slotAt q q.wp true]).modQueue n (fun q => { q with wp := (q.wp + 1) % 2 ^ 32 })
      some (s.serveDeq n (s.queue n).waiters.length)
    | .error _ => none

/-- An item written to a queue where that can be done; its slot asked for where it is not ready yet. -/
def State.enqueueOr (s : State) (n : Nat) (bs : List Byte) (f : State → State) : State :=
  match s.enqueue n bs with
  | some s => f s
  | none => if s.tailReady n then s else s.tailWant n

/-- The function's fault service queues: whether it has any, and the one that can take a record (R328). -/
def State.faultQueue (s : State) (f : Nat) : Bool × Option Nat :=
  let qs := s.hub.queues.filter (fun q => q.2.kind == 2 && q.2.fn == f)
  (!qs.isEmpty, ((qs.filter (fun q => q.2.st == 1)).head?).bind (fun q => if q.2.room then some q.1 else none))

/-- A 64-byte record's bytes. -/
def recordBytes (ds : List W64) : List Byte := (ds.map (fun d => leBytes 8 d.toNat)).flatten

/-- A record written to the fault service queue that can take it; none where it must be held (R328). -/
def State.tryPost (s : State) (f : Nat) (ds : List W64) : Option State :=
  match (s.faultQueue f).2 with
  | some q => s.enqueue q (recordBytes ds)
  | none => none

/-- A kill record (R327, R328); idx is the team's index in its grid. -/
def killRecord (t : Slat) (idx code : Nat) (tepc tinfo : W64) : List W64 :=
  [BitVec.ofNat 64 (4 * 2 ^ 60 + t.fn * 2 ^ 48 + t.ctx * 2 ^ 32), tepc, tinfo,
   BitVec.ofNat 64 (code * 2 ^ 32 + t.slot * 2 ^ 10 + t.core), 0, 0, BitVec.ofNat 64 idx, BitVec.ofNat 64 t.grid]

/-- A kill record posted, held where no queue can take it, dropped where the function has none (R328). -/
def State.postKill (s : State) (f : Nat) (ds : List W64) : State :=
  if (s.faultQueue f).1 then
    match s.tryPost f ds with
    | some s => s
    | none => s.modHub (fun h => { h with kills := h.kills ++ [(f, ds)] })
  else s

/-- A fault record (R328). -/
def faultRecord (t : Slat) (idx token kind access : Nat) (addr : W64) (size : Nat) (lanes : W32) (e : W64) (link : Nat) : List W64 :=
  [BitVec.ofNat 64 (3 * 2 ^ 60 + kind * 2 ^ 56 + access * 2 ^ 53 + t.fn * 2 ^ 48 + t.ctx * 2 ^ 32 + token % 2 ^ 32),
   addr, BitVec.ofNat 64 size, BitVec.ofNat 64 (t.slot * 2 ^ 10 + t.core), zext64 lanes,
   (if kind = 2 then BitVec.ofNat 64 (natField e.toNat 47 16 * 2 ^ 32 + natField e.toNat 61 54)
    else if kind = 3 then BitVec.ofNat 64 link else 0),
   BitVec.ofNat 64 idx, BitVec.ofNat 64 t.grid]

/-- A fault made known (R328): the token of the outstanding fault of that context, page and kind, or a new one with its
record written or held; none where it is referred back at once. new says that the fault was not outstanding. -/
def State.postFault (s : State) (t : Slat) (kind access page size : Nat) (addr : W64) (lanes : W32) (e : W64) (link : Nat) :
    Option (Nat × Bool) × State :=
  match s.hub.faults.find? (fun f => f.ctx == t.ctx && f.page == page && f.kind == kind) with
  | some f => (some (f.token, false), s)
  | none =>
    let has := (s.faultQueue t.fn).1
    if !has && kind < 2 then (none, s)
    else
      let (tok, s) := s.fresh
      let ds := faultRecord t ((s.team? t.team).elim 0 Team.idx) tok kind access addr size lanes e link
      let (s, held) := if !has then (s, none) else match s.tryPost t.fn ds with
        | some s => (s, none)
        | none => (s, some ds)
      (some (tok, true), s.modHub (fun h => { h with
        faults := h.faults ++ [⟨tok, t.fn, t.ctx, page, size, kind, link, held, e, (s.grid? t.grid).elim 0 Grid.prio⟩] }))

/-- Slats of a team of n slats on rank r of c cores (R319). -/
def rankSlats (n c r : Nat) : Nat := n / c + (if r < n % c then 1 else 0)

/-- The rank of slat i (R319). -/
def slatRank (n c i : Nat) : Nat :=
  let k := n / c
  let e := n % c
  if i < e * (k + 1) then i / (k + 1) else e + (i - e * (k + 1)) / k

/-- The least core count a record asks for (R319). -/
def LaunchRec.minCores (r : LaunchRec) : Nat := if r.cores = 0 then (r.slats + 63) / 64 else r.cores

/-- The number of teams (R312). -/
def LaunchRec.teams (r : LaunchRec) : Nat := r.gx * r.gy * r.gz

/-- Slots, kibibytes of scratchpad and tiles: of a core, or that a rank of a team needs (R319). -/
abbrev Seat := Nat × Nat × Nat

/-- A core with so much left has room for a rank's need. -/
def Seat.covers (have_ need : Seat) : Bool := decide (need.1 ≤ have_.1) && decide (need.2.1 ≤ have_.2.1) && decide (need.2.2 ≤ have_.2.2)

/-- What a rank leaves of a core. -/
def Seat.less (have_ need : Seat) : Seat := (have_.1 - need.1, have_.2.1 - need.2.1, have_.2.2 - need.2.2)

/-- What the ranks of a team of c cores need (R319). -/
def LaunchRec.needs (r : LaunchRec) (c : Nat) : List Seat := (List.range c).map (fun k => (rankSlats r.slats c k, (r.spad + 1023) / 1024, r.tiles))

/-- The core counts that a team may have (R319): the one asked for, or from the least on. -/
def LaunchRec.counts (r : LaunchRec) : List Nat :=
  if r.cores = 0 then (List.range 17).filter (fun c => decide (r.minCores ≤ c) && decide (0 < c) && decide (c ≤ r.slats)) else [r.cores]

/-- A run of adjacent cores of one row, from core f on, has room for some ranks (R319). -/
def seatsFit (left : List Seat) (f : Nat) (need : List Seat) : Bool :=
  let run := (left.drop f).take need.length
  decide (f % 16 + need.length ≤ 16) && decide (run.length = need.length) && (List.zipWith Seat.covers run need).all id

/-- What the ranks of a team placed from core f on leave. -/
def seatsLess (left : List Seat) (f : Nat) (need : List Seat) : List Seat :=
  left.take f ++ List.zipWith Seat.less ((left.drop f).take need.length) need ++ left.drop (f + need.length)

/-- n teams placed on consecutive cores of one die from core f on (R320), each of the least core count for which some run has room. -/
def LaunchRec.gangIn (r : LaunchRec) (die : Nat) : Nat → Nat → List Seat → Option (List Seat)
  | 0, _, left => some left
  | n + 1, f, left =>
    match r.counts.find? (fun c => (List.range Config.nCores).any (fun f => seatsFit left f (r.needs c))) with
    | none => none
    | some c => if f / Config.coresPerDie = die ∧ seatsFit left f (r.needs c) then r.gangIn die n (f + c) (seatsLess left f (r.needs c)) else none

/-- n gangs, or n teams of no gang, placed one after another from the lowest core on. -/
def LaunchRec.allIn (r : LaunchRec) : Nat → List Seat → Bool
  | 0, _ => true
  | n + 1, left => match (List.range Config.nCores).findSome? (fun f => r.gangIn (f / Config.coresPerDie) (max r.gang 1) f left) with
    | some left => r.allIn n left
    | none => false

/-- Whether some dies, every core free, could hold all teams at once (R314 code 6). (Log 41: DEDUCED.) -/
def LaunchRec.holdable (r : LaunchRec) (dies : List Nat) : Bool :=
  r.allIn (r.teams / max r.gang 1)
    ((List.range Config.nCores).map (fun k => if dies.contains (k / Config.coresPerDie) then (64, 256, 64) else (0, 0, 0)))

/-- A record's fields from its 64 bytes and its argument slot's (R312). -/
def LaunchRec.ofBytes (b a : List Byte) : LaunchRec :=
  let d := fun j => (dword b j).toNat
  let nargs := natField (d 0) 59 56
  { persist := (d 0).testBit 55, sup := (d 0).testBit 54, gang := natField (d 0) 53 50, irq := (d 0).testBit 49,
    deps := (if (d 0).testBit 47 then [(0, dword b 4, natField (d 0) 15 0)] else [])
      ++ (if (d 0).testBit 48 then [(1, dword b 5, natField (d 0) 31 16)] else []),
    entry := dword b 1, tiles := natField (d 2) 41 35, spad := natField (d 2) 34 16, cores := natField (d 2) 15 11,
    slats := natField (d 2) 10 0, gz := natField (d 3) 59 40, gy := natField (d 3) 39 20, gx := natField (d 3) 19 0,
    done := dword b 6,
    args := (List.range nargs).map (fun j => if j = 0 then dword b 7 else dword a j) }

/-- A named clamp that a record may not name (R314 code 8). -/
def State.badClamp (s : State) (ctx part level : Nat) (va : W64) : Bool :=
  va.toNat % 16 != 0 || (match s.hubCheck ctx part level ⟨false, true, false, some 8⟩ va with
    | .ok _ _ => false
    | _ => true)

/-- Where a launch comes from: a queue that does or does not accept sup, a slat's lnch, or a regeneration fault. -/
structure LaunchBy where
  ctx : Nat
  fn : Nat
  part : Nat
  supOk : Bool
  child : Bool
  deriving DecidableEq, Repr

/-- The error code of a record, other than code 9 (R314); b and a are its slots' bytes. A gang above R16's 12 teams takes code 3, since
R314 names none for it. (Log 73: DESIGN CHOICE.) -/
def State.recordError (s : State) (by_ : LaunchBy) (b a : List Byte) : Option Nat :=
  let r := LaunchRec.ofBytes b a
  let d := fun j => (dword b j).toNat
  let nargs := natField (d 0) 59 56
  let dep0 := (d 0).testBit 47
  let dep1 := (d 0).testBit 48
  let level := if r.sup then 1 else 0
  if (s.context? by_.ctx).isNone ∨ (s.fn by_.fn).busy then some 0xB
  else if natField (d 0) 63 60 ≠ 1 then some 1
  else if natField (d 0) 46 32 ≠ 0 ∨ natField (d 2) 63 42 ≠ 0 ∨ natField (d 3) 63 60 ≠ 0 ∨ (!dep0 && d 4 != 0) ∨ (!dep1 && d 5 != 0) then some 2
  else if r.slats = 0 ∨ r.slats < r.cores ∨ 16 < r.cores ∨ 64 * (if r.cores = 0 then 16 else r.cores) < r.slats ∨ 262144 < r.spad
      ∨ 64 < r.tiles ∨ 160 < r.gang * r.minCores ∨ 12 < r.gang then some 3
  else if r.gx = 0 ∨ r.gy = 0 ∨ r.gz = 0 ∨ 2 ^ 32 - 1 < r.teams ∨ (r.gang ≠ 0 ∧ r.teams % r.gang ≠ 0) then some 4
  else if r.entry.toNat % 8 ≠ 0 then some 5
  else if r.persist ∧ (by_.child ∨ !(r.holdable ((diesOf s.trust.layout by_.part).filter s.boot.dies.testBit))
      ∨ s.hub.grids.any (fun g => g.ctx == by_.ctx && g.launch.persist)) then some 6
  else if r.sup ∧ !by_.supOk then some 7
  else if (r.deps.any (fun x => s.badClamp by_.ctx by_.part level x.2.1)) ∨ (r.done ≠ 0 ∧ s.badClamp by_.ctx by_.part level r.done) then some 8
  else if 8 < nargs ∨ (1 < nargs ∧ dword a 0 ≠ 0x2000000000000000#64) then some 0xA
  else none

/-- The error code of a record of which a slot may be unreadable (R314): an ended context first, then the lowest code. -/
def State.slotsError (s : State) (by_ : LaunchBy) (b a : Option (List Byte)) : Option Nat :=
  match b with
  | none => if (s.context? by_.ctx).isNone ∨ (s.fn by_.fn).busy then some 0xB else some 8
  | some b => match a with
    | some a => s.recordError by_ b a
    | none => match s.recordError by_ b (leBytes 64 0x2000000000000000) with
      | some c => some (if c = 0xB then c else min c 8)
      | none => some 8

/-- The clamp of a dependence, as its home holds it (R316). -/
def State.depClamp (s : State) (ctx part level : Nat) (va : W64) : Option Clamp :=
  match s.hubCheck ctx part level ⟨false, true, false, some 8⟩ va with
  | .ok pa _ => some (s.clampAt (.mem pa))
  | _ => none

/-- The lines that the walks for the clamps of a record read (R316, R318). -/
def State.recWalks (s : State) (ctx part : Nat) (r : LaunchRec) : List Nat :=
  ((r.deps.map (fun d => d.2.1) ++ (if r.done = 0 then [] else [r.done])).map (fun va => s.hubWalks ctx part va 16)).flatten.eraseDups

/-- The lines of the clamps that a record depends on (R316). -/
def State.depLines (s : State) (ctx part level : Nat) (r : LaunchRec) : List Nat :=
  (r.deps.filterMap (fun d => match s.hubCheck ctx part level ⟨false, true, false, some 8⟩ d.2.1 with
    | .ok pa _ => some (lineOf pa)
    | _ => none)).eraseDups

/-- A record's clamps can be looked at: the lines of their walks, and those of its dependences, are ready to be read (R18, R316). -/
def State.recReady (s : State) (ctx part level : Nat) (r : LaunchRec) : Bool :=
  s.hubOk true (s.recWalks ctx part r) && s.hubOk true (s.depLines ctx part level r)

/-- What they wait for asked for, the walks first. -/
def State.recWant (s : State) (fn ctx part level : Nat) (r : LaunchRec) : State :=
  if s.hubOk true (s.recWalks ctx part r) then s.hubAsk true fn part (s.depLines ctx part level r) else s.hubAsk true fn part (s.recWalks ctx part r)

/-- A look at a record's clamps is over; they are as they stood before it. -/
def State.recOver (s0 s : State) (ctx part level : Nat) (r : LaunchRec) : State :=
  (s.hubFree true (s0.depLines ctx part level r)).hubFree true (s0.recWalks ctx part r)

/-- A dependence clamp found with err set (R314 code 9). -/
def State.depErr (s : State) (ctx part level : Nat) (r : LaunchRec) : Bool :=
  r.deps.any (fun d => (s.depClamp ctx part level d.2.1).elim false Clamp.err)

/-- The dependences of a record that are met now or were latched as met (R316). -/
def State.metDeps (s : State) (ctx part level : Nat) (r : LaunchRec) (met : List Nat) : List Nat :=
  (r.deps.filter (fun d => met.contains d.1 || (s.depClamp ctx part level d.2.1).elim false (fun c => c.phase != d.2.2))).map Prod.fst

/-- Every dependence of a record is met (R316). -/
def State.depsMet (s : State) (ctx part level : Nat) (r : LaunchRec) (met : List Nat) : Bool :=
  decide ((s.metDeps ctx part level r met).length = r.deps.length)

/-- The slots of the record at a launch queue's head and their number, a slot that cannot be read being none (R311, R312); nothing where no
whole record is published. Only a slot of kind 1 has an argument slot behind it. -/
def State.headSlots (s : State) (q : Queue) : Option (Option (List Byte) × Option (List Byte) × Nat) :=
  let n := (q.wp + 2 ^ 32 - q.rp) % 2 ^ 32
  let get := fun (i : Nat) => match s.readSlot q i with
    | .ok b => some b
    | .error _ => none
  if q.st ≠ 1 ∨ q.kind ≠ 0 ∨ n = 0 then none
  else match get q.rp with
    | none => some (none, some [], 1)
    | some b =>
      if natField (dword b 0).toNat 63 60 ≠ 1 ∨ natField (dword b 0).toNat 59 56 ≤ 1 then some (some b, some [], 1)
      else if n < 2 then none
      else some (some b, get (q.rp + 1), 2)

/-- A queue's launches (R314). -/
def State.queueBy (s : State) (q : Queue) : LaunchBy := ⟨q.ctx, q.fn, s.ctxPart q.ctx, q.sup, false⟩

/-- The dependences of the record at a queue's head latched (R316). -/
def State.latchHead (s : State) (q : Queue) : Queue :=
  match s.headSlots q with
  | some (some b, some a, _) =>
    if (s.slotsError (s.queueBy q) (some b) (some a)).isSome then q
    else
      let r := LaunchRec.ofBytes b a
      { q with met := s.metDeps q.ctx (s.ctxPart q.ctx) (if r.sup then 1 else 0) r q.met }
  | _ => q

/-- The dependences of the records at the queues' heads, and of the grids that await theirs, latched: the launcher re-reads a clamp at each
step applied to it (R316). (Log 80: DEDUCED.) -/
def State.latch (s : State) : State :=
  s.modHub (fun h => { h with
    queues := h.queues.map (fun q => (q.1, s.latchHead q.2))
    grids := h.grids.map (fun g => { g with met := s.metDeps g.ctx g.part g.level g.launch g.met }) })

/-- A clamp step as one step at its home or bank, watches woken (R200, R201), the dependences that were met before it latched (R316); uid
and seq name the entry it came with. -/
def State.clampDo (s : State) (loc : ClampLoc) (k : ClampOp) (fn uid seq : Nat) : State :=
  let s := s.latch
  let c := (s.clampAt loc).step k
  let s := match loc with
    | .mem pa => s.hubWriteAs fn uid seq (at_ pa c.bytes)
    | .spad team rank off => match s.spadByte team rank off with
      | some (core, a) => s.bankWrite core (at_ a c.bytes)
      | none => s
  s.wake loc c

/-- A grid entered into the active-grid table (R315, R334). -/
def State.enterGrid (s : State) (id : Nat) (by_ : LaunchBy) (r : LaunchRec) (queue : Option Nat) (parent : Option (Nat × Nat))
    (prio depth : Nat) (token : Option Nat) : State :=
  let g : Grid :=
    { id := id, queue := queue, fn := by_.fn, ctx := by_.ctx, part := by_.part, prio := prio,
      level := (if r.sup then 1 else 0), depth := depth, parent := parent, launch := r, nextTeam := 0, since := s.now,
      token := token, dead := false, met := [] }
  s.modHub (fun h => { h with grids := h.grids ++ [g] })

end Sys2Proof.Machine
end

