-- ==== Sys2Proof/Machine/Ops.lean ====
section
/-! DEFINITION. The operations every family shares: placing entries, holding at issue, raising and choosing causes, taking a
trap and returning from it, killing a slat, the team barrier (R53 to R57, R81, R164, R205, R207, R324 to R327, R332). -/

namespace Sys2Proof.Machine

/-- An entry to be placed: its paths, what it does, its lanes. -/
structure Draft where
  paths : List Path
  op : EOp
  lanes : List Lane
  deriving DecidableEq, Repr

/-- The line a lane's place lies in, for grouping (R81): kind, scratchpad of, line. -/
def Loc.line (x : Loc) : Nat × Nat × Nat :=
  match x with
  | .glob va _ => (0, 0, va.toNat / 128)
  | .spad team rank off => (1, team * 16 + rank, off / 128)
  | .badSel off => (2, 0, off / 128)

/-- Lanes grouped by line, each group in lane order (R81, R195). -/
def byLine (ls : List Lane) : List (List Lane) :=
  ((ls.map (fun l => l.loc.line)).eraseDups).map (fun k => ls.filter (fun l => l.loc.line == k))

/-- The word of the instruction being issued. -/
def Issue.word (u : Issue) : W64 := u.words.getD u.pos 0

/-- The number of instructions of the clause. -/
def Issue.len (u : Issue) : Nat := u.words.length

/-- The entries of drafts, numbered from seq on, as parts of one instruction. -/
def numberEnts (u : Issue) (ins : Nat) : Nat → List Draft → List QEnt
  | _, [] => []
  | seq, d :: t =>
    { seq := seq, ins := ins, paths := d.paths, op := d.op, lanes := d.lanes, word := u.word, cid := u.cid, pos := u.pos,
      len := u.len, ent := u.ent, mail := false, tok := none, regen := none } :: numberEnts u ins (seq + 1) t

/-- The instruction of a clause that enters n + 1 numbers: entries placed in issue order, the counter raised for those that are
parts of the instruction, the clause moved on (R54, R81). pre and post are markers around it. -/
def State.issueEnts (s : State) (t : Slat) (u : Issue) (ctr : Option Nat) (pre : List (List Path × Marker)) (ds : List Draft)
    (post : List (List Path × Marker)) : State :=
  let ins := s.next
  let a := s.next + 1
  let b := a + pre.length
  let c := b + ds.length
  let mk := fun (n : Nat) (ms : List (List Path × Marker)) => (ms.zipIdx).map (fun m => markerEnt (n + m.2) m.1.1 m.1.2)
  let t1 := { t with queue := t.queue ++ mk a pre ++ numberEnts u ins b ds ++ mk c post }
  { s.advance (t1.openInst ins ctr ds.length) u with next := c + post.length }

/-- An instruction held at issue: nothing of it happens, the clause waits at it (R54, R165, R264). -/
def State.hold (s : State) (t : Slat) (u : Issue) : State :=
  { s.setSlat { t with issue := some { u with held := true } } with focus := none }

/-- A counter reads 63 (R54). -/
def Slat.ctrFull (t : Slat) (ctr : Option Nat) : Bool :=
  match ctr with
  | some k => decide (Config.ctrMax ≤ t.dget k)
  | none => false

/-- All eight entries of the operand log are occupied (R165). (Log 21: DEDUCED.) -/
def Slat.logFull (t : Slat) : Bool := decide (Config.logSize ≤ t.log.length)

/-- What %tinfo holds for a cause (R164). -/
def Cause.tinfo (c : Cause) : W64 :=
  c.raw.getD (c.lanes ++ BitVec.ofNat 32 (c.back * 4096 + c.reason * 256 + c.word))

/-- A cause among which R164 chooses within a clause: ALIGN, PROT, BOUNDS in the layout of R164. -/
def Cause.ofClause (c : Cause) : Bool := c.raw.isNone && (c.code == 4 || c.code == 6 || c.code == 7)

/-- A synchronous lane fault (R164); what refuses an instruction of the engine names no lane and no word (R275, R281, R289). -/
def Cause.isLane (c : Cause) : Bool := c.ofClause && c.word != 0

/-- The order in which R164 reports the causes of one clause: position, cause, reason. -/
def Cause.before (a b : Cause) : Bool :=
  if a.place ≠ b.place then decide (a.place < b.place)
  else if a.code ≠ b.code then decide (a.code < b.code)
  else decide (a.reason < b.reason)

/-- Causes that are reported together: lanes of one instruction with one cause and reason (R164, R398). -/
def Cause.joins (c d : Cause) : Bool :=
  c.raw.isNone && d.raw.isNone && c.cid == d.cid && c.word == d.word && c.place == d.place && c.code == d.code && c.reason == d.reason && c.at_ == d.at_

/-- A slat with a cause pending (R56); it is nested when a handler runs (R325). Of a clause one lane fault is reported: those that come to
light after its trap are not (R164). -/
def Slat.raise (t : Slat) (c : Cause) : Slat :=
  if c.isLane && t.told.contains c.cid then t
  else if t.pend.any (fun d => d.joins c) then
    { t with pend := t.pend.map (fun d => if d.joins c then { d with lanes := d.lanes ||| c.lanes } else d) }
  else { t with pend := t.pend ++ [{ c with nested := t.inh }] }

/-- A cause raised by the instruction being issued, in the layout of R164. -/
def Issue.cause (u : Issue) (code reason : Nat) (lanes : W32) : Cause :=
  { code := code, cid := u.cid, word := u.pos + 1, back := u.len + 1, reason := reason, lanes := lanes, raw := none, at_ := none,
    ent := u.ent, nested := false, place := u.pos }

/-- A record store of a fin (R398: its faults name no word and no lane). -/
def EOp.isFin : EOp → Bool
  | .record fin => fin
  | _ => false

/-- A cause raised by an entry on its way, in the layout of R164. -/
def QEnt.cause (e : QEnt) (code reason : Nat) (lanes : W32) : Cause :=
  { code := code, cid := e.cid, word := if e.op.isFin then 0 else e.pos + 1, back := e.len + 1, reason := reason,
    lanes := if e.op.isFin then 0 else lanes, raw := none, at_ := none, ent := e.ent, nested := false, place := e.pos }

/-- The refusal of a sys instruction at run time: BOUNDS, reason 0xF, with a sub-reason (R332). (Log 17: DEDUCED.) -/
def boundsF (cid ent sub : Nat) : Cause :=
  { code := 7, cid := cid, word := 0, back := 0, reason := 0xF, lanes := 0, raw := some (BitVec.ofNat 64 (sub * 2 ^ 32 + 0xF00)),
    at_ := none, ent := ent, nested := false }

/-- The cause taken first and what stays pending (R164, R326): within a clause the first that R164 chooses, the other lane faults of that
clause dropped; across clauses and sources the lowest code. -/
def pickCause (l : List Cause) : Option (Cause × List Cause) :=
  let heads := l.filter (fun c => !c.ofClause || !(l.any (fun d => d.ofClause && d.cid == c.cid && d.before c)))
  match heads with
  | [] => none
  | h :: t =>
    let c := t.foldl (fun a b => if b.code < a.code then b else a) h
    some (c, (l.erase c).filter (fun d => !(c.isLane && d.isLane && d.cid == c.cid)))

/-- Whether a slat stands at its team's barrier, its release complete (R205). -/
def Slat.atBarrier (t : Slat) : Bool := t.park == .tbar && !(t.queue.any (fun e => BitVec.ofNat 64 e.seq == t.parkArg))

/-- An acquire that a completed barrier lets a slat go on after (R96, R205): the slat stays parked, on that acquire now. -/
def State.passBarrier (s : State) (t : Slat) : State :=
  (s.modSlat t.uid (fun t => { t with parkArg := BitVec.ofNat 64 s.next, bars := t.bars + 1 })).mark t.uid [.ls, .ac, .cp] (acqMark (s.scopeHome t 1))

/-- A team's barrier examined (R205): when every slat that has not ended has arrived, the phase is complete and all go on after their acquire; one
that has been rolled back since it arrived does as it comes to the barrier again (R387). -/
def State.barrier (s : State) (team : Nat) : State :=
  match s.team? team with
  | none => s
  | some m =>
    let live := (s.teamSlats team).filter (fun t => !t.ended)
    if m.arrived.isEmpty ∨ !(live.all (fun t => m.arrived.contains t.idx)) then s
    else
      let s := s.setTeam { m with arrived := [], bars := m.bars + 1 }
      live.foldl (fun (s : State) t => if t.atBarrier then s.passBarrier t else s) s

/-- A slat arrives at its team's barrier (R205); at a phase that is complete, as it had arrived before a rollback, it goes on (R387). -/
def State.arriveBarrier (s : State) (t : Slat) : State :=
  match s.team? t.team with
  | some m =>
    if t.bars < m.bars then s.passBarrier t
    else (s.setTeam { m with arrived := if m.arrived.contains t.idx then m.arrived else m.arrived ++ [t.idx] }).barrier m.uid
  | none => s

/-- A wait for a clamp. -/
def EOp.waits : EOp → Bool
  | .clamp (.wait _) _ _ => true
  | _ => false

/-- A slat parked on a clmw returns with cwoke (R207); a read of the clamp that is still on its way is given up. -/
def State.wokeClmw (s : State) (uid : Nat) : State :=
  match s.slat? uid with
  | none => s
  | some t =>
    let es := t.queue.filter (fun e => e.op.waits)
    let s := s.modHome (fun h => { h with reqs := h.reqs.filter (fun r => !(r.uid == uid && es.any (fun e => e.seq == r.seq))) })
    (s.setSlat (es.foldl Slat.finish t)).wakeClmw uid false true

/-- A team abandoned by the death of a slat (R207): the first death is remembered, clmw waiters return with cwoke. -/
def State.abandon (s : State) (t : Slat) (code : Nat) : State :=
  match s.team? t.team with
  | none => s
  | some m =>
    let m := if m.aband then m else { m with aband := true, kslat := t.idx, kcause := code }
    let m := if code = 0xF ∧ m.killedAt.isNone then { m with killedAt := some s.now } else m
    let s := s.setTeam { m with arrived := m.arrived.filter (fun i => i != t.idx) }
    let s := (s.teamSlats m.uid).foldl (fun (s : State) x => if x.park = .clmw then s.wokeClmw x.uid else s) s
    s.barrier m.uid

/-- The requests of a slat that never reached a home or that only read are discarded (R88), and those that wait in the hold window for an
owned line (R190). -/
def discards (uid : Nat) (r : Req) : Bool :=
  r.uid == uid && (match r.msg with
    | .read _ _ _ => true
    | .prefetch => true
    | .stat _ => true
    | .own _ _ _ _ _ => r.st == .fresh
    | _ => false)

/-- What a killed slat's request for a line in the owned state is, which its home has begun: its atomics are discarded (R88, R190). -/
def Req.bare (uid : Nat) (r : Req) : Req :=
  match r.msg with
  | .own n w sgn ffmt _ => if r.uid = uid then { r with msg := .own n w sgn ffmt [] } else r
  | _ => r

/-- A slat ended: it holds no lane, wait, entry or count any more (R54, R88, R207). -/
def Slat.dead (t : Slat) : Slat :=
  { t with ended := true, queue := [], insts := [], d := [], pend := [], park := .none, watch := none, issue := none, split := [],
           recs := [], log := [], hand := none, accd := [], told := [] }

/-- A job that goes on when its slat dies: an image whose count has been taken is completed (R346). -/
def JobKind.outlives (k : JobKind) : Bool :=
  match k with
  | .wrote _ _ _ _ => true
  | .place _ _ _ _ => true
  | _ => false

/-- Teams whose save is abandoned go on. -/
def State.resume (s : State) (teams : List Nat) : State :=
  { s with teams := s.teams.map (fun m => if teams.contains m.uid then { m with saved := false } else m) }

/-- The jobs of a dead slat given up. -/
def State.dropJobs (s : State) (uid : Nat) : State :=
  let s := s.hub.jobs.foldl (fun (s : State) j => match j.kind with
    | .save _ _ _ _ teams => if j.uid = uid then s.resume teams else s
    | _ => s) s
  s.modHub (fun h => { h with jobs := h.jobs.filter (fun j => j.uid != uid || j.kind.outlives) })

/-- A slat killed (R88, R207, R327). rec says whether a kill record is written (not when its context ends, R361). -/
def State.kill (s : State) (uid code : Nat) (tepc tinfo : W64) (rec_ : Bool) : State :=
  match s.slat? uid with
  | none => s
  | some t =>
    if t.ended then s
    else
      let s := s.setSlat t.dead
      let s := s.modCore t.core (fun c => { c with hw := c.hw.filter (fun e => e.req.uid != uid) })
      let s := s.modHome (fun h => { h with
        reqs := (h.reqs.filter (fun r => !(discards uid r))).map (Req.bare uid)
        copies := h.copies.filter (fun c => c.uid != uid || c.out || h.starts.any (fun r => r.msg == .copy c.id)) })
      let s := (s.dropJobs uid).modHub (fun h => { h with
        queues := h.queues.map (fun q => (q.1, { q.2 with waiters := q.2.waiters.filter (fun w => w != uid) })) })
      let s : State := { s with focus := if s.focus = some uid then none else s.focus,
                                fab := { s.fab with xfers := s.fab.xfers.filter (fun x =>
                                  !(x.uid == uid && x.st == 0) || s.home.starts.any (fun r => r.msg == .xfer x.id)) } }
      let s := s.modContext t.ctx (fun c => { c with error := some (c.error.getD code) })
      let s := s.abandon t code
      if rec_ then s.postKill t.fn (killRecord t ((s.team? t.team).elim 0 Team.idx) code tepc tinfo) else s

/-- The misaligned lanes of a clause whose trap is taken, which have kept their place until now (R88, R164), given up; the entries that
are over with them. all says those of every clause. -/
def Slat.giveUpFaulted (t : Slat) (cid : Nat) (all : Bool) : Slat :=
  if !(t.queue.any (fun e => e.lanes.any (fun x => x.st == .faulted))) then t
  else t.queue.foldl (fun (t : Slat) e =>
    if (all || e.cid == cid) && e.lanes.any (fun x => x.st == .faulted) then
      let e : QEnt := { e with lanes := e.lanes.filter (fun x => x.st != .faulted) }
      if e.lanes.isEmpty then t.abandonEnt e else t.setQent e
    else t) t

/-- TAKING AN EXCEPTION (R325): the fragment e of a slat takes a cause at a clause boundary. %tcause, inh, %tepc and %tinfo
are written and the fragment continues at %tvec, the others held; without a handler, in a handler, and for POISON the slat is
killed (R324, R327). -/
def State.takeTrap (s : State) (t : Slat) (e : Nat) (c : Cause) : State :=
  let h := c.at_.getD (t.ent e).pc
  if t.tvec = 0 ∨ c.nested ∨ c.code = 0xA then s.kill t.uid c.code h c.tinfo true
  else
    let t := t.giveUpFaulted c.cid false
    s.setSlat { (t.setEnt e { t.ent e with pc := t.tvec }) with
      tcause := c.code, inh := true, tepc := h, tinfo := c.tinfo, hand := some e }

/-- RETURNING FROM ONE (R335): inh falls, the held fragments are released, the issuing fragment continues at %tepc; the count
of every link stall still logged starts again (R188). -/
def Slat.returnTrap (t : Slat) (e now : Nat) : Slat :=
  { (t.setEnt e { t.ent e with pc := t.tepc }) with
    inh := false, hand := none, log := t.log.map (fun l => if l.kind = 3 then { l with since := now, told := false } else l) }

/-- An ALU clause stopped part-way (R55): the slat is as it was before the clause, and the cause is pending with %tepc at the
header. -/
def State.abortAlu (s : State) (t : Slat) (u : Issue) (c : Cause) : State :=
  let t0 := s.snap.getD t
  { s.setSlat ({ t0 with issue := none }.raise { c with at_ := some u.h }) with focus := none, snap := none }

/-- POISON consumed by an instruction of a clause (R175, R324, R398). An ALU clause is stopped, no write of it kept, and the slat is
killed (R55); in another class the instruction does nothing, the later ones issue, and the slat is killed at the clause boundary that
follows (R56). (Log 18: DEDUCED.) -/
def State.poisoned (s : State) (t : Slat) (u : Issue) (lanes : W32) : State :=
  let c := u.cause 0xA 1 lanes
  match u.cls with
  | .alu => (s.setSlat { (s.snap.getD t) with issue := none }).kill t.uid 0xA u.h c.tinfo true
  | _ => s.advance (t.raise c) u

/-- A scalar operand: value and poison (R107, R175). (Log 19: DEDUCED.) -/
def Slat.srcS (t : Slat) (x : Src) : W64 × Bool :=
  match x with
  | .s n => (t.sget n.toNat, Sys2Proof.sget false t.sp n.toNat)
  | .k n => (match n.toNat with
      | 0 => 0#64
      | 1 => 1#64
      | 2 => -1#64
      | 3 => 0x3F800000#64
      | 4 => 0x3F000000#64
      | 5 => 0x40000000#64
      | 7 => BitVec.ofNat 64 t.idx
      | _ => 0#64, false)
  | _ => (0#64, false)

/-- Lanes removed from the slat's masks, pending sets and records (R115). -/
def dropLanes (t : Slat) (x : W32) : Slat :=
  { t with split := t.split.map (fun e => (e.1, { e.2 with mask := e.2.mask &&& ~~~x, pend := e.2.pend &&& ~~~x })),
           recs := t.recs.map (fun r => { r with mask := r.mask &&& ~~~x, fmask := r.fmask &&& ~~~x }) }

/-- The youngest deferral record of an entry, and the others (R114). -/
def lastRec (rs : List DefRec) (e : Nat) : Option (DefRec × List DefRec) :=
  match (rs.reverse).find? (fun r => r.owner == e) with
  | none => none
  | some r => some (r, ((rs.reverse).erase r).reverse)

/-- Arrival of a running entry at its reconvergence address (R114): what runs on, if anything does. An entry with no lane
left acts as though it had arrived (R115). fuel bounds the chain of joins. -/
def Slat.arrive (t : Slat) (e : Nat) : Nat → Slat
  | 0 => t
  | fuel + 1 =>
    let x := t.ent e
    if x.st ≠ .running ∨ x.cont.isSome ∨ (some x.pc ≠ x.rcv ∧ x.mask ≠ 0) then t
    else match x.join with
      | .deferred => match lastRec t.recs e with
        | none => t
        | some (r, rest) =>
          if r.phase = 1 then
            ({ t with recs := rest ++ [{ r with phase := 2 }] }.setEnt e { x with mask := r.fmask, pc := r.fpc }).arrive e fuel
          else
            ({ t with recs := rest }.setEnt e { x with mask := r.mask, rcv := r.rcv, join := r.join, pc := x.rcv.getD x.pc }).arrive e fuel
      | .entry j =>
        let y := t.ent j
        let p := y.pend &&& ~~~x.mask
        let t := (t.setEnt e SplitEntry.free).setEnt j { y with pend := p }
        if p ≠ 0 then t
        else if y.mask = 0 ∧ y.join = .none then t.setEnt j SplitEntry.free
        else (t.setEnt j { y with pend := 0, st := .running }).arrive j fuel
      | .none => if x.mask = 0 then t.setEnt e SplitEntry.free else t

/-- Every entry that has lost its last lane moves on (R115). -/
def Slat.settleSplit (t : Slat) : Slat :=
  let t := (List.range 8).foldl (fun (t : Slat) e => if (t.ent e).st = .running ∧ (t.ent e).mask = 0 then t.arrive e 64 else t) t
  (List.range 8).foldl (fun (t : Slat) j =>
    let y := t.ent j
    if y.st = .waiting ∧ y.pend = 0 then (t.setEnt j { y with st := .running }).arrive j 64 else t) t

/-- The slat ends when no entry holds a lane; it leaves the barrier count (R115, R205). -/
def State.endIfEmpty (s : State) (uid : Nat) : State :=
  match s.slat? uid with
  | none => s
  | some t =>
    if t.ended ∨ t.split.any (fun e => e.2.st != .free && e.2.mask != 0) then s
    else
      let s := s.setSlat { (t.giveUpFaulted 0 true) with ended := true, issue := none, pend := [], split := [], recs := [] }
      let s : State := { s with focus := if s.focus = some uid then none else s.focus }
      match s.team? t.team with
      | some m => (s.setTeam { m with arrived := m.arrived.filter (fun i => i != t.idx) }).barrier m.uid
      | none => s

end Sys2Proof.Machine
end

