-- ==== Sys2Proof/Machine/Operands.lean ====
section
/-! DEFINITION. Operand forms of the ALU classes and the shapes of their instructions: sources, poison, results, latches
(R43, R47, R51, R55, R102, R107, R120, R121, R175). -/

namespace Sys2Proof.Machine

/-- A constant of the bank in a lane, as 32 bits (R47, R120). -/
def const32 (t : Slat) (n l : Nat) : W32 :=
  match n with
  | 0 => 0#32
  | 1 => 1#32
  | 2 => 0xFFFFFFFF#32
  | 3 => 0x3F800000#32
  | 4 => 0x3F000000#32
  | 5 => 0x40000000#32
  | 6 => BitVec.ofNat 32 l
  | 7 => BitVec.ofNat 32 t.idx
  | _ => 0#32

/-- A constant of the bank as 64 bits: integers sign-extended, the others zero-extended (R107, R120). -/
def const64 (t : Slat) (n l : Nat) : W64 := if n = 2 then -1#64 else zext64 (const32 t n l)

/-- A 32-bit operand in a lane (R120). -/
def Slat.src32 (t : Slat) (u : Issue) (x : Src) (l : Nat) : W32 :=
  match x with
  | .v n => t.vget n.toNat l
  | .s n => (t.sget n.toNat).truncate 32
  | .y n => Sys2Proof.sget 0#32 u.lat (32 * n.toNat + l)
  | .k n => const32 t n.toNat l

/-- A 64-bit operand in a lane (R63, R120). -/
def Slat.src64 (t : Slat) (x : Src) (l : Nat) : W64 :=
  match x with
  | .v n => t.vget (n.toNat + 1) l ++ t.vget n.toNat l
  | .s n => t.sget n.toNat
  | .y _ => 0#64
  | .k n => const64 t n.toNat l

/-- A lane that is still the slat's: it has neither exited nor failed to start (R112, R115). -/
def Slat.has (t : Slat) (l : Nat) : Bool :=
  t.split.any (fun e => e.2.st != .free && e.2.mask.getLsbD l) || t.recs.any (fun r => r.mask.getLsbD l)

/-- The poison mark of a lane of a vector register (R175). -/
def Slat.vmark (t : Slat) (n l : Nat) : Bool := Sys2Proof.sget false t.vp (32 * n + l)

/-- Whether an operand of n registers is marked in a lane (R175). -/
def Slat.marked (t : Slat) (x : Src) (n l : Nat) : Bool :=
  match x with
  | .v r => (List.range n).any (fun k => t.vmark (r.toNat + k) l)
  | .s r => Sys2Proof.sget false t.sp r.toNat
  | _ => false

/-- The registers an operand takes: a pair when it is wide. -/
def regs (wide : Bool) : Nat := if wide then 2 else 1

/-- Results of the current instruction put into a vector register and its latch: nw leaves the register out (R51, R121). An
outlier result that the register held is no longer the list's to settle (R141). -/
def putRes (t : Slat) (u : Issue) (nw : Bool) (dst : Nat) (rs : List (Nat × W32)) : Slat × Issue :=
  (if nw then t else rs.foldl (fun t r => t.vput dst r.1 r.2 false) t,
   { u with
     lat := rs.foldl (fun m r => Sys2Proof.sput m (32 * (u.pos % 4) + r.1) r.2) u.lat
     outs := u.outs.map (fun o => if !nw && o.dst == some dst && rs.any (fun r => r.1 == o.lane) then { o with dst := none } else o) })

/-- Results put into a pair of vector registers; no latch (R121). -/
def putRes64 (t : Slat) (u : Issue) (dst : Nat) (rs : List (Nat × W64)) : Slat × Issue :=
  (rs.foldl (fun t r => (t.vput dst r.1 (r.2.extractLsb' 0 32) false).vput (dst + 1) r.1 (r.2.extractLsb' 32 32) false) t,
   { u with
     outs := u.outs.map (fun o => if (o.dst == some dst || o.dst == some (dst + 1)) && rs.any (fun r => r.1 == o.lane) then { o with dst := none } else o) })

/-- The shape of a vector instruction: no active lane consumes a marked word, then an effect on the slat and clause. -/
def vecChk (s : State) (h : Hdr) (marked : Slat → Issue → Nat → Bool) (k : Slat → Issue → List Nat → Slat × Issue) : Out :=
  onFrag s fun t u =>
    let ls := t.active u h
    let bad := ls.filter (marked t u)
    if bad.isEmpty then s.advance (k t u ls).1 (k t u ls).2 else s.poisoned t u (laneMask bad)

/-- The shape of an instruction whose lanes read their own operands; srcs lists each source with the registers it takes. -/
def vecDo (s : State) (h : Hdr) (srcs : List (Src × Nat)) (k : Slat → Issue → List Nat → Slat × Issue) : Out :=
  vecChk s h (fun t _ l => srcs.any (fun x => t.marked x.1 x.2 l)) k

/-- A vector instruction with a 32-bit result. -/
def vec32 (s : State) (h : Hdr) (nw : Bool) (dst : BitVec 6) (srcs : List (Src × Nat)) (f : Slat → Issue → Nat → W32) : Out :=
  vecDo s h srcs (fun t u ls => putRes t u nw dst.toNat (ls.map (fun l => (l, f t u l))))

/-- A vector instruction with a 64-bit result. -/
def vec64 (s : State) (h : Hdr) (dst : BitVec 6) (srcs : List (Src × Nat)) (f : Slat → Issue → Nat → W64) : Out :=
  vecDo s h srcs (fun t u ls => putRes64 t u dst.toNat (ls.map (fun l => (l, f t u l))))

/-- A vector instruction that writes a predicate (R49). -/
def vecPred (s : State) (h : Hdr) (dst : BitVec 6) (srcs : List (Src × Nat)) (f : Slat → Issue → Nat → Bool) : Out :=
  vecDo s h srcs (fun t u ls => (t.pput (dst.toNat % 8) (laneMask ls) (laneMask (ls.filter (f t u))), u))

/-- The first n sources of an instruction, each of w registers; the fields it does not use are not read (R121). -/
def ROp.srcs (o : ROp) (n w : Nat) : List (Src × Nat) := ([o.a, o.b, o.c].take n).map (fun x => (x, w))

/-- A 32-bit instruction of n sources. -/
def vecN (s : State) (o : ROp) (n : Nat) (f : W32 → W32 → W32 → W32) : Out :=
  vec32 s o.h o.nw o.dst (ROp.srcs o n 1) (fun t u l => f (t.src32 u o.a l) (t.src32 u o.b l) (t.src32 u o.c l))

/-- A 64-bit instruction of n sources. -/
def vecNw (s : State) (o : ROp) (n : Nat) (f : W64 → W64 → W64 → W64) : Out :=
  vec64 s o.h o.dst (ROp.srcs o n 2) (fun t _ l => f (t.src64 o.a l) (t.src64 o.b l) (t.src64 o.c l))

/-- The immediate of a vector I form (R50). -/
def imm32 (o : IOp) : W32 := sext32 o.imm

/-- The immediate of a scalar I form (R50). -/
def imm64 (o : IOp) : W64 := sext64 o.imm

/-- An I form of 32 bits (R50). -/
def vecI (s : State) (o : IOp) (f : W32 → W32 → W32) : Out :=
  vec32 s o.h o.nw o.dst [(o.a, 1)] (fun t u l => f (t.src32 u o.a l) (imm32 o))

/-- The shape of a scalar instruction: q guards, poison, then an effect (R43, R107). -/
def scaDo (s : State) (h : Hdr) (srcs : List Src) (k : Slat → Issue → State) : Out :=
  onFrag s fun t u =>
    if !t.qHolds h then s.advance t u
    else if srcs.any (fun x => (t.srcS x).2) then s.poisoned t u 0#32
    else k t u

/-- The shape of a scalar instruction that names a counter: q guards, held at issue while the counter is full (R54), poison, then an
effect. -/
def scaCtr (s : State) (h : Hdr) (ctr : Option Nat) (srcs : List Src) (k : Slat → Issue → State) : Out :=
  onFrag s fun t u =>
    if !t.qHolds h then s.advance t u
    else if t.ctrFull ctr then s.hold t u
    else if srcs.any (fun x => (t.srcS x).2) then s.poisoned t u 0#32
    else k t u

/-- A scalar instruction of two sources with a register result (R108). -/
def sca2 (s : State) (o : ROp) (f : W64 → W64 → W64) : Out :=
  scaDo s o.h [o.a, o.b] (fun t u => s.advance (t.sput o.dst.toNat (f (t.srcS o.a).1 (t.srcS o.b).1) false) u)

/-- A scalar I form with a register result (R108). -/
def scaI (s : State) (o : IOp) (f : W64 → W64 → W64) : Out :=
  scaDo s o.h [o.a] (fun t u => s.advance (t.sput o.dst.toNat (f (t.srcS o.a).1 (imm64 o)) false) u)

end Sys2Proof.Machine
end

