-- ==== Sys2Proof/Machine/Flags.lean ====
section
/-! DEFINITION. What the compares write: conditions, their operands, predicates (R49, R110, R131, R136). The device has no
other flags (R68). -/

namespace Sys2Proof.Machine

/-- A condition of R49 on the outcome of a comparison. -/
def condHolds (c : Nat) (o : Ordering) : Bool :=
  match c with
  | 0 => o == .eq
  | 1 => o != .eq
  | 2 => o == .lt
  | 3 => o != .gt
  | 4 => o == .gt
  | _ => o != .lt

/-- The condition field of a compare (R49). -/
def condOf (dst : BitVec 6) : Nat := dst.toNat / 8

/-- An integer comparison, signed or unsigned (R110, R131). -/
def icomp {n : Nat} (sgn : Bool) (a b : BitVec n) : Ordering := if sgn then compare a.toInt b.toInt else compare a.toNat b.toNat

/-- scmp: one scalar predicate (R110). -/
def scmp (s : State) (h : Hdr) (dst : BitVec 6) (srcs : List Src) (sgn : Bool) (a b : Slat → W64) : Out :=
  scaDo s h srcs (fun t u => s.advance (t.qput (dst.toNat % 8) (condHolds (condOf dst) (icomp sgn (a t) (b t)))) u)

/-- icmp at 32 bits or 64: one lane predicate (R131). -/
def icmp (s : State) (o : ROp) (sgn : Bool) : Out :=
  if wd o then
    vecPred s o.h o.dst [(o.a, 2), (o.b, 2)] (fun t _ l => condHolds (condOf o.dst) (icomp sgn (t.src64 o.a l) (t.src64 o.b l)))
  else
    vecPred s o.h o.dst [(o.a, 1), (o.b, 1)] (fun t u l => condHolds (condOf o.dst) (icomp sgn (t.src32 u o.a l) (t.src32 u o.b l)))

/-- icmp, I form (R131). -/
def icmpImm (s : State) (o : IOp) (sgn : Bool) : Out :=
  vecPred s o.h o.dst [(o.a, 1)] (fun t u l => condHolds (condOf o.dst) (icomp sgn (t.src32 u o.a l) (imm32 o)))

/-- fcmp of two FP32 values: a NaN makes every condition uo (R136). -/
def fcond (c : Nat) (uo : Bool) (a b : FVal) : Bool :=
  match fcompare a b with
  | none => uo
  | some o => condHolds c o

end Sys2Proof.Machine
end

