-- ==== Sys2Proof/Machine/Outlier.lean ====
section
/-! DEFINITION. Outlier lists (R73, R74, R141). -/

namespace Sys2Proof.Machine

/-- A descriptor as an append finds it: unusable with the cause and reason of R73 and R398, or in a core's scratchpad. -/
inductive Desc where
  | bad (code reason : Nat)
  | ok (core a : Nat)
  deriving DecidableEq, Repr

/-- The rank of a slat's core in its team. -/
def State.rank (s : State) (t : Slat) : Nat := (s.team? t.team).elim 0 (fun m => m.rankOf t.core)

/-- The descriptor at an offset of a slat's own share (R73). -/
def State.desc (s : State) (t : Slat) (off : Nat) : Desc :=
  if off % 16 ≠ 0 then .bad 4 2
  else if (s.team? t.team).elim 0 Team.spad < off + 16 then .bad 7 1
  else match s.spadByte t.team (s.rank t) off with
    | none => .bad 7 1
    | some (c, a) => if leNat (s.spadRead c a 8) % 8 ≠ 0 then .bad 4 3 else .ok c a

/-- Whether a descriptor has room (R74). -/
def State.descRoom (s : State) (core a : Nat) : Bool :=
  let n := leNat (s.spadRead core a 16)
  decide (natField n 127 96 < natField n 87 64)

/-- One append: the record's address where there is room, or whether OUTLIER_FULL is raised (R74). -/
def State.appendOne (s : State) (core a : Nat) : Option W64 × Bool × State :=
  let n := leNat (s.spadRead core a 16)
  let count := natField n 127 96
  if count < natField n 87 64 then
    (some (BitVec.ofNat 64 (n + 8 * count)), false, s.spadWrite core (a + 12) (leBytes 4 (count + 1)))
  else (none, n.testBit 94, s.spadWrite core (a + 11) (leBytes 1 (natField n 95 88 % 128 + 128)))

/-- 448 with a sign, the result of an outlier that finds no room (R74). -/
def e4Max (neg : Bool) : Nat := if neg then 0xFE else 0x7E

/-- A record's eight bytes (R73). -/
def outBytes (idx val : W32) : Nat := val.toNat * 2 ^ 32 + idx.toNat

/-- One overflowing lane of an fcvt settled at the end of its clause: its result, its record, its fault (R141). The marks of a
descriptor's scratchpad words are not consumed. (Log 71: DESIGN CHOICE.) -/
def settleOut (u : Issue) (x : State × Slat × List (Nat × Lane)) (o : OutRec) : State × Slat × List (Nat × Lane) :=
  let (s, t, recs) := x
  let put := fun (t : Slat) (v : Nat) => match o.dst with
    | some d => t.vput d o.lane (BitVec.ofNat 32 v) false
    | none => t
  let neg := o.val.getLsbD 31
  let at0 := { u with pos := o.pos }
  match s.desc t o.desc with
  | .bad code reason => (s, (put t (e4Max neg)).raise (at0.cause code reason (1#32 <<< o.lane)), recs)
  | .ok core a => match s.appendOne core a with
    | (some va, _, s) => (s, put t 0, recs ++ [(o.pos, ⟨o.lane, .glob va none, some (outBytes o.idx o.val), .queued⟩)])
    | (none, full, s) =>
      (s, (if full then (put t (e4Max neg)).raise (at0.cause 0xC 1 (1#32 <<< o.lane)) else put t (e4Max neg)), recs)

/-- The entries of the record stores of a clause, one for each line of each instruction (R81, R141). -/
def recordEnts (u : Issue) (recs : List (Nat × Lane)) (seq : Nat) : List QEnt :=
  let groups := (((recs.map Prod.fst).eraseDups).map (fun p =>
    (byLine ((recs.filter (fun r => r.1 == p)).map Prod.snd)).map (fun g => (p, g)))).flatten
  (groups.zipIdx).map (fun g =>
    { seq := seq + g.2, ins := 0, paths := [.ls], op := .record false, lanes := g.1.2, word := u.words.getD g.1.1 0, cid := u.cid,
      pos := g.1.1, len := u.len, ent := u.ent, mail := false, tok := none, regen := none })

/-- Every outlier of a clause appended, in position order and in lane order within an instruction (R141). -/
def State.commitOuts (s : State) (t : Slat) (u : Issue) : State × Slat :=
  let (s, t, recs) := u.outs.foldl (settleOut u) (s, t, [])
  let es := recordEnts u recs s.next
  ({ s with next := s.next + es.length }, { t with queue := t.queue ++ es })

end Sys2Proof.Machine
end

