-- ==== Sys2Proof/Machine/Faults.lean ====
section
/-! DEFINITION. The fault service: faults made known, regeneration launches, faults settled (R162, R166, R167, R328, R329,
R364). -/

namespace Sys2Proof.Machine

/-- The regeneration kernel of a leaf launched for a fault's page, if it is registered and its record is accepted (R167, R364); while the
active-grid table is full, or the record is not ready to be read, the fault waits (R315). (Log 34: DEDUCED.) -/
def State.regen (s : State) (f : FaultRec) : Option State :=
  let e := f.pte
  match (s.fn f.fn).kernels.find? (fun k => k.1 == natField e.toNat 61 54) with
  | none => none
  | some (_, rec_, ctx) =>
    if rec_ = 0 ∨ rec_.toNat % 64 ≠ 0 then none
    else
      let place : HubAt := ⟨ctx, s.ctxPart ctx, 1, Need.load, rec_, 64⟩
      if !(s.hubReady [place]) then some (s.hubWant f.fn [place])
      else match s.hubReadVa ctx (s.ctxPart ctx) 1 rec_ 64 with
      | .error _ => none
      | .ok bs =>
        let s := s.hubOver s [place]
        let d0 := (dword bs 0).toNat
        let d0' := d0 - natField d0 59 56 * 2 ^ 56 + 3 * 2 ^ 56 + (if d0.testBit 54 then 0 else 2 ^ 54)
        let b := leBytes 8 d0' ++ (bs.drop 8).take 48 ++ leBytes 8 f.page
        let a := recordBytes [0x2000000000000000#64, BitVec.ofNat 64 (natField e.toNat 47 16), BitVec.ofNat 64 f.size]
        let by_ : LaunchBy := ⟨ctx, f.fn, s.ctxPart ctx, true, false⟩
        let r := LaunchRec.ofBytes b a
        if !(s.recReady ctx (s.ctxPart ctx) 1 r) then some (s.recWant f.fn ctx (s.ctxPart ctx) 1 r)
        else match s.recordError by_ b a with
        | some _ => none
        | none =>
          let s := State.recOver s s ctx (s.ctxPart ctx) 1 r
          if Config.maxGrids ≤ s.hub.grids.length then some s
          else
            let (id, s) := s.fresh
            some (s.enterGrid id by_ r none none f.prio 0 (some f.token))

/-- A fault forgotten. -/
def State.faultGone (s : State) (tok : Nat) : State :=
  s.modHub (fun h => { h with faults := h.faults.filter (fun f => f.token != tok) })

/-- A fault handed to the fault service: the token its accesses wait on; none where it is referred back at once (R161, R167,
R328). -/
def State.serve (s : State) (t : Slat) (kind access page size : Nat) (addr : W64) (lanes : W32) (e : W64) (link : Nat) :
    Option Nat × State :=
  match s.postFault t kind access page size addr lanes e link with
  | (none, s) => (none, s)
  | (some (tok, new), s) =>
    if new ∧ kind = 2 then
      match (s.hub.faults.find? (fun f => f.token == tok)).bind s.regen with
      | some s => (some tok, s)
      | none => (none, s.faultGone tok)
    else (some tok, s)

/-- A fault of an access that is a replay after a regeneration: a leaf of kind 11 that still stands there is not present (R167). -/
def Fate.again (f : Fate) (regen : Bool) (va : W64) : Fate :=
  match f with
  | .served 2 _ _ _ _ => if regen then .served 0 1 (va.toNat / 65536 * 65536) 0 0 else f
  | _ => f

/-- The same where regen is the page after whose regeneration the access is a replay. -/
def Fate.againAt (f : Fate) (regen : Option Nat) (va : W64) : Fate :=
  match f with
  | .served 2 _ page _ _ => f.again (regen == some page) va
  | _ => f

/-- Whether anything of a slat waits on a fault. -/
def Slat.awaits (t : Slat) (tok : Nat) : Bool :=
  t.log.any (fun l => l.token == tok) || t.queue.any (fun e => e.tok.map Prod.fst == some tok)
    || t.split.any (fun e => e.2.fetch.map Prod.fst == some tok)

/-- Lanes of an entry that a log entry names. -/
def LogEntry.names (l : LogEntry) (x : Lane) : Bool := x.st == .logged && l.lanes.getLsbD x.l

/-- A place as a replay takes it: with a new translation (R166). -/
def Loc.anew (x : Loc) : Loc :=
  match x with
  | .glob va _ => .glob va none
  | _ => x

/-- Everything of a slat that waited on a fault is ready again at its place (R166); regen is the page of a fault that was a regeneration. -/
def Slat.replay (t : Slat) (tok : Nat) (regen : Option Nat) : Slat :=
  let hit := t.log.filter (fun l => l.token == tok)
  { t with
    queue := t.queue.map (fun e =>
      let mine := fun (x : Lane) => hit.any (fun l => l.seq == e.seq && l.names x)
      { e with
        lanes := e.lanes.map (fun x => if mine x then { x with st := .queued, loc := x.loc.anew } else x)
        tok := if e.tok.map Prod.fst == some tok then none else e.tok
        regen := if regen.isSome && (e.lanes.any mine || e.tok.map Prod.fst == some tok) then regen else e.regen })
    log := t.log.filter (fun l => l.token != tok)
    split := t.split.map (fun e => (e.1, if e.2.fetch.map Prod.fst == some tok then { e.2 with fetch := none, regen := regen.isSome } else e.2)) }

/-- A `.sy` acquire on ls put before each entry of a slat that waited on a migration (R162); n numbers the first. -/
def Slat.acquireFirst (t : Slat) (tok n : Nat) : Slat :=
  let hit := fun (e : QEnt) => t.log.any (fun l => l.token == tok && l.seq == e.seq) || e.tok.map Prod.fst == some tok
  { t with queue := (t.queue.foldl (fun (x : List QEnt × Nat) e =>
      if hit e then (x.1 ++ [markerEnt x.2 [.ls] { acqMark true with sys := true }, e], x.2 + 1)
      else (x.1 ++ [e], x.2)) ([], n)).1 }

/-- A fault marked resolved (R166); after a migration each replay stands behind an acquire (R162). -/
def State.resolve (s : State) (tok : Nat) : State :=
  match s.hub.faults.find? (fun f => f.token == tok) with
  | none => s
  | some f =>
    let s := if f.kind = 1 then
        s.slats.foldl (fun (s : State) t =>
          if t.awaits tok then { s.setSlat (t.acquireFirst tok s.next) with next := s.next + t.queue.length } else s) s
      else s
    let s := (s.faultGone tok).mapSlats (fun t => t.replay tok (if f.kind = 2 then some f.page else none))
    s.modHub (fun h => { h with jobs := h.jobs.map (fun j =>
      if j.tok.map Prod.fst = some tok then { j with tok := none, regen := f.kind == 2 } else j) })

/-- A log entry abandoned: its lanes go, its cause is raised (R166). -/
def Slat.abandonLog (code : Nat) (t : Slat) (l : LogEntry) : Slat :=
  let t := { t with log := t.log.filter (fun x => x != l) }
  match t.qent? l.seq with
  | none => t
  | some e =>
    let t := t.raise (e.cause code l.why l.lanes)
    let e := { e with lanes := e.lanes.filter (fun x => !(l.names x)) }
    if e.lanes.isEmpty then t.abandonEnt e else t.setQent e

/-- A fault referred back to a slat: PAGE at its next boundary for what waited on it (R166, R238, R304, R313). -/
def Slat.referBack (t : Slat) (tok : Nat) : Slat :=
  let t1 := (t.log.filter (fun l => l.token == tok)).foldl (Slat.abandonLog 5) t
  let t2 := t1.queue.foldl (fun (t : Slat) e => match e.tok with
    | some (k, why, lanes) => if k = tok then (t.raise (e.cause 5 why lanes)).finish e else t
    | none => t) t1
  let t3 := t2.split.foldl (fun (t : Slat) x => match x.2.fetch with
    | some (k, why) =>
      if k = tok then
        t.raise { code := 5, cid := 0, word := 0, back := 0, reason := why, lanes := x.2.mask, raw := none, at_ := some x.2.pc, ent := x.1,
                  nested := false }
      else t
    | none => t) t2
  { t3 with split := t3.split.map (fun e => (e.1, if e.2.fetch.map Prod.fst == some tok then { e.2 with fetch := none } else e.2)) }

/-- A cause of a sys instruction that goes on after it has issued, in the layout of R164. -/
def Job.cause (j : Job) (code reason : Nat) : Cause :=
  { code := code, cid := j.cid, word := j.pos + 1, back := j.len + 1, reason := reason, lanes := 0, raw := none, at_ := none, ent := j.ent,
    nested := false, place := j.pos }

/-- A job over, with its result or its cause: its counter falls (R54). -/
def State.closeJob (s : State) (j : Job) (res : List (Nat × Nat × W32)) (c : Option Cause) : State :=
  ((s.modHub (fun h => { h with jobs := h.jobs.filter (fun x => x.id != j.id) })).modSlat j.uid (fun t => t.doneInst j.ins)).note j.uid j.ins 1 res c

/-- A job over. -/
def State.endJob (s : State) (j : Job) : State := s.closeJob j [] none

/-- A job refused: its cause is taken at the next clause boundary (R332). -/
def State.failJob (s : State) (j : Job) (c : Cause) : State :=
  (s.closeJob j [] (some c)).modSlat j.uid (fun t => if t.ended then t else t.raise c)

/-- A fault referred back (R166). -/
def State.referBack (s : State) (tok : Nat) : State :=
  let s := (s.faultGone tok).mapSlats (fun t => if t.awaits tok then t.referBack tok else t)
  s.hub.jobs.foldl (fun (s : State) j => match j.tok with
    | some (k, why) => if k = tok then s.failJob j (j.cause 5 why) else s
    | none => s) s

/-- The regenerations that wait for room in the active-grid table, launched as far as it has room, referred back where they are refused
(R315, R364). -/
def State.regenWaiting (s : State) : State :=
  s.hub.faults.foldl (fun (s : State) f =>
    if f.kind ≠ 2 ∨ s.hub.grids.any (fun g => g.token == some f.token) then s
    else match s.regen f with
      | some s => s
      | none => s.referBack f.token) s

/-- A settle write (R329): action 1 resolves, action 2 refers back; link stalls and regenerations are the hub's own. (Log 33: DEDUCED.) -/
def State.settleFault (s : State) (fn tok action : Nat) : State :=
  match s.hub.faults.find? (fun f => f.token % 2 ^ 32 == tok && f.fn == fn && decide (f.kind < 2)) with
  | none => s
  | some f => if action = 1 then s.resolve f.token else if action = 2 then s.referBack f.token else s

/-- The fields of a settle write (R329). -/
def State.settleWrite (s : State) (fn : Nat) (v : W64) : State := s.settleFault fn (natField v.toNat 31 0) (natField v.toNat 33 32)

end Sys2Proof.Machine
end

