-- ==== Sys2Proof/Machine/Issue.lean ====
section
/-! DEFINITION. Issuing clauses: candidates and choice, fetch and decode, the clause's end, traps at boundaries (R53 to R58,
R114, R313, R322 to R327). -/

namespace Sys2Proof.Machine

/-- The quadrant of a slat slot (R14). -/
def quadOf (slot : Nat) : Nat := slot / 16

/-- The virtual address of a word of a slat's text (R38). -/
def Slat.wordVa (t : Slat) (pc : W64) : W64 := t.text + pc * 8#64

/-- What a fetch needs of its page (R161). -/
def Need.fetch_ : Need := ⟨false, false, true, none⟩

/-- A line as a core's fetch finds it: in its L1 instruction cache (R14), or at its home; a mailbox line as the line agent reads it (R163). -/
def State.codeLine (s : State) (core line : Nat) (mail : Bool) : LineVal :=
  if mail then ⟨s.hostRaw (untagLine line), s.hostMarks line⟩
  else match (s.core core).l1i.find? (fun x => x.1 == line) with
    | some x => x.2
    | none => s.readVal line

/-- A line kept in a core's L1 instruction cache, the oldest of 64 KiB leaving when it is full (R14). (Log 69: DESIGN CHOICE.) -/
def State.fillL1i (s : State) (core line : Nat) (v : LineVal) : State :=
  if (s.core core).l1i.any (fun x => x.1 == line) then s
  else s.modCore core (fun c => { c with l1i := ((line, v) :: c.l1i).take Config.l1iLines })

/-- The 64-bit word at a physical address as a fetch reads it. -/
def State.codeWord (s : State) (core pa : Nat) (mail : Bool) : W64 := BitVec.ofNat 64 ((s.codeLine core (lineOf pa) mail).num (pa % 128) 8)

/-- The lines of the walk for a fetch that its core's TLBs do not answer. -/
def State.codeWalks (s : State) (t : Slat) (pc : W64) : List Nat := s.walksFor t.core t.ctx t.part [t.wordVa pc]

/-- The line of a word that its core's L1 instruction cache has not, where its page lets it be fetched; no cache holds one of a mailbox page
(R17, R163). -/
def State.codeMiss (s : State) (t : Slat) (pc : W64) : Option Nat :=
  match (s.check t.core t.ctx t.part t.level Need.fetch_ (t.wordVa pc)).1 with
  | .ok pa p => if p.mail || (s.core t.core).l1i.any (fun x => x.1 == lineOf pa) then none else some (lineOf pa)
  | _ => none

/-- A word can be fetched, or its fetch faults: the lines of its walk are ready, and its line is in the L1 instruction cache. -/
def State.codeReady (s : State) (t : Slat) (pc : W64) : Bool := s.hubOk true (s.codeWalks t pc) && (s.codeMiss t pc).isNone

/-- A fetch goes on towards that (R14, R158): the lines of its walk asked for, then its TLBs filled and its line asked for, then that kept. -/
def State.codeAhead (s : State) (t : Slat) (pc : W64) : State :=
  let ws := s.codeWalks t pc
  if !(s.hubOk true ws) then s.hubAsk true t.fn t.part ws
  else match s.codeMiss t pc with
    | none => s
    | some l =>
      let s := ((s.check t.core t.ctx t.part t.level Need.fetch_ (t.wordVa pc)).2).hubFree true ws
      if s.hubOk true [l] then (s.fillL1i t.core l (s.readVal l)).hubFree true [l] else s.hubAsk true t.fn t.part [l]

/-- A word address beyond the slat's text segment (R116). -/
def Slat.pastText (t : Slat) (pc : W64) : Bool := t.tlen.elim false (fun n => decide (n < 8 * pc.toNat + 8))

/-- The word at a fragment's program counter, as far as it can be fetched without a fault. -/
def State.peek (s : State) (t : Slat) (pc : W64) : Option W64 :=
  if t.pastText pc then none
  else match (s.check t.core t.ctx t.part t.level Need.fetch_ (t.wordVa pc)).1 with
    | .ok pa p => some (s.codeWord t.core pa p.mail)
    | _ => none

/-- The words of the clause at a program counter that cannot be fetched yet: its header, then, as it counts them, the others. -/
def State.clauseWant (s : State) (t : Slat) (pc : W64) : List W64 :=
  if t.pastText pc then []
  else if !(s.codeReady t pc) then [pc]
  else match (s.peek t pc).map decodeHeader with
    | some (.ok h) => ((List.range h.words).map (fun i => pc + BitVec.ofNat 64 (i + 1))).filter (fun a => !(s.codeReady t a))
    | _ => []

/-- A header's waits are met (R53). -/
def Slat.waitsMet (t : Slat) (h : Header) : Bool :=
  (List.range 6).all (fun k => !(h.mask.getLsbD k) || t.dget k == 0)
    && (h.tctr == 7#3 || decide (t.dget h.tctr.toNat ≤ h.thr.toNat))

/-- The clause at a program counter has been fetched, and its waits are met, before the header is decoded (R53); a fetch that faults, and a word
that is no header at all, wait for nothing. -/
def State.ready (s : State) (t : Slat) (pc : W64) : Bool :=
  (s.clauseWant t pc).isEmpty && (match s.peek t pc with
    | none => true
    | some w => !(isHeader w) || t.waitsMet (headerOf w))

/-- The peer, or the group, that a transfer goes to (R295, R296). -/
def XferOps.key (x : XferOps) : Bool × Nat := if x.op = 1 then (true, natField x.e.toNat 9 0) else (false, natField x.e.toNat 63 52)

/-- The fabric links of a die that are not Down, ascending (R292). -/
def State.upFabric (s : State) (die : Nat) : List Nat := ((List.range 4).map (fun k => 4 * die + k)).filter (fun n => (s.flink n).st != .down)

/-- The link a transfer leaves on (R292). -/
def State.fabricRoute (s : State) (x : Xfer) : Option Nat :=
  let up := s.upFabric (x.core / Config.coresPerDie)
  if up.isEmpty then none else up[x.ops.key.2 % up.length]?

/-- The link that a transfer's acknowledgement must cross: the one it was sent on, or the one it will leave on. -/
def State.xferLink (s : State) (x : Xfer) : Option Nat := if 2 ≤ x.st then some x.link else s.fabricRoute x

/-- A release of a slat waits on an acknowledgement that must cross a retraining fibre: the slat holds no issue slot (R97). -/
def State.fenceStall (s : State) (t : Slat) : Bool :=
  t.queue.any (fun e => match e.op with
    | .marker m => m.rel && (m.sys || e.paths.contains .xf)
        && s.fab.xfers.any (fun x => x.uid == t.uid && decide (x.seq < e.seq) && (s.xferLink x).elim false (fun n => (s.flink n).st == .retrain))
    | _ => false)

/-- A slat at a clause boundary that may issue: not parked, of no team that is being saved, unless it re-executes after a rollback, on a
core that has begun (R97, R322, R323, R340). -/
def State.boundary (s : State) (t : Slat) : Bool :=
  !t.ended && !(s.fenceStall t) && t.park == .none && t.issue.isNone && (!((s.team? t.team).elim false Team.saved) || decide (t.begun < t.redo)) && (s.core t.core).started

/-- An entry that a trap of another fragment does not hold (R325). -/
def Slat.free_ (t : Slat) (e : Nat) : Bool := match t.hand with
  | none => true
  | some k => k == e

/-- A running entry of a slat may fetch. -/
def State.mayFetch (s : State) (t : Slat) (e : Nat) : Bool :=
  let x := t.ent e
  s.boundary t && x.st == .running && x.mask != 0#32 && t.free_ e && x.cont.isNone && x.fetch.isNone

/-- A running entry of a slat is a candidate (R323). -/
def State.candidate (s : State) (t : Slat) (e : Nat) : Bool := s.mayFetch t e && s.ready t (t.ent e).pc

/-- A candidate: its slat, slot and entry. -/
structure Cand where
  uid : Nat
  slot : Nat
  e : Nat
  deriving DecidableEq, Repr

/-- Slats of a quadrant in slot order. -/
def State.quadSlats (s : State) (core quad : Nat) : List Slat :=
  (s.slats.filter (fun t => t.core == core && quadOf t.slot == quad && !t.ended)).mergeSort (fun a b => decide (a.slot ≤ b.slot))

/-- The candidates of a quadrant, by slot and entry (R323). -/
def State.candidates (s : State) (core quad : Nat) : List Cand :=
  ((s.quadSlats core quad).map (fun t => ((List.range 8).filter (s.candidate t)).map (fun e => ⟨t.uid, t.slot, e⟩))).flatten

/-- Passed over: deferred, and something it waits for has neither issued nor stopped being a candidate (R323). -/
def SplitEntry.passed (x : SplitEntry) : Bool := match x.yld with
  | some l => !l.isEmpty
  | none => false

/-- A pending cause of a slat may be taken now (R325, R326): while a handler runs only one that arose in it is. -/
def Slat.mayTake (t : Slat) (c : Cause) : Bool := !t.inh || c.nested || c.code == 0xA

/-- A slat whose entries about to fetch have arrived where they stand at their reconvergence address (R114); one that is passed over does not
fetch yet, nor does any where a trap is to be taken first (R325). (Log 15: DEDUCED.) -/
def Slat.arriveAll (t : Slat) : Slat :=
  if t.pend.any t.mayTake then t
  else (List.range 8).foldl (fun (t : Slat) e => if t.free_ e && !(t.ent e).passed then t.arrive e 64 else t) t

/-- The entry of a candidate. -/
def State.candEnt (s : State) (c : Cand) : SplitEntry := (s.slat? c.uid).elim SplitEntry.free (fun t => t.ent c.e)

/-- A candidate's entry changed. -/
def State.modCand (s : State) (c : Cand) (f : SplitEntry → SplitEntry) : State :=
  s.modSlat c.uid (fun t => t.setEnt c.e (f (t.ent c.e)))

/-- What a slat waits on as the watchdog counts it (R337): 1 `tbar`, 2 `clmw`, 3 a header wait that leaves it no candidate; 0 nothing. -/
def State.waitKind (s : State) (t : Slat) : Nat :=
  if t.ended then 0
  else match t.park with
    | .tbar => 1
    | .clmw => 2
    | .none =>
      let held := fun (e : Nat) => s.mayFetch t e && (s.clauseWant t (t.ent e).pc).isEmpty && !(s.ready t (t.ent e).pc)
      if (List.range 8).any held && !((List.range 8).any (s.candidate t)) then 3 else 0
    | _ => 0

/-- The stamps of every entry brought up to date: an entry keeps its stamp while it is a candidate, and what a deferral
waits for is kept to what is still a candidate (R323). parkAt is one more than the cycle at which a wait of R337, or one on a queue, began, or 0. -/
def State.restamp (s : State) : State :=
  let is := fun (uid e : Nat) => match s.slat? uid with
    | some t => s.candidate t e
    | none => false
  s.mapSlats (fun t => { t with
    parkAt := if s.waitKind t = 0 then (if t.park = .deq then t.parkAt else 0) else if t.parkAt = 0 then s.now + 1 else t.parkAt
    split := t.split.map (fun x => (x.1, { x.2 with
      stamp := if s.candidate t x.1 then some (x.2.stamp.getD s.now) else none
      yld := x.2.yld.map (fun l => l.filter (fun y => is y.1 y.2)) })) })

/-- The candidate of least stamp, ties broken by order (R323). -/
def State.oldest (s : State) (cs : List Cand) : Option Cand :=
  match cs with
  | [] => none
  | c :: t => some (t.foldl (fun a b => if ((s.candEnt b).stamp.getD s.now) < ((s.candEnt a).stamp.getD s.now) then b else a) c)

/-- The quadrant's choice (R323). (Log 14: DEDUCED.) -/
def State.choose (s : State) (cs : List Cand) : Option Cand :=
  let fair := cs.filter (fun c => !(s.candEnt c).passed)
  if fair.isEmpty then s.oldest cs
  else match s.oldest (fair.filter (fun c => decide (64 ≤ (s.candEnt c).skip))) with
    | some c => some c
    | none => s.oldest fair

/-- The counts after a choice: the chosen one's skip falls to 0, the others' grow, and no deferral waits for it any more. -/
def State.counted (s : State) (cs : List Cand) (c : Cand) : State :=
  let s := cs.foldl (fun (s : State) d =>
    if d = c then s.modCand d (fun x => { x with skip := 0, stamp := none, yld := none })
    else if (s.candEnt d).passed then s
    else s.modCand d (fun x => { x with skip := x.skip + 1 })) s
  s.mapSlats (fun t => { t with
    split := t.split.map (fun x => (x.1, { x.2 with yld := x.2.yld.map (fun l => l.filter (fun y => y != (c.uid, c.e))) })) })

/-- The fragment that takes a cause: the one that issued it, or the first that runs (R325). (Log 16: DEDUCED.) -/
def Slat.taker (t : Slat) (e : Nat) : Nat :=
  if (t.ent e).st = .running then e else ((List.range 8).find? (fun k => (t.ent k).st == .running)).getD e

/-- A pending cause of a slat taken, if there is one to take (R325, R326). -/
def State.takeAt (s : State) (t : Slat) : State :=
  match pickCause (t.pend.filter t.mayTake) with
  | none => s
  | some (c, rest) => s.takeTrap { t with
      pend := t.pend.filter (fun d => !(t.mayTake d) || rest.contains d)
      told := (if c.isLane then [c.cid] else []) ++ t.told.filter (fun k => t.queue.any (fun e => e.cid == k)) } (t.taker c.ent) c

/-- The same at a slat's clause boundary. -/
def State.takePending (s : State) (uid : Nat) : State :=
  match s.slat? uid with
  | none => s
  | some t => if s.boundary t then s.takeAt t else s

/-- A cause found while a clause is fetched or decoded: taken at once, %tepc the header's address (R57, R313). -/
def State.clauseTrap (s : State) (t : Slat) (e code : Nat) (tinfo : W64) : State :=
  s.takeTrap t e { code := code, cid := 0, word := 0, back := 0, reason := 0, lanes := 0, raw := some tinfo, at_ := some (t.ent e).pc,
                   ent := e, nested := t.inh }

/-- What a fetch gives: the word, or the state in which its fault is known (R161, R313), or in which it goes on. A header beyond the text segment is none (R116);
a fetch after a regeneration that left no leaf is not present (R167). -/
def State.fetch (s : State) (t : Slat) (e word : Nat) (pc : W64) : Except State (W64 × State) :=
  let m := (t.ent e).mask
  if word = 0 ∧ t.pastText pc then .error (s.clauseTrap t e 2 (ClauseFault.tinfo ⟨0, BadWord.ofCode 8⟩))
  else if !(s.codeReady t pc) then .error (s.codeAhead t pc)
  else
  let (f, s1) := s.check t.core t.ctx t.part t.level Need.fetch_ (t.wordVa pc)
  let s1 := s1.hubFree true (s.codeWalks t pc)
  match f.again (t.ent e).regen (t.wordVa pc) with
  | .ok pa p =>
    if (s1.codeLine t.core (lineOf pa) p.mail).marked (pa % 128) 8 then
      .error (s1.clauseTrap t e 0xA (zext64 m <<< 32 ||| BitVec.ofNat 64 (0x100 + word)))
    else .ok (s1.codeWord t.core pa p.mail, s1)
  | .sync code reason => .error (s1.clauseTrap t e code (zext64 m <<< 32 ||| BitVec.ofNat 64 (reason * 256 + word)))
  | .served kind why page size x =>
    match s1.serve t kind 6 page size (t.wordVa pc) m x 0 with
    | (some tok, s2) => .error (s2.modSlat t.uid (fun t => t.setEnt e { t.ent e with fetch := some (tok, why) }))
    | (none, s2) => .error (s2.clauseTrap t e 5 (zext64 m <<< 32 ||| BitVec.ofNat 64 (why * 256 + word)))

/-- n words from a program counter on. -/
def State.fetchWords (s : State) (t : Slat) (e : Nat) (pc : W64) : Nat → Nat → Except State (List W64 × State)
  | 0, _ => .ok ([], s)
  | n + 1, word => match s.fetch t e word (pc + BitVec.ofNat 64 word) with
    | .error s => .error s
    | .ok (w, s) => match s.fetchWords t e pc n (word + 1) with
      | .error s => .error s
      | .ok (ws, s) => .ok (w :: ws, s)

/-- A decoded clause begun: its fragment's program counter moves past it (R53), an ALU clause remembers the slat (R55). -/
def State.begin (s : State) (t : Slat) (e : Nat) (h : Header) (cls : Cls) (words : List W64) : State :=
  let x := t.ent e
  let (cid, s) := s.fresh
  let u : Issue :=
    { ent := e, h := x.pc, cid := cid, cls := cls, words := words, pos := 0, yld := h.yld, lat := [], outs := [], fres := [],
      held := false }
  let t' := { t.setEnt e { x with pc := x.pc + BitVec.ofNat 64 (words.length + 1), regen := false } with issue := some u, begun := t.begun + 1 }
  { s.setSlat t' with
    focus := some t.uid
    snap := if cls = .alu then some t else none }

/-- A chosen fragment issues: header, words, decoding; any fault takes its trap (R53, R57). -/
def State.issueClause (s : State) (t : Slat) (e : Nat) : State :=
  let pc := (t.ent e).pc
  match s.fetch t e 0 pc with
  | .error s => s
  | .ok (hw, s) => match decodeHeader hw with
    | .error r => s.clauseTrap t e 2 (ClauseFault.tinfo ⟨0, r⟩)
    | .ok h => match s.fetchWords t e pc h.words 1 with
      | .error s => s
      | .ok (ws, s) => match decodeClause h ws with
        | .error f => s.clauseTrap t e f.cause f.tinfo
        | .ok _ => match clsOf h.cls with
          | none => s
          | some c => s.begin t e h c ws

/-- The fetches of a quadrant's fragments go on (R14, R53). -/
def State.fetchAll (s : State) (core quad : Nat) : State :=
  (s.quadSlats core quad).foldl (fun (s : State) t => (List.range 8).foldl (fun (s : State) e =>
    if s.mayFetch t e then (s.clauseWant t (t.ent e).pc).foldl (fun (s : State) pc => s.codeAhead t pc) s else s) s) s

/-- CLAUSE_ISSUE (R53, R323): what a clause of the quadrant still has to issue goes first, then a pending trap, then the
choice among the candidates; a chosen fragment that stands at its reconvergence address arrives first (R114). (Log 4: DEDUCED.) -/
def State.clauseIssue (s : State) (core quad : Nat) : State :=
  if s.focus.isSome then s
  else
    let s := s.mapSlats (fun t => if t.core == core && quadOf t.slot == quad && s.boundary t then t.arriveAll else t)
    let s := (s.fetchAll core quad).restamp
    let ts := s.quadSlats core quad
    match ts.find? (fun t => t.issue.elim false Issue.held && t.park == .none), ts.find? (fun t => t.issue.isSome && t.park == .none) with
    | some t, _ => { s.modSlat t.uid (fun t => { t with issue := t.issue.map (fun u => { u with held := false }) }) with focus := some t.uid }
    | none, some t => { s with focus := some t.uid }
    | none, none =>
      match ts.find? (fun t => s.boundary t && !((t.pend.filter t.mayTake).isEmpty)) with
      | some t => s.takePending t.uid
      | none =>
        let cs := s.candidates core quad
        match s.choose cs with
        | none => s
        | some c =>
          let s := s.counted cs c
          match s.slat? c.uid with
          | none => s
          | some t => if some (t.ent c.e).pc = (t.ent c.e).rcv then s.setSlat (t.arrive c.e 64) else s.issueClause t c.e

/-- A fragment deferred: until every other candidate of its quadrant has issued or stopped being one (R116, R323). -/
def State.defer_ (s : State) (t : Slat) (e : Nat) : State :=
  let others := (s.candidates t.core (quadOf t.slot)).filter (fun c => c.uid != t.uid || c.e != e)
  s.modSlat t.uid (fun t => t.setEnt e { t.ent e with yld := some (others.map (fun c => (c.uid, c.e))) })

/-- The end of a clause: an ALU clause commits (R55, R141), the fragment is deferred if the clause or a yield says so, and the first cause that
awaits this boundary is taken (R56), before the fragment fetches and so arrives (R114, R325). -/
def State.clauseEnd (s : State) (t : Slat) (u : Issue) : State :=
  let (s, t) := s.commitOuts t u
  let s : State := { s.setSlat { t with issue := none } with focus := none, snap := none }
  let s := u.fres.foldl (fun (s : State) v => s.settleWrite t.fn v) s
  let s := if u.yld && (t.ent u.ent).st == .running then s.defer_ t u.ent else s
  (s.endIfEmpty t.uid).takePending t.uid

end Sys2Proof.Machine
end

