-- ==== Sys2Proof/Machine/Entry.lean ====
section
/-! DEFINITION. A slat at kernel entry (R101, R313), and the passing of time (R9, R79, R323, R387). -/

namespace Sys2Proof.Machine

/-- The split table at entry: one running entry of all 32 lanes (R101). -/
def startSplit (pc : W64) : List (Nat × SplitEntry) := [(0, { SplitEntry.free with st := .running, mask := 0xFFFFFFFF#32, pc := pc })]

/-- Where a slat stands: its number, core, slot, team and index. -/
structure SlatAt where
  uid : Nat
  core : Nat
  slot : Nat
  team : Nat
  idx : Nat
  deriving DecidableEq, Repr

/-- A slat at the entry of a grid's kernel (R101, R313); text and tlen are the base its program counters count from and the bytes of its text
segment (R38). -/
def Slat.start (w : SlatAt) (g : Grid) (text : W64) (tlen : Option Nat) (pc : W64) : Slat :=
  { uid := w.uid, core := w.core, slot := w.slot, team := w.team, idx := w.idx, grid := g.id, fn := g.fn, ctx := g.ctx, part := g.part,
    level := g.level, text := text, tlen := tlen, v := [], vp := [], s := (g.launch.args.zipIdx).map (fun a => (a.2, a.1)), sp := [], p := [], q := 0,
    b := [], width := 32, d := [], split := startSplit pc, recs := [], log := [], queue := [], insts := [], tvec := 0, tepc := 0,
    tinfo := 0, tcause := 0, inh := false, hand := none, slim := 512, bst := 0, fst := 0, pend := [], park := .none, parkArg := 0,
    parkDst := 0, parkAt := 0, watch := none, issue := none, accd := [], told := [], begun := 0, redo := 0, bars := 0, ended := false }

/-- Snapshots kept: the last one at or before a cycle, and every later one. -/
def trimPast (lim : Nat) : List Past → List Past
  | a :: b :: t => if b.at_ ≤ lim then trimPast lim (b :: t) else a :: b :: t
  | l => l

/-- Cycles pass: stamps are brought up to date, and what an upset may restore is kept for 256 cycles (R323, R387). -/
def State.pass (s : State) (dt : Nat) : State :=
  if dt = 0 then s
  else
    let s1 := s.restamp
    { s1 with
      now := s.now + dt
      past := trimPast (s.now + dt - 256) (s1.past ++ [⟨s.now, s1.slats, s1.cores⟩])
      answers := s1.answers.filter (fun a => decide (s.now + dt ≤ a.at_ + 256)) }

/-- The state with another agenda. (Log 1: DESIGN CHOICE.) -/
def State.withAgenda (s : State) (a : List Due) : State := { s with agenda := a }

/-- A word that is being issued and is no instruction: ILLEGAL, with %tepc at the header (R57). The decoder has accepted every
word of a clause before it issues, so no fetched clause gets here. -/
def State.badWord (s : State) (t : Slat) (u : Issue) (r : BadWord) : State :=
  let t' := { (s.snap.getD t) with issue := none }
  let t' := t'.setEnt u.ent { t'.ent u.ent with pc := u.h }
  { (s.setSlat t').clauseTrap t' u.ent (if r.code < 8 then 1 else 2) (ClauseFault.tinfo ⟨u.pos + 1, r⟩) with focus := none, snap := none }

/-- The class of a clause that an instruction may stand in (R34). -/
def clauseOf (i : Instr) : Cls :=
  match i.grp with
  | some .memory => .mem
  | some .copy => .async
  | some .fabric => .async
  | some .matrix => .mtx
  | some .system => .sys
  | _ => .alu

/-- A grid of one slat in context 0 of the physical function, at supervisor level. -/
def soloGrid (id : Nat) : Grid :=
  { id := id, queue := none, fn := 0, ctx := 0, part := 0, prio := 0, level := 1, depth := 0, parent := none,
    launch := { persist := false, sup := true, gang := 0, irq := false, deps := [], entry := 0, tiles := 64, spad := 262144, cores := 1,
                slats := 1, gx := 1, gy := 1, gz := 1, done := 0, args := [] },
    nextTeam := 1, since := 0, token := none, dead := false, met := [] }

/-- A team of one slat on core 0 with all its scratchpad and tiles. -/
def soloTeam (uid grid : Nat) : Team :=
  { uid := uid, grid := grid, idx := 0, fn := 0, ctx := 0, part := 0, level := 1, slats := 1, spad := 262144, tiles := 64,
    cores := [(0, 0, 0)], gang := 0, grank := 0, arrived := [], bars := 0, aband := false, kslat := 0, kcause := 0, killedAt := none, saved := false }

/-- A slat alone on core 0 that has begun a clause of one word. -/
def soloSlat (uid team grid : Nat) (w : W64) : Slat :=
  { Slat.start ⟨uid, 0, 0, team, 0⟩ (soloGrid grid) 0 none 2 with
    issue := some { ent := 0, h := 0, cid := 0, cls := (match decodeWord w with
                      | .ok i => clauseOf i
                      | .error _ => .alu),
                    words := [w], pos := 0, yld := false, lat := [], outs := [], fres := [], held := false } }

/-- The state with one slat issuing a clause that holds one word: the slat that issues, if one does, else a new one. (Log 2: DESIGN
CHOICE.) -/
def State.withWord (s : State) (w : W64) : State :=
  match s.frag with
  | some (t, u) => s.setSlat { t with issue := some { u with words := [w], pos := 0, held := false } }
  | none =>
    let g := s.next
    { s with
      next := g + 3
      focus := some (g + 2)
      snap := some (soloSlat (g + 2) (g + 1) g w)
      teams := s.teams ++ [soloTeam (g + 1) g]
      slats := s.slats ++ [soloSlat (g + 2) (g + 1) g w]
      hub := { s.hub with grids := s.hub.grids ++ [soloGrid g] } }

end Sys2Proof.Machine
end

