-- ==== Sys2Proof/Machine/Scalar.lean ====
section
/-! DEFINITION. The scalar instructions (R103, R104, R107 to R111). -/

namespace Sys2Proof.Machine

/-- Signed forms read as signed unless fmt is .u64 (R108). -/
def sgn64 (o : ROp) : Bool := o.m.fmt != 3#4

/-- High 64 bits of the 128-bit product (R108). -/
def mulHigh (sgn : Bool) (a b : W64) : W64 :=
  if sgn then BitVec.ofInt 64 (a.toInt * b.toInt / 2 ^ 64) else BitVec.ofNat 64 (a.toNat * b.toNat / 2 ^ 64)

/-- Left shift by a count, 0 at 64 or more (R108). -/
def shl64 (a b : W64) : W64 := if 64 ≤ b.toNat then 0 else a <<< b.toNat
/-- Logical right shift by a count, 0 at 64 or more (R108). -/
def shr64 (a b : W64) : W64 := if 64 ≤ b.toNat then 0 else a >>> b.toNat
/-- Arithmetic right shift by a count, the sign at 64 or more (R108). -/
def sar64 (a b : W64) : W64 := a.sshiftRight (min b.toNat 63)

/-- The lesser or greater of two words (R108). -/
def pick64 (sgn greater : Bool) (a b : W64) : W64 :=
  if (icomp sgn a b == .gt) == greater then a else b

/-- Number of one bits. -/
def popCount {n : Nat} (a : BitVec n) : Nat := (upTo n (fun i => a.getLsbD i)).length

/-- Leading zero bits, the width for 0. -/
def leadZeros {n : Nat} (a : BitVec n) : Nat := if a.toNat = 0 then n else n - 1 - Nat.log2 a.toNat

/-- SMOV (R109): sD = a. -/
def execSmov (o : ROp) (s : State) : Out :=
  scaDo s o.h [o.a] (fun t u => s.advance (t.sput o.dst.toNat (t.srcS o.a).1 false) u)

/-- SADD (R108): a + b. -/
def execSadd (o : ROp) (s : State) : Out :=
  sca2 s o (fun a b => a + b)

/-- SSUB (R108): a - b. -/
def execSsub (o : ROp) (s : State) : Out :=
  sca2 s o (fun a b => a - b)

/-- SMUL (R108): the low 64 bits of the product. -/
def execSmul (o : ROp) (s : State) : Out :=
  sca2 s o (fun a b => a * b)

/-- SMULH (R108): the high 64 bits of the product, signed unless .u64. -/
def execSmulh (o : ROp) (s : State) : Out :=
  sca2 s o (fun a b => mulHigh (sgn64 o) a b)

/-- SAND (R108). -/
def execSand (o : ROp) (s : State) : Out :=
  sca2 s o (fun a b => a &&& b)

/-- SOR (R108). -/
def execSor (o : ROp) (s : State) : Out :=
  sca2 s o (fun a b => a ||| b)

/-- SXOR (R108). -/
def execSxor (o : ROp) (s : State) : Out :=
  sca2 s o (fun a b => a ^^^ b)

/-- SSHL (R108). -/
def execSshl (o : ROp) (s : State) : Out :=
  sca2 s o (fun a b => shl64 a b)

/-- SSHR (R108). -/
def execSshr (o : ROp) (s : State) : Out :=
  sca2 s o (fun a b => shr64 a b)

/-- SSAR (R108). -/
def execSsar (o : ROp) (s : State) : Out :=
  sca2 s o (fun a b => sar64 a b)

/-- SMIN (R108): the lesser, signed unless .u64. -/
def execSmin (o : ROp) (s : State) : Out :=
  sca2 s o (fun a b => pick64 (sgn64 o) false a b)

/-- SMAX (R108): the greater, signed unless .u64. -/
def execSmax (o : ROp) (s : State) : Out :=
  sca2 s o (fun a b => pick64 (sgn64 o) true a b)

/-- SADD_I (R108): a plus the immediate. -/
def execSaddI (o : IOp) (s : State) : Out :=
  scaI s o (fun a b => a + b)

/-- SSUB_I (R108): a minus the immediate. -/
def execSsubI (o : IOp) (s : State) : Out :=
  scaI s o (fun a b => a - b)

/-- SMUL_I (R108). -/
def execSmulI (o : IOp) (s : State) : Out :=
  scaI s o (fun a b => a * b)

/-- SAND_I (R108). -/
def execSandI (o : IOp) (s : State) : Out :=
  scaI s o (fun a b => a &&& b)

/-- SOR_I (R108). -/
def execSorI (o : IOp) (s : State) : Out :=
  scaI s o (fun a b => a ||| b)

/-- SXOR_I (R108). -/
def execSxorI (o : IOp) (s : State) : Out :=
  scaI s o (fun a b => a ^^^ b)

/-- SSHL_I (R108): count 0 to 63. -/
def execSshlI (o : IOp) (s : State) : Out :=
  scaI s o (fun a b => shl64 a b)

/-- SSHR_I (R108): count 0 to 63. -/
def execSshrI (o : IOp) (s : State) : Out :=
  scaI s o (fun a b => shr64 a b)

/-- SSAR_I (R108): count 0 to 63. -/
def execSsarI (o : IOp) (s : State) : Out :=
  scaI s o (fun a b => sar64 a b)

/-- SCMP_SIGNED (R110): a scalar predicate, register form. -/
def execScmpSigned (o : ROp) (s : State) : Out :=
  scmp s o.h o.dst [o.a, o.b] true (fun t => (t.srcS o.a).1) (fun t => (t.srcS o.b).1)

/-- SCMP_SIGNED_I (R110): against the immediate. -/
def execScmpSignedI (o : IOp) (s : State) : Out :=
  scmp s o.h o.dst [o.a] true (fun t => (t.srcS o.a).1) (fun _ => imm64 o)

/-- SCMP_UNSIGNED (R110): a scalar predicate, register form. -/
def execScmpUnsigned (o : ROp) (s : State) : Out :=
  scmp s o.h o.dst [o.a, o.b] false (fun t => (t.srcS o.a).1) (fun t => (t.srcS o.b).1)

/-- SCMP_UNSIGNED_I (R110): against the immediate. -/
def execScmpUnsignedI (o : IOp) (s : State) : Out :=
  scmp s o.h o.dst [o.a] false (fun t => (t.srcS o.a).1) (fun _ => imm64 o)

/-- SSEL (R109): a where qK reads true, else b; the C field names qK. -/
def execSsel (o : ROp) (s : State) : Out :=
  scaDo s o.h [o.a, o.b] (fun t u =>
    s.advance (t.sput o.dst.toNat (if t.qget (o.c.bits.toNat % 8) then (t.srcS o.a).1 else (t.srcS o.b).1) false) u)

/-- SCLZ (R109): leading zero bits, 64 for 0. -/
def execSclz (o : ROp) (s : State) : Out :=
  scaDo s o.h [o.a] (fun t u => s.advance (t.sput o.dst.toNat (BitVec.ofNat 64 (leadZeros (t.srcS o.a).1)) false) u)

/-- SPOP (R109): one bits. -/
def execSpop (o : ROp) (s : State) : Out :=
  scaDo s o.h [o.a] (fun t u => s.advance (t.sput o.dst.toNat (BitVec.ofNat 64 (popCount (t.srcS o.a).1)) false) u)

/-- SLI (R109): the sign-extended immediate. -/
def execSli (o : IOp) (s : State) : Out :=
  scaDo s o.h [] (fun t u => s.advance (t.sput o.dst.toNat (imm64 o) false) u)

/-- SLIH (R109): a shifted left 29, the immediate below it. -/
def execSlih (o : IOp) (s : State) : Out :=
  scaDo s o.h [o.a] (fun t u => s.advance (t.sput o.dst.toNat (((t.srcS o.a).1 <<< 29) ||| zext64 o.imm) false) u)

/-- What an sxlat makes of its translation register: resolved on a TLB hit that lets the slat in (R111). -/
def State.xlat (s : State) (t : Slat) (a : W64) : Option TRes × State :=
  if !canonical a then (none, s)
  else match s.tlbLook t.core t.ctx t.part a with
    | (some e, s) => (t.resolveB e a, s)
    | (none, s) =>
      let ws := s.walkLines t.ctx t.part a
      (none, if s.hubOk true ws then ((s.lookup t.core t.ctx t.part a).2).hubFree true ws else s)

/-- SXLAT (R111): bN takes the base, resolved or not; after a miss in both TLBs the walk that the device may begin fills them where the lines it
reads are at hand, and is not begun elsewhere. -/
def execSxlat (o : ROp) (s : State) : Out :=
  scaDo s o.h [o.a] (fun t u =>
    let a := (t.srcS o.a).1
    let (r, s1) := s.xlat t a
    s1.advance (t.bput (o.dst.toNat % 16) ⟨a, r⟩) u)

/-- %vquota (R228). -/
def State.vquota (s : State) (f : Nat) : W64 := BitVec.ofNat 64 (s.vused f * 2 ^ 32 + (s.fn f).vq)

/-- What srd reads of a control register (R103, R228, R258, R259). -/
def State.special (s : State) (t : Slat) (u : Issue) (n : Nat) : W64 :=
  let m := (t.ent u.ent).mask
  match n with
  | 0x000 => BitVec.ofNat 64 ((laneList m).headD 0)
  | 0x001 => zext64 m
  | 0x002 => BitVec.ofNat 64 t.idx
  | 0x003 => BitVec.ofNat 64 ((s.team? t.team).elim 0 Team.idx)
  | 0x004 => BitVec.ofNat 64 (s.rank t)
  | 0x005 => BitVec.ofNat 64 ((s.team? t.team).elim 0 Team.grank)
  | 0x006 => BitVec.ofNat 64 t.core
  | 0x007 => BitVec.ofNat 64 t.width
  | 0x008 => BitVec.ofNat 64 (s.cyc t.core)
  | 0x009 => BitVec.ofNat 64 t.ctx
  | 0x00A => s.vquota t.fn
  | 0x00B => t.slim
  | 0x010 => t.tvec
  | 0x011 => BitVec.ofNat 64 (t.tcause + (if t.inh then 256 else 0))
  | 0x012 => t.tepc
  | 0x013 => t.tinfo
  | 0x014 => t.bst
  | 0x015 => t.fst
  | 0x140 => BitVec.ofNat 64 (s.fn t.fn).vrec
  | 0x141 => BitVec.ofNat 64 (s.fn t.fn).vcoll
  | 0x142 => BitVec.ofNat 64 (s.fn t.fn).veag
  | 0x143 => BitVec.ofNat 64 (s.fn t.fn).vmln
  | 0x144 => BitVec.ofNat 64 (s.fn t.fn).vhot
  | 0x145 => BitVec.ofNat 64 (s.fn t.fn).thr
  | _ => 0#64

/-- A register number above a slat's level (R103, R104); the device has no slat at machine level. -/
def aboveLevel (level n : Nat) : Bool := decide (0x400 ≤ n) || (decide (0x100 ≤ n) && level == 0)

/-- SRD (R103, R104, R109): the control register; PRIV for one above the slat's level, with no write of the clause kept. -/
def execSrd (o : IOp) (s : State) : Out :=
  scaDo s o.h [] (fun t u =>
    let n := o.imm.toNat
    if aboveLevel t.level n then s.abortAlu t u (u.cause 3 1 0#32)
    else s.advance (t.sput o.dst.toNat (s.special t u n) false) u)

/-- SWR (R103, R104, R109): %slim, %tvec, %tepc hold what is written; a settle write waits for the clause's commit (R329). -/
def execSwr (o : IOp) (s : State) : Out :=
  scaDo s o.h [o.a] (fun t u =>
    let n := o.imm.toNat
    let a := (t.srcS o.a).1
    if aboveLevel t.level n then s.abortAlu t u (u.cause 3 1 0#32)
    else match n with
      | 0x00B => s.advance { t with slim := a } u
      | 0x010 => s.advance { t with tvec := a } u
      | 0x012 => s.advance { t with tepc := a } u
      | 0x150 => s.advance t { u with fres := u.fres ++ [a] }
      | _ => s.advance t u)

end Sys2Proof.Machine
end

