-- ==== Sys2Proof/Machine/VecInt.lean ====
section
/-! DEFINITION. The vector integer instructions (R120 to R132). -/

namespace Sys2Proof.Machine

/-- Operands read as signed: .i32 (0) and .i64 (2) (R122). -/
def isSigned (o : ROp) : Bool := o.m.fmt == 0#4 || o.m.fmt == 2#4

/-- The integer a word of n bits stands for. -/
def val {n : Nat} (sgn : Bool) (a : BitVec n) : Int := if sgn then a.toInt else (a.toNat : Int)

/-- An exact integer narrowed to n bits: clamped to the range, or its low bits (R70, R123). -/
def narrow (n : Nat) (sgn sat : Bool) (x : Int) : BitVec n :=
  if sat then
    let lo : Int := if sgn then -(2 ^ (n - 1) : Int) else 0
    let hi : Int := if sgn then (2 ^ (n - 1) : Int) - 1 else (2 ^ n : Int) - 1
    BitVec.ofInt n (max lo (min hi x))
  else BitVec.ofInt n x

/-- a + b + c or a - b - c, narrowed (R123). -/
def addSub {n : Nat} (o : ROp) (sub : Bool) (a b c : BitVec n) : BitVec n :=
  let g := isSigned o
  let x := if sub then val g a - val g b - val g c else val g a + val g b + val g c
  narrow n g (o.m.ovf == 1#2) x

/-- The high half of a product (R124). -/
def mulHi {n : Nat} (sgn : Bool) (a b : BitVec n) : BitVec n := BitVec.ofInt n (val sgn a * val sgn b / 2 ^ n)

/-- The lesser or greater operand (R125). -/
def pick {n : Nat} (sgn greater : Bool) (a b : BitVec n) : BitVec n := if (icomp sgn a b == .gt) == greater then a else b

/-- The absolute value (R125). -/
def absOf {n : Nat} (sat : Bool) (a : BitVec n) : BitVec n := narrow n true sat a.toInt.natAbs

/-- A Boolean function in algebraic normal form (R126). -/
def anf (k : BitVec 8) (a b c : W32) : W32 :=
  let t := fun (n : Nat) (x : W32) => if k.getLsbD n then x else 0#32
  t 0 0xFFFFFFFF#32 ^^^ t 1 a ^^^ t 2 b ^^^ t 3 c ^^^ t 4 (a &&& b) ^^^ t 5 (a &&& c) ^^^ t 6 (b &&& c) ^^^ t 7 (a &&& b &&& c)

/-- Left shift, 0 at the width or more (R127). -/
def shlBy {n : Nat} (a : BitVec n) (k : Nat) : BitVec n := if n ≤ k then 0 else a <<< k
/-- Logical right shift, 0 at the width or more (R127). -/
def shrBy {n : Nat} (a : BitVec n) (k : Nat) : BitVec n := if n ≤ k then 0 else a >>> k
/-- Arithmetic right shift, the sign at the width or more (R127). -/
def sarBy {n : Nat} (a : BitVec n) (k : Nat) : BitVec n := a.sshiftRight (min k (n - 1))
/-- Rotation left by the count modulo the width (R127). -/
def rotBy {n : Nat} (a : BitVec n) (k : Nat) : BitVec n := a.rotateLeft (k % n)

/-- A shift or rotate: 32 or 64 bits, the count always one 32-bit operand (R127). -/
def shiftOp (s : State) (o : ROp) (f : W32 → Nat → W32) (g : W64 → Nat → W64) : Out :=
  if wd o then vec64 s o.h o.dst [(o.a, 2), (o.b, 1)] (fun t u l => g (t.src64 o.a l) (t.src32 u o.b l).toNat)
  else vecN s o 2 (fun a b _ => f a b.toNat)

/-- The bits in reverse order (R128). -/
def revBits {n : Nat} (a : BitVec n) : BitVec n := BitVec.ofNat n ((List.range n).foldl (fun m i => 2 * m + (if a.getLsbD i then 1 else 0)) 0)

/-- Bit-field extraction (R129). -/
def bitExtract (sgn : Bool) (a b : W32) : W32 :=
  let pos := natField b.toNat 7 0
  let len := natField b.toNat 15 8
  if len = 0 ∨ 32 ≤ pos then 0
  else
    let n := min (pos + len) 32 - pos
    let f := a.toNat / 2 ^ pos % 2 ^ n
    if sgn then (BitVec.ofNat n f).signExtend 32 else BitVec.ofNat 32 f

/-- Bit-field insertion (R129). -/
def bitInsert (a b c : W32) : W32 :=
  let pos := natField b.toNat 7 0
  let len := natField b.toNat 15 8
  if len = 0 ∨ 32 ≤ pos then c
  else
    let n := min (pos + len) 32 - pos
    let m : W32 := BitVec.ofNat 32 ((2 ^ n - 1) * 2 ^ pos)
    (c &&& ~~~m) ||| ((a <<< pos) &&& m)

/-- One byte of a byte mix under its control byte (R130). -/
def mixByte (a b c : W32) (i : Nat) : Nat :=
  let ctl := c.toNat / 2 ^ (8 * i) % 256
  let k := ctl % 8
  let raw : Byte := if k < 4 then a.extractLsb' (8 * k) 8 else b.extractLsb' (8 * (k - 4)) 8
  let v := if ctl / 32 % 2 = 1 then revBits raw else raw
  match ctl / 8 % 4 with
  | 0 => v.toNat
  | 1 => 0
  | 2 => 0xFF
  | _ => if v.getLsbD 7 then 0xFF else 0

/-- The byte mix (R130). -/
def byteMix (a b c : W32) : W32 :=
  BitVec.ofNat 32 (mixByte a b c 0 + mixByte a b c 1 * 2 ^ 8 + mixByte a b c 2 * 2 ^ 16 + mixByte a b c 3 * 2 ^ 24)

/-- The extension iext makes of a 32-bit source, as 64 bits (R132). -/
def extend (fmt : Nat) (a : W32) : W64 :=
  match fmt with
  | 4 => zext64 (sext32 (a.extractLsb' 0 16))
  | 5 => zext64 (a.extractLsb' 0 16)
  | 6 => zext64 (sext32 (a.extractLsb' 0 8))
  | 7 => zext64 (a.extractLsb' 0 8)
  | 1 => zext64 a
  | _ => sext64 a

/-- MOV (R132): d = a. -/
def execMov (o : ROp) (s : State) : Out :=
  if wd o then vecNw s o 1 (fun a _ _ => a) else vecN s o 1 (fun a _ _ => a)

/-- IADD (R123): a + b + c, wrapping or saturating. -/
def execIadd (o : ROp) (s : State) : Out :=
  if wd o then vecNw s o 3 (fun a b c => addSub o false a b c) else vecN s o 3 (fun a b c => addSub o false a b c)

/-- ISUB (R123): a - b - c, wrapping or saturating. -/
def execIsub (o : ROp) (s : State) : Out :=
  if wd o then vecNw s o 3 (fun a b c => addSub o true a b c) else vecN s o 3 (fun a b c => addSub o true a b c)

/-- IADDC (R123): the carry out of a + b + c, 0 to 2. -/
def execIaddc (o : ROp) (s : State) : Out :=
  vecN s o 3 (fun a b c => BitVec.ofNat 32 ((a.toNat + b.toNat + c.toNat) / 2 ^ 32))

/-- ISUBB (R123): the borrow out of a - b - c, 0 to 2. -/
def execIsubb (o : ROp) (s : State) : Out :=
  vecN s o 3 (fun a b c => BitVec.ofInt 32 (-(((a.toNat : Int) - b.toNat - c.toNat) / 2 ^ 32)))

/-- IMUL (R124): the low half of the product. -/
def execImul (o : ROp) (s : State) : Out :=
  if wd o then vecNw s o 2 (fun a b _ => a * b) else vecN s o 2 (fun a b _ => a * b)

/-- IMULH (R124): the high half of the product. -/
def execImulh (o : ROp) (s : State) : Out :=
  if wd o then vecNw s o 2 (fun a b _ => mulHi (isSigned o) a b) else vecN s o 2 (fun a b _ => mulHi (isSigned o) a b)

/-- IMAD (R124): a × b + c. -/
def execImad (o : ROp) (s : State) : Out :=
  vecN s o 3 (fun a b c => a * b + c)

/-- IMIN (R125): the lesser operand. -/
def execImin (o : ROp) (s : State) : Out :=
  if wd o then vecNw s o 2 (fun a b _ => pick (isSigned o) false a b) else vecN s o 2 (fun a b _ => pick (isSigned o) false a b)

/-- IMAX (R125): the greater operand. -/
def execImax (o : ROp) (s : State) : Out :=
  if wd o then vecNw s o 2 (fun a b _ => pick (isSigned o) true a b) else vecN s o 2 (fun a b _ => pick (isSigned o) true a b)

/-- IABS (R125): the absolute value. -/
def execIabs (o : ROp) (s : State) : Out :=
  if wd o then vecNw s o 1 (fun a _ _ => absOf (o.m.ovf == 1#2) a) else vecN s o 1 (fun a _ _ => absOf (o.m.ovf == 1#2) a)

/-- LGF (R126): the three-input function whose coefficients are mod[7:0]. -/
def execLgf (o : ROp) (s : State) : Out :=
  vecN s o 3 (fun a b c => anf (o.m.bits.extractLsb' 0 8) a b c)

/-- SHL (R127). -/
def execShl (o : ROp) (s : State) : Out :=
  shiftOp s o shlBy shlBy

/-- SHR (R127). -/
def execShr (o : ROp) (s : State) : Out :=
  shiftOp s o shrBy shrBy

/-- SAR (R127). -/
def execSar (o : ROp) (s : State) : Out :=
  shiftOp s o sarBy sarBy

/-- ROT (R127). -/
def execRot (o : ROp) (s : State) : Out :=
  shiftOp s o rotBy rotBy

/-- CLZ (R128). -/
def execClz (o : ROp) (s : State) : Out :=
  vecN s o 1 (fun a _ _ => BitVec.ofNat 32 (leadZeros a))

/-- POP (R128). -/
def execPop (o : ROp) (s : State) : Out :=
  vecN s o 1 (fun a _ _ => BitVec.ofNat 32 (popCount a))

/-- BREV (R128). -/
def execBrev (o : ROp) (s : State) : Out :=
  vecN s o 1 (fun a _ _ => revBits a)

/-- BFX (R129): a bit field, sign-extended unless .u32. -/
def execBfx (o : ROp) (s : State) : Out :=
  vecN s o 2 (fun a b _ => bitExtract (isSigned o) a b)

/-- BFI (R129): a bit field inserted into c. -/
def execBfi (o : ROp) (s : State) : Out :=
  vecN s o 3 (fun a b c => bitInsert a b c)

/-- BMIX (R130). -/
def execBmix (o : ROp) (s : State) : Out :=
  vecN s o 3 (fun a b c => byteMix a b c)

/-- ICMP_SIGNED (R131). -/
def execIcmpSigned (o : ROp) (s : State) : Out :=
  icmp s o true

/-- ICMP_UNSIGNED (R131); fmt 0 compares 32 bits. (Log 12: DEDUCED.) -/
def execIcmpUnsigned (o : ROp) (s : State) : Out :=
  icmp s o false

/-- ICMP_SIGNED_I (R131). -/
def execIcmpSignedI (o : IOp) (s : State) : Out :=
  icmpImm s o true

/-- ICMP_UNSIGNED_I (R131): the sign-extended immediate read as unsigned. -/
def execIcmpUnsignedI (o : IOp) (s : State) : Out :=
  icmpImm s o false

/-- SEL (R131): a where the lane's bit of pK, named by the C field, reads true; else b. -/
def execSel (o : ROp) (s : State) : Out :=
  let k := o.c.bits.toNat % 8
  if wd o then vec64 s o.h o.dst (ROp.srcs o 2 2) (fun t _ l => if t.pget k l then t.src64 o.a l else t.src64 o.b l)
  else vec32 s o.h o.nw o.dst (ROp.srcs o 2 1) (fun t u l => if t.pget k l then t.src32 u o.a l else t.src32 u o.b l)

/-- IEXT (R132): a source of 8, 16 or 32 bits extended; the 32-bit sources give a pair. -/
def execIext (o : ROp) (s : State) : Out :=
  let f := o.m.fmt.toNat
  if 4 ≤ f then vecN s o 1 (fun a _ _ => (extend f a).truncate 32)
  else vec64 s o.h o.dst (ROp.srcs o 1 1) (fun t u l => extend f (t.src32 u o.a l))

/-- LI (R132): the sign-extended immediate. -/
def execLi (o : IOp) (s : State) : Out :=
  vec32 s o.h o.nw o.dst [] (fun _ _ _ => imm32 o)

/-- IADD_I (R123). -/
def execIaddI (o : IOp) (s : State) : Out :=
  vecI s o (fun a b => a + b)

/-- ISUB_I (R123). -/
def execIsubI (o : IOp) (s : State) : Out :=
  vecI s o (fun a b => a - b)

/-- IMUL_I (R124). -/
def execImulI (o : IOp) (s : State) : Out :=
  vecI s o (fun a b => a * b)

/-- SHL_I (R127): count 0 to 31. -/
def execShlI (o : IOp) (s : State) : Out :=
  vecI s o (fun a b => shlBy a b.toNat)

/-- SHR_I (R127): count 0 to 31. -/
def execShrI (o : IOp) (s : State) : Out :=
  vecI s o (fun a b => shrBy a b.toNat)

/-- SAR_I (R127): count 0 to 31. -/
def execSarI (o : IOp) (s : State) : Out :=
  vecI s o (fun a b => sarBy a b.toNat)

/-- ROT_I (R127): count 0 to 31. -/
def execRotI (o : IOp) (s : State) : Out :=
  vecI s o (fun a b => rotBy a b.toNat)

end Sys2Proof.Machine
end

