-- ==== Sys2Proof/Machine/VecFloat.lean ====
section
/-! DEFINITION. The vector float instructions and conversions (R69 to R73, R133 to R143). -/

namespace Sys2Proof.Machine

/-- An operand's value, a subnormal read as zero under .ftz (R66). -/
def fop (x : FFmt) (ftz : Bool) (bits : Nat) : FVal := fdec x (flushIn x ftz bits)

/-- A result rounded under an instruction's modifiers (R64 to R66, R71, R133). -/
def fres (x : FFmt) (m : Mod) (v : FVal) : Nat := (fround x m.rnd.toNat m.ovf.toNat m.ftz v).bits

/-- Zero of a constructor field: the modifiers of an I form (R50, R133). -/
def Mod.plain : Mod := ⟨8#4, 0#2, false, 0#2, 0#4⟩

/-- The lesser or greater of two values as bits (R135): −0 below +0, a NaN gives way, two NaNs give the canonical one. -/
def fpick (x : FFmt) (greater ftz : Bool) (a b : Nat) : Nat :=
  let a := flushIn x ftz a
  let b := flushIn x ftz b
  let u := fdec x a
  let v := fdec x b
  match fcompare u v with
  | none => if u = .nan then (if v = .nan then x.nanBits else b) else a
  | some .lt => if greater then b else a
  | some .gt => if greater then a else b
  | some .eq => if u.neg == greater then b else a

/-- a + b, a - b, a × b in a format under an instruction's modifiers (R134). -/
def faddOf (x : FFmt) (m : Mod) (a b : Nat) : Nat := fres x m (fsum m.rnd.toNat (fop x m.ftz a) (fop x m.ftz b))
/-- a - b (R134). -/
def fsubOf (x : FFmt) (m : Mod) (a b : Nat) : Nat := fres x m (fsum m.rnd.toNat (fop x m.ftz a) (fop x m.ftz b).negate)
/-- a × b (R134). -/
def fmulOf (x : FFmt) (m : Mod) (a b : Nat) : Nat := fres x m (fprod (fop x m.ftz a) (fop x m.ftz b))
/-- a × b + c, rounded once (R134). -/
def ffmaOf (x : FFmt) (m : Mod) (a b c : Nat) : Nat :=
  fres x m (fsum m.rnd.toNat (fprod (fop x m.ftz a) (fop x m.ftz b)) (fop x m.ftz c))

/-- A value rounded to an integral value (R137). -/
def integral (mode : Nat) (v : FVal) : FVal :=
  match v with
  | .fin n m e => .fin n (roundUnits mode n m e 0 false) 0
  | _ => v

/-- A value times 2^n (R137); beyond 600 either way the count changes no result. -/
def scaleBy (v : FVal) (n : Int) : FVal :=
  match v with
  | .fin s m e => .fin s m (e + max (-600) (min 600 n))
  | _ => v

/-- The class mask (R138). -/
def classOf (x : FFmt) (bits : Nat) : Nat :=
  match fdec x bits with
  | .nan => 256
  | .inf n => if n then 1 else 128
  | .fin n m _ =>
    if m = 0 then (if n then 8 else 16)
    else if m < 2 ^ x.f then (if n then 4 else 32)
    else if n then 2 else 64

/-- Bits of a format's element (R138). -/
def fbits (x : FFmt) (a : W32) : Nat := a.toNat % 2 ^ x.width

/-- Width and signedness of an integer format code (R48). -/
def ifmt (code : Nat) : Nat × Bool := (match code / 2 with
  | 0 => 32
  | 1 => 64
  | 2 => 16
  | _ => 8, decide (code % 2 = 0))

/-- A converted value: a float's exact value, or an integer's. -/
inductive CVal where
  | f (v : FVal)
  | i (z : Int)
  deriving DecidableEq, Repr

/-- The value of a conversion's source (R140); a64 is the operand read as 64 bits. -/
def cvtSrc (code : Nat) (ftz : Bool) (a : W32) (a64 : W64) : CVal :=
  if code < 8 then
    let (n, g) := ifmt code
    if n = 64 then .i (val g a64) else .i (val g (BitVec.ofNat n a.toNat))
  else .f (fop (ffmt code) ftz (fbits (ffmt code) a))

/-- Whether `.sat` clamps a conversion between integer formats (R70): one that narrows, and one of equal width that changes the sign, which
R70 does not name; one that widens never. (Log 74: DESIGN CHOICE.) -/
def intSat (src dst : Nat) (ovf : BitVec 2) : Bool := ovf == 1#2 && decide ((ifmt dst).1 ≤ (ifmt src).1)

/-- A value converted to an integer format (R70). -/
def toIntFmt (code mode : Nat) (sat : Bool) (v : CVal) : Nat :=
  let (n, g) := ifmt code
  match v with
  | .i z => (narrow n g sat z).toNat
  | .f .nan => 0
  | .f (.inf s) => (narrow n g true (if s then -(2 ^ 70 : Int) else (2 ^ 70 : Int))).toNat
  | .f (.fin s m e) => (narrow n g true (roundInt mode s m e)).toNat

/-- A value converted to a float format, and whether it overflowed (R69 to R71). -/
def toFloatFmt (code : Nat) (m : Mod) (v : CVal) : Rounded :=
  let x := ffmt code
  match v with
  | .i z => fround x m.rnd.toNat m.ovf.toNat m.ftz (FVal.ofInt z)
  | .f v => fround x m.rnd.toNat m.ovf.toNat m.ftz v

/-- The record value of an outlier (R73): the source as FP32. -/
def recordVal (v : CVal) : W32 :=
  match v with
  | .i z => toF32 (FVal.ofInt z)
  | .f v => toF32 v

/-- How a converted result fills its lane (R140). -/
def fillLane (code bits : Nat) : W32 :=
  match code with
  | 4 => sext32 (BitVec.ofNat 16 bits)
  | 6 => sext32 (BitVec.ofNat 8 bits)
  | _ => BitVec.ofNat 32 bits

/-- One element of a packed operand (R142). -/
def half (h : Nat) (a : W32) : Nat := a.toNat / 2 ^ (16 * h) % 2 ^ 16

/-- Two elements packed (R142). -/
def pack (lo hi : Nat) : W32 := BitVec.ofNat 32 (lo % 2 ^ 16 + hi * 2 ^ 16)

/-- A packed operation, element by element (R142). -/
def packed (f : Nat → Nat → Nat → Nat) (a b c : W32) : W32 :=
  pack (f (half 0 a) (half 0 b) (half 0 c)) (f (half 1 a) (half 1 b) (half 1 c))

/-- An FP32 operation on 32-bit lanes. -/
def lane32 (f : Nat → Nat → Nat → Nat) (a b c : W32) : W32 := BitVec.ofNat 32 (f a.toNat b.toNat c.toNat)

/-- The FP32 bits of a float I form's immediate (R50). -/
def fimm (o : IOp) : Nat := o.imm.toNat * 8

/-- A special function of one operand (R139). -/
def special1 (s : State) (o : ROp) (f : FVal → Approx) : Out :=
  vecN s o 1 (fun a _ _ => (f (fop fp32 o.m.ftz a.toNat)).round o.m.rnd.toNat o.m.ftz)

/-- FADD (R134): round(a + b). -/
def execFadd (o : ROp) (s : State) : Out :=
  vecN s o 2 (lane32 (fun a b _ => faddOf fp32 o.m a b))

/-- FSUB (R134): round(a - b). -/
def execFsub (o : ROp) (s : State) : Out :=
  vecN s o 2 (lane32 (fun a b _ => fsubOf fp32 o.m a b))

/-- FMUL (R134): round(a × b). -/
def execFmul (o : ROp) (s : State) : Out :=
  vecN s o 2 (lane32 (fun a b _ => fmulOf fp32 o.m a b))

/-- FFMA (R134): round(a × b + c). -/
def execFfma (o : ROp) (s : State) : Out :=
  vecN s o 3 (lane32 (fun a b c => ffmaOf fp32 o.m a b c))

/-- FMIN (R135). -/
def execFmin (o : ROp) (s : State) : Out :=
  vecN s o 2 (lane32 (fun a b _ => fpick fp32 false o.m.ftz a b))

/-- FMAX (R135). -/
def execFmax (o : ROp) (s : State) : Out :=
  vecN s o 2 (lane32 (fun a b _ => fpick fp32 true o.m.ftz a b))

/-- FCMP (R136): a lane predicate; under .uo a NaN makes it true. -/
def execFcmp (o : ROp) (s : State) : Out :=
  vecPred s o.h o.dst (ROp.srcs o 2 1) (fun t u l =>
    fcond (condOf o.dst) (o.m.sub.getLsbD 0) (fop fp32 o.m.ftz (t.src32 u o.a l).toNat) (fop fp32 o.m.ftz (t.src32 u o.b l).toNat))

/-- FRND (R137). -/
def execFrnd (o : ROp) (s : State) : Out :=
  vecN s o 1 (lane32 (fun a _ _ => (fround fp32 0 0 false (integral o.m.rnd.toNat (fop fp32 false a))).bits))

/-- FSCL (R137): round(a × 2^b). -/
def execFscl (o : ROp) (s : State) : Out :=
  vecN s o 2 (fun a b _ => BitVec.ofNat 32 (fres fp32 o.m (scaleBy (fop fp32 o.m.ftz a.toNat) b.toInt)))

/-- FCLASS (R138): in the format of fmt. -/
def execFclass (o : ROp) (s : State) : Out :=
  let x := ffmt (if o.m.fmt = 0#4 then 8 else o.m.fmt.toNat)
  vecN s o 1 (fun a _ _ => BitVec.ofNat 32 (classOf x (fbits x a)))

/-- FRCP (R139): 1/a. -/
def execFrcp (o : ROp) (s : State) : Out :=
  special1 s o recipOf

/-- FRSQ (R139): 1/√a. -/
def execFrsq (o : ROp) (s : State) : Out :=
  special1 s o rsqrtOf

/-- FSQRT (R139): √a in the instruction's mode. -/
def execFsqrt (o : ROp) (s : State) : Out :=
  special1 s o sqrtOf

/-- FEX2 (R139): 2^a. -/
def execFex2 (o : ROp) (s : State) : Out :=
  special1 s o exp2Of

/-- FLG2 (R139): log₂ a. -/
def execFlg2 (o : ROp) (s : State) : Out :=
  special1 s o log2Of

/-- FSIN (R139). -/
def execFsin (o : ROp) (s : State) : Out :=
  special1 s o sinOf

/-- FCOS (R139). -/
def execFcos (o : ROp) (s : State) : Out :=
  special1 s o cosOf

/-- Whether an outlier list has room and is usable as the clause finds it (R141). -/
def State.outRoom (s : State) (t : Slat) (off : Nat) : Bool :=
  match s.desc t off with
  | .ok c a => s.descRoom c a
  | .bad _ _ => false

/-- A lane of an fcvt .out: its bits for now, and the record it owes where it overflows (R141). -/
def outLane (s : State) (t : Slat) (u : Issue) (o : ROp) (l : Nat) : (Nat × W32) × Option OutRec :=
  let v := cvtSrc o.m.sub.toNat o.m.ftz (t.src32 u o.a l) (t.src64 o.a l)
  let r := toFloatFmt 11 o.m v
  let off := (t.srcS o.b).1.toNat
  if r.ov then
    let x := recordVal v
    ((l, BitVec.ofNat 32 (if s.outRoom t off then 0 else e4Max (x.getLsbD 31))),
     some ⟨off, if o.nw then none else some o.dst.toNat, u.pos, l, t.src32 u o.c l, x⟩)
  else ((l, BitVec.ofNat 32 r.bits), none)

/-- FCVT (R69 to R71, R140, R141): from the format of sub to the format of fmt. -/
def execFcvt (o : ROp) (s : State) : Out :=
  let src := o.m.sub.toNat
  let dst := o.m.fmt.toNat
  let n := if src = 2 ∨ src = 3 then 2 else 1
  if dst = 11 ∧ o.m.ovf = 3#2 then
    vecDo s o.h [(o.a, n), (o.b, 1), (o.c, 1)] (fun t u ls =>
      let rs := ls.map (outLane s t u o)
      let (t', u') := putRes t u o.nw o.dst.toNat (rs.map Prod.fst)
      (t', { u' with outs := u'.outs ++ rs.filterMap Prod.snd }))
  else if dst = 2 ∨ dst = 3 then
    vec64 s o.h o.dst [(o.a, n)] (fun t u l =>
      BitVec.ofNat 64 (toIntFmt dst o.m.rnd.toNat (intSat src dst o.m.ovf) (cvtSrc src o.m.ftz (t.src32 u o.a l) (t.src64 o.a l))))
  else
    vec32 s o.h o.nw o.dst [(o.a, n)] (fun t u l =>
      let v := cvtSrc src o.m.ftz (t.src32 u o.a l) (t.src64 o.a l)
      fillLane dst (if dst < 8 then toIntFmt dst o.m.rnd.toNat (intSat src dst o.m.ovf) v else (toFloatFmt dst o.m v).bits))

/-- PFADD (R142). -/
def execPfadd (o : ROp) (s : State) : Out :=
  vecN s o 2 (packed (fun a b _ => faddOf (ffmt o.m.fmt.toNat) o.m a b))

/-- PFMUL (R142). -/
def execPfmul (o : ROp) (s : State) : Out :=
  vecN s o 2 (packed (fun a b _ => fmulOf (ffmt o.m.fmt.toNat) o.m a b))

/-- PFFMA (R142). -/
def execPffma (o : ROp) (s : State) : Out :=
  vecN s o 3 (packed (fun a b c => ffmaOf (ffmt o.m.fmt.toNat) o.m a b c))

/-- PFCVT (R143): packed and unpacked forms, by source and destination format. -/
def execPfcvt (o : ROp) (s : State) : Out :=
  let src := ffmt o.m.sub.toNat
  let cvt := fun (x : Nat) => fres (ffmt o.m.fmt.toNat) o.m (fop src o.m.ftz x)
  if o.m.sub = 8#4 then vecN s o 2 (fun a b _ => pack (cvt a.toNat) (cvt b.toNat))
  else if o.m.fmt = 8#4 then
    vec64 s o.h o.dst (ROp.srcs o 1 1) (fun t u l =>
      let a := t.src32 u o.a l
      BitVec.ofNat 64 (cvt (half 1 a) * 2 ^ 32 + cvt (half 0 a)))
  else if o.m.sub = 11#4 ∨ o.m.sub = 12#4 then vecN s o 1 (fun a _ _ => pack (cvt (a.toNat % 256)) (cvt (a.toNat / 256 % 256)))
  else vecN s o 1 (fun a _ _ => BitVec.ofNat 32 (cvt (half 0 a) + cvt (half 1 a) * 256))

/-- FADD_I (R133, R134). -/
def execFaddI (o : IOp) (s : State) : Out :=
  vec32 s o.h o.nw o.dst [(o.a, 1)] (fun t u l => BitVec.ofNat 32 (faddOf fp32 Mod.plain (t.src32 u o.a l).toNat (fimm o)))

/-- FSUB_I (R133, R134). -/
def execFsubI (o : IOp) (s : State) : Out :=
  vec32 s o.h o.nw o.dst [(o.a, 1)] (fun t u l => BitVec.ofNat 32 (fsubOf fp32 Mod.plain (t.src32 u o.a l).toNat (fimm o)))

/-- FMUL_I (R133, R134). -/
def execFmulI (o : IOp) (s : State) : Out :=
  vec32 s o.h o.nw o.dst [(o.a, 1)] (fun t u l => BitVec.ofNat 32 (fmulOf fp32 Mod.plain (t.src32 u o.a l).toNat (fimm o)))

/-- FMIN_I (R135). -/
def execFminI (o : IOp) (s : State) : Out :=
  vec32 s o.h o.nw o.dst [(o.a, 1)] (fun t u l => BitVec.ofNat 32 (fpick fp32 false false (t.src32 u o.a l).toNat (fimm o)))

/-- FMAX_I (R135). -/
def execFmaxI (o : IOp) (s : State) : Out :=
  vec32 s o.h o.nw o.dst [(o.a, 1)] (fun t u l => BitVec.ofNat 32 (fpick fp32 true false (t.src32 u o.a l).toNat (fimm o)))

end Sys2Proof.Machine
end

