-- ==== Sys2Proof/Machine/LaneOps.lean ====
section
/-! DEFINITION. The lane-exchange instructions (R77, R145 to R154). -/

namespace Sys2Proof.Machine

/-- First lane of a lane's tile of width w (R145). -/
def tileBase (w l : Nat) : Nat := l - l % w

/-- The lane a shuffle reads (R149). -/
def shufSrc (w mode n l : Nat) : Nat :=
  let i := l % w
  match mode with
  | 0 => tileBase w l + n % w
  | 1 => if n ≤ i then l - n else l
  | 2 => if i + n < w then l + n else l
  | _ => tileBase w l + (i ^^^ n % w)

/-- What a lane of the tile supplies to a shuffle (R147). -/
def Slat.supply (t : Slat) (u : Issue) (a : Src) (l : Nat) : W32 := if t.has l then t.src32 u a l else 0#32

/-- The active lanes of a lane's tile (R150). -/
def tileOf (w l : Nat) (ls : List Nat) : List Nat := ls.filter (fun k => tileBase w k == tileBase w l)

/-- The shape of the instructions whose result in a lane depends on its tile's active lanes. -/
def vecTile (s : State) (h : Hdr) (nw : Bool) (dst : BitVec 6) (srcs : List (Src × Nat)) (f : Slat → Issue → List Nat → Nat → W32) : Out :=
  vecDo s h srcs (fun t u ls => putRes t u nw dst.toNat (ls.map (fun l => (l, f t u (tileOf t.width l ls) l))))

/-- SHF (R148, R149): each lane reads its own lane operand. -/
def execShf (o : ROp) (s : State) : Out :=
  let from_ := fun (t : Slat) (u : Issue) (l : Nat) => shufSrc t.width (o.m.sub.toNat % 4) (t.src32 u o.b l).toNat l
  vecChk s o.h (fun t u l => t.marked o.b 1 l || (t.has (from_ t u l) && t.marked o.a 1 (from_ t u l)))
    (fun t u ls => putRes t u o.nw o.dst.toNat (ls.map (fun l => (l, t.supply u o.a (from_ t u l)))))

/-- SHF, I form (R148, R149): n is imm29[4:0] and the mode imm29[6:5]. -/
def execShfI (o : IOp) (s : State) : Out :=
  let from_ := fun (t : Slat) (l : Nat) => shufSrc t.width (natField o.imm.toNat 6 5) (natField o.imm.toNat 4 0) l
  vecChk s o.h (fun t _ l => t.has (from_ t l) && t.marked o.a 1 (from_ t l))
    (fun t u ls => putRes t u o.nw o.dst.toNat (ls.map (fun l => (l, t.supply u o.a (from_ t l)))))

/-- The predicate operand of a vote (R150). -/
def Slat.vote (t : Slat) (a : Src) (l : Nat) : Bool := t.pget (a.bits.toNat % 8) l != a.bits.getLsbD 3

/-- The shape of vall and vany (R150). -/
def votePred (s : State) (o : ROp) (f : List Nat → (Nat → Bool) → Bool) : Out :=
  vecDo s o.h [] (fun t u ls =>
    (t.pput (o.dst.toNat % 8) (laneMask ls) (laneMask (ls.filter (fun l => f (tileOf t.width l ls) (t.vote o.a)))), u))

/-- VALL (R150). -/
def execVall (o : ROp) (s : State) : Out := votePred s o (fun ks q => ks.all q)

/-- VANY (R150). -/
def execVany (o : ROp) (s : State) : Out := votePred s o (fun ks q => ks.any q)

/-- VBAL (R150). -/
def execVbal (o : ROp) (s : State) : Out :=
  vecTile s o.h o.nw o.dst [] (fun t _ ks _ => laneMask (ks.filter (t.vote o.a)))

/-- VMATCH (R151). -/
def execVmatch (o : ROp) (s : State) : Out :=
  vecTile s o.h o.nw o.dst [(o.a, 1)] (fun t u ks l => laneMask (ks.filter (fun k => t.src32 u o.a k == t.src32 u o.a l)))

/-- An operation of scan and lred (R152): op 0 add, 1 min, 2 max, 3 and, 4 or, 5 xor. -/
def scanOp (fmt op : Nat) (a b : W32) : W32 :=
  match op with
  | 0 => if fmt = 8 then f32add a b else a + b
  | 1 => if fmt = 8 then BitVec.ofNat 32 (fpick fp32 false false a.toNat b.toNat) else pick (fmt == 0) false a b
  | 2 => if fmt = 8 then BitVec.ofNat 32 (fpick fp32 true false a.toNat b.toNat) else pick (fmt == 0) true a b
  | 3 => a &&& b
  | 4 => a ||| b
  | _ => a ^^^ b

/-- The identity of an operation (R152). -/
def scanId (fmt op : Nat) : W32 :=
  match op with
  | 0 => if fmt = 8 then 0x80000000#32 else 0#32
  | 1 => if fmt = 8 then 0x7F800000#32 else if fmt = 0 then 0x7FFFFFFF#32 else 0xFFFFFFFF#32
  | 2 => if fmt = 8 then 0xFF800000#32 else if fmt = 0 then 0x80000000#32 else 0#32
  | 3 => 0xFFFFFFFF#32
  | _ => 0#32

/-- The inclusive scan of a tile's values, k doubling (R77); fuel bounds the doublings. -/
def scanTile (f : W32 → W32 → W32) (w : Nat) : Nat → Nat → List W32 → List W32
  | 0, _, xs => xs
  | fuel + 1, k, xs =>
    if w ≤ k then xs
    else scanTile f w fuel (2 * k) ((List.range w).map (fun i => if k ≤ i then f (xs.getD (i - k) 0) (xs.getD i 0) else xs.getD i 0))

/-- The reduction of a tile's values, k doubling (R77). -/
def redTile (f : W32 → W32 → W32) (w : Nat) : Nat → Nat → List W32 → W32
  | 0, _, xs => xs.getD 0 0
  | fuel + 1, k, xs =>
    if w ≤ k then xs.getD 0 0
    else redTile f w fuel (2 * k) ((List.range w).map (fun i => if i % (2 * k) = 0 then f (xs.getD i 0) (xs.getD (i + k) 0) else xs.getD i 0))

/-- The values of a lane's tile: an inactive lane supplies the identity (R147, R153). -/
def tileVals (t : Slat) (u : Issue) (a : Src) (e : W32) (ks : List Nat) (l : Nat) : List W32 :=
  (List.range t.width).map (fun i => if ks.contains (tileBase t.width l + i) then t.src32 u a (tileBase t.width l + i) else e)

/-- SCAN (R77, R152, R153): inclusive, or exclusive by sub[3]. -/
def execScan (o : ROp) (s : State) : Out :=
  let fmt := o.m.fmt.toNat
  let op := o.m.sub.toNat % 8
  vecTile s o.h o.nw o.dst [(o.a, 1)] (fun t u ks l =>
    let xs := scanTile (scanOp fmt op) t.width 6 1 (tileVals t u o.a (scanId fmt op) ks l)
    let i := l % t.width
    if o.m.sub.getLsbD 3 then (if i = 0 then scanId fmt op else xs.getD (i - 1) 0) else xs.getD i 0)

/-- LRED (R77, R152, R153). -/
def execLred (o : ROp) (s : State) : Out :=
  let fmt := o.m.fmt.toNat
  let op := o.m.sub.toNat % 8
  vecTile s o.h o.nw o.dst [(o.a, 1)] (fun t u ks l =>
    redTile (scanOp fmt op) t.width 6 1 (tileVals t u o.a (scanId fmt op) ks l))

/-- The two words of an intersection (R154). -/
def intersect (ks : List Nat) (a b : Nat → Nat) : W64 :=
  let top := fun (f : Nat → Nat) => ks.foldl (fun m k => max m (f k)) 0
  let mask := laneMask (ks.filter (fun j => ks.any (fun k => b k == a j)))
  let adva := (ks.filter (fun j => decide (a j ≤ top b))).length
  let advb := (ks.filter (fun k => decide (b k ≤ top a))).length
  BitVec.ofNat 64 ((adva + advb * 2 ^ 8 + popCount mask * 2 ^ 16) * 2 ^ 32 + mask.toNat)

/-- ISECT (R154): a pair, no latch. -/
def execIsect (o : ROp) (s : State) : Out :=
  vecDo s o.h [(o.a, 1), (o.b, 1)] (fun t u ls =>
    putRes64 t u o.dst.toNat (ls.map (fun l =>
      (l, intersect (tileOf t.width l ls) (fun k => (t.src32 u o.a k).toNat) (fun k => (t.src32 u o.b k).toNat)))))

end Sys2Proof.Machine
end

