-- ==== Sys2Proof/Machine/Mem.lean ====
section
/-! DEFINITION. Loads, stores, prefetches and atomics as they issue: addresses, places, entries (R46, R81, R91, R156, R157,
R165, R170 to R175, R192 to R195). What an entry does when it leaves its queue is in Paths. -/

namespace Sys2Proof.Machine

/-- Bytes of a width code (R46). -/
def wbytes (w : Nat) : Nat := 2 ^ w

/-- An offset operand of a lane (R156): vectors and constants sign-extended, scalars whole. -/
def Slat.ofs (t : Slat) (x : Src) (l : Nat) : W64 :=
  match x with
  | .v n => sext64 (t.vget n.toNat l)
  | .s n => t.sget n.toNat
  | .y _ => 0#64
  | .k n => sext64 (const32 t n.toNat l)

/-- The offset of a lane with the fixed part scaled by the width (R156). -/
def MOp.ofsOf (o : MOp) (t : Slat) (l : Nat) : W64 := t.ofs o.off l + sext64 o.imm * BitVec.ofNat 64 (wbytes o.width.toNat)

/-- A global place through a translation register (R156, R157). -/
def Slat.globLoc (t : Slat) (bn : BitVec 4) (ofs : W64) : Loc :=
  let b := t.bget bn.toNat
  match b.res with
  | some r => if 0 ≤ ofs.toInt ∧ ofs.toInt < (r.limit : Int) then .glob (b.vbase + ofs) (some (r.pbase + ofs.toNat, r.perm)) else .glob (b.vbase + ofs) none
  | none => .glob (b.vbase + ofs) none

/-- The team and rank a peer selector names (R170). -/
def State.peer (s : State) (t : Slat) (sel : W64) : Option (Nat × Nat) :=
  match s.team? t.team with
  | none => none
  | some m =>
    let x := sel.toNat
    let rank := natField x 3 0
    let gr := natField x 11 8
    if natField x 63 16 ≠ 0 ∨ natField x 14 12 ≠ 0 ∨ natField x 7 4 ≠ 0 then none
    else if x.testBit 15 then
      if m.gang = 0 ∨ m.gang ≤ gr then none
      else match (s.gang m).find? (fun y => y.grank == gr) with
        | some y => if rank < y.cores.length then some (y.uid, rank) else none
        | none => none
    else if gr ≠ 0 ∨ m.cores.length ≤ rank then none
    else some (m.uid, rank)

/-- Where a memory operand lies: global, the own share, a peer's share (R170, R202). -/
inductive Space where
  | glob | own | peer
  deriving DecidableEq, Repr

/-- The place of a lane (R156, R157, R170). -/
def State.locOf (s : State) (t : Slat) (sp : Space) (bn : BitVec 4) (ofs : W64) : Loc :=
  match sp with
  | .glob => t.globLoc bn ofs
  | .own => .spad t.team (s.rank t) ofs.toNat
  | .peer => match s.peer t (t.sget bn.toNat) with
    | some (team, rank) => .spad team rank ofs.toNat
    | none => .badSel ofs.toNat

/-- The lines of the walk that the first use of an unresolved translation register makes for its own pointer, where no TLB answers (R106). -/
def State.useWalks (s : State) (t : Slat) (sp : Space) (bn : BitVec 4) : List Nat :=
  let b := t.bget bn.toNat
  if sp ≠ .glob ∨ b.res.isSome ∨ !canonical b.vbase then [] else s.walksFor t.core t.ctx t.part [b.vbase]

/-- The first use of an unresolved translation register resolves it for later instructions where its own pointer translates
(R106). -/
def State.useB (s : State) (t : Slat) (sp : Space) (bn : BitVec 4) : Slat × State :=
  let b := t.bget bn.toNat
  if sp ≠ .glob ∨ b.res.isSome ∨ !canonical b.vbase then (t, s)
  else
    let ws := s.useWalks t sp bn
    match s.lookup t.core t.ctx t.part b.vbase with
    | (.leaf e size, s) => (t.bput bn.toNat ⟨b.vbase, t.resolveB (leafEnt t.ctx t.part b.vbase e size) b.vbase⟩, s.hubFree true ws)
    | (_, s) => (t, s.hubFree true ws)

/-- A lane that has not left its queue. -/
def queuedLane (l : Nat) (x : Loc) : Lane := ⟨l, x, none, .queued⟩

/-- Whether a clamp or memory operand of a slat is marked: its offset, and the selector of a peer (R175). -/
def Slat.addrMarked (t : Slat) (o : MOp) (sp : Space) (l : Nat) : Bool :=
  t.marked o.off 1 l || (sp == .peer && t.marked (.s (o.bn.setWidth 6)) 1 l)

/-- What an M-format instruction places: its path and what its entries do, the lanes that execute, each lane's offset, sources
and data read at issue, the markers around its entries. -/
structure Plan where
  path : Path
  op : Slat → EOp
  lanes : Slat → Issue → List Nat
  ofs : Slat → Nat → W64
  srcs : List Src
  data : Slat → Nat → Option Nat
  pre : Slat → List (List Path × Marker)
  post : Slat → List (List Path × Marker)

/-- An M-format instruction that places one entry for each line its lanes touch (R81): lanes, waits at issue (R54, R165),
operands consumed (R175), the walk for its translation register, which it waits for (R106), entries and the markers around them; then what the
slat does beside. -/
def memIssue (s : State) (o : MOp) (sp : Space) (p : Plan) (after : State → Nat → State) : Out :=
  onFrag s fun t u =>
    let ls := p.lanes t u
    if ls.isEmpty then s.advance t u
    else if t.logFull || t.ctrFull (ctrOf o.ctr) then s.hold t u
    else
      let bad := ls.filter (fun l => t.addrMarked o sp l || p.srcs.any (fun x => t.marked x 1 l))
      if !bad.isEmpty then s.poisoned t u (laneMask bad)
      else if !(s.hubOk true (s.useWalks t sp o.bn)) then (s.hubAsk true t.fn t.part (s.useWalks t sp o.bn)).hold t u
      else
        let xs := ls.map (fun l => { queuedLane l (s.locOf t sp o.bn (p.ofs t l)) with data := p.data t l })
        let (t1, s1) := s.useB t sp o.bn
        after (s1.issueEnts t1 u (ctrOf o.ctr) (p.pre t) ((byLine xs).map (fun g => ⟨[p.path], p.op t, g⟩)) (p.post t)) t.uid

/-- Nothing beside. -/
def noMore (s : State) (_ : Nat) : State := s

/-- The lanes of a P-kind instruction. -/
def pLanes (h : Hdr) (t : Slat) (u : Issue) : List Nat := t.active u h
/-- The one access of a Q-kind instruction, as lane 0. (Log 13: DEDUCED.) -/
def qLanes (h : Hdr) (t : Slat) (_u : Issue) : List Nat := if t.qHolds h then [0] else []

/-- No markers. -/
def noMarks (_ : Slat) : List (List Path × Marker) := []

/-- A load or store on ls, its kind of lanes and entry. -/
def lsIssue (s : State) (o : MOp) (sp : Space) (lanes : Slat → Issue → List Nat) (op : EOp) : Out :=
  memIssue s o sp ⟨.ls, fun _ => op, lanes, MOp.ofsOf o, [], fun _ _ => none, noMarks, noMarks⟩ noMore

/-- LD (R172, R173). -/
def execLd (o : MOp) (s : State) : Out := lsIssue s o .glob (pLanes o.h) (.load o.width.toNat false o.dst.toNat o.h.hint.toNat)
/-- ST (R172, R173). -/
def execSt (o : MOp) (s : State) : Out := lsIssue s o .glob (pLanes o.h) (.store o.width.toNat false o.data o.h.hint.toNat)
/-- LDS (R170, R173). -/
def execLds (o : MOp) (s : State) : Out := lsIssue s o .own (pLanes o.h) (.load o.width.toNat false o.dst.toNat 0)
/-- STS (R170, R173). -/
def execSts (o : MOp) (s : State) : Out := lsIssue s o .own (pLanes o.h) (.store o.width.toNat false o.data 0)
/-- LDP (R170, R173): [36:33] names the selector. -/
def execLdp (o : MOp) (s : State) : Out := lsIssue s o .peer (pLanes o.h) (.load o.width.toNat false o.dst.toNat 0)
/-- STP (R170, R173). -/
def execStp (o : MOp) (s : State) : Out := lsIssue s o .peer (pLanes o.h) (.store o.width.toNat false o.data 0)
/-- SLD (R172, R173): once for the slat, to a scalar register. -/
def execSld (o : MOp) (s : State) : Out := lsIssue s o .glob (qLanes o.h) (.load o.width.toNat true o.dst.toNat o.h.hint.toNat)
/-- SST (R172, R173). -/
def execSst (o : MOp) (s : State) : Out := lsIssue s o .glob (qLanes o.h) (.store o.width.toNat true o.data o.h.hint.toNat)
/-- PREF (R174). A marked offset operand is consumed as by any memory instruction (R175), although `pref` raises no fault of its access.
(Log 75: DEDUCED.) -/
def execPref (o : MOp) (s : State) : Out := lsIssue s o .glob (pLanes o.h) (.pref o.width.toNat o.h.hint.toNat)

/-- The scope of an atomic (R46). -/
def MOp.scope (o : MOp) : Nat := natField o.imm.toNat 10 8

/-- The marker of a kind at an atomic's scope (R89, R91). -/
def MOp.marker (s : State) (o : MOp) (rel : Bool) (t : Slat) : Marker :=
  { (if rel then relMark (s.scopeHome t (MOp.scope o)) else acqMark (s.scopeHome t (MOp.scope o))) with sys := MOp.scope o == 4 }

/-- An atomic: operation n, its entry between the markers its order places (R91, R192 to R195). -/
def atomicIssue (s : State) (o : MOp) (sp : Space) (n : Nat) : Out :=
  let ord := natField o.imm.toNat 7 6
  memIssue s o sp
    { path := .ls
      op := fun _ => .atomic n o.width.toNat (o.imm.getLsbD 5) (o.imm.getLsbD 4) o.dst.toNat o.data
      lanes := pLanes o.h
      ofs := fun t l => t.ofs o.off l
      srcs := []
      data := fun _ _ => none
      pre := fun t => if 2 ≤ ord then [([.ls], MOp.marker s o true t)] else []
      post := fun t => if ord % 2 = 1 then [([.ls], MOp.marker s o false t)] else [] } noMore

/-- ATM_ADD (R192, R194). -/
def execAtmAdd (o : MOp) (s : State) : Out := atomicIssue s o .glob 0
/-- ATM_MIN (R192, R194). -/
def execAtmMin (o : MOp) (s : State) : Out := atomicIssue s o .glob 1
/-- ATM_MAX (R192, R194). -/
def execAtmMax (o : MOp) (s : State) : Out := atomicIssue s o .glob 2
/-- ATM_AND (R192, R194). -/
def execAtmAnd (o : MOp) (s : State) : Out := atomicIssue s o .glob 3
/-- ATM_OR (R192, R194). -/
def execAtmOr (o : MOp) (s : State) : Out := atomicIssue s o .glob 4
/-- ATM_XOR (R192, R194). -/
def execAtmXor (o : MOp) (s : State) : Out := atomicIssue s o .glob 5
/-- ATM_XCHG (R192, R194). -/
def execAtmXchg (o : MOp) (s : State) : Out := atomicIssue s o .glob 6
/-- ATM_CAS (R192, R194). -/
def execAtmCas (o : MOp) (s : State) : Out := atomicIssue s o .glob 7
/-- ATM_FADD (R192, R194). -/
def execAtmFadd (o : MOp) (s : State) : Out := atomicIssue s o .glob 8
/-- ATM_FMAX (R192, R194). -/
def execAtmFmax (o : MOp) (s : State) : Out := atomicIssue s o .glob 9
/-- ATMS_ADD (R192, R194). -/
def execAtmsAdd (o : MOp) (s : State) : Out := atomicIssue s o .own 0
/-- ATMS_MIN (R192, R194). -/
def execAtmsMin (o : MOp) (s : State) : Out := atomicIssue s o .own 1
/-- ATMS_MAX (R192, R194). -/
def execAtmsMax (o : MOp) (s : State) : Out := atomicIssue s o .own 2
/-- ATMS_AND (R192, R194). -/
def execAtmsAnd (o : MOp) (s : State) : Out := atomicIssue s o .own 3
/-- ATMS_OR (R192, R194). -/
def execAtmsOr (o : MOp) (s : State) : Out := atomicIssue s o .own 4
/-- ATMS_XOR (R192, R194). -/
def execAtmsXor (o : MOp) (s : State) : Out := atomicIssue s o .own 5
/-- ATMS_XCHG (R192, R194). -/
def execAtmsXchg (o : MOp) (s : State) : Out := atomicIssue s o .own 6
/-- ATMS_CAS (R192, R194). -/
def execAtmsCas (o : MOp) (s : State) : Out := atomicIssue s o .own 7
/-- ATMS_FADD (R192, R194). -/
def execAtmsFadd (o : MOp) (s : State) : Out := atomicIssue s o .own 8
/-- ATMS_FMAX (R192, R194). -/
def execAtmsFmax (o : MOp) (s : State) : Out := atomicIssue s o .own 9

end Sys2Proof.Machine
end

