-- ==== Sys2Proof/Machine/Accum.lean ====
section
/-! DEFINITION. The accumulate and tolerance instructions as they issue (R216 to R220). -/

namespace Sys2Proof.Machine

/-- ACC (R218): the lanes' values are read when the entry leaves, as store data is (R173). -/
def execAcc (o : MOp) (s : State) : Out :=
  memIssue s o .glob ⟨.ac, fun _ => .acc (o.width == 1#3) o.data, pLanes o.h, MOp.ofsOf o, [], fun _ _ => none, noMarks, noMarks⟩ noMore

/-- The FP32 bits of an operand in a lane of a memory instruction. -/
def Slat.dataBits (t : Slat) (x : Src) (l : Nat) : W32 :=
  match x with
  | .v n => t.vget n.toNat l
  | .s n => (t.sget n.toNat).truncate 32
  | .y _ => 0#32
  | .k n => const32 t n.toNat l

/-- LDT (R219): each lane's tolerance is read at issue. -/
def execLdt (o : MOp) (s : State) : Out :=
  memIssue s o .glob ⟨.ac, fun _ => .ldt (o.width == 1#3) o.dst.toNat, pLanes o.h, MOp.ofsOf o, [o.data],
    fun t l => some (t.dataBits o.data l).toNat, noMarks, noMarks⟩ noMore

/-- DRN (R220): line, region or all by [10:9]; the last has no offset operand. -/
def execDrn (o : MOp) (s : State) : Out :=
  let mode := natField o.imm.toNat 10 9
  if mode = 0 then
    memIssue s o .glob ⟨.ac, fun _ => .drn 0 0#64, qLanes o.h, fun t l => t.ofs o.off l, [], fun _ _ => none, noMarks, noMarks⟩ noMore
  else
    onFrag s fun t u =>
      if !t.qHolds o.h then s.advance t u
      else if t.logFull || t.ctrFull (ctrOf o.ctr) then s.hold t u
      else if mode = 1 ∧ t.marked o.off 1 0 then s.poisoned t u 0#32
      else s.issueEnts t u (ctrOf o.ctr) [] [⟨[.ac], .drn mode (t.ofs o.off 0), []⟩] []

/-- GRD (R220). -/
def execGrd (o : MOp) (s : State) : Out :=
  memIssue s o .glob ⟨.ac, fun _ => .grd o.dst.toNat, qLanes o.h, fun t l => t.ofs o.off l, [], fun _ _ => none, noMarks, noMarks⟩ noMore

/-- BND (R217): the descriptor's address and the region's number are read at issue. -/
def execBnd (o : ROp) (s : State) : Out :=
  scaDo s o.h [o.a, o.b] (fun t u =>
    s.issueEnts t u none [] [⟨[.ac], .bnd (t.srcS o.a).1 (t.srcS o.b).1, []⟩] [])

end Sys2Proof.Machine
end

