-- ==== Sys2Proof/Machine/Sync.lean ====
section
/-! DEFINITION. Fences, clamp instructions and the team barrier as they issue (R198, R201 to R205). -/

namespace Sys2Proof.Machine

/-- The paths a fence names (R60). -/
def fencePaths (m : Nat) : List Path :=
  ([(3, Path.ls), (4, .ac), (5, .cp), (6, .mx), (7, .xf)].filter (fun p => m.testBit p.1)).map Prod.snd

/-- Markers placed with no entry: the instruction moves on (R198). -/
def State.markers (s : State) (t : Slat) (u : Issue) (ms : List (List Path × Marker)) : State := s.issueEnts t u none ms [] []

/-- FEN (R90, R91, R95, R198): a release marker, an acquire marker, or both; the last writes %fst. -/
def execFen (o : ROp) (s : State) : Out :=
  scaDo s o.h (if o.m.bits.getLsbD 2 then [o.a] else []) (fun t u =>
    let m := o.m.bits.toNat
    let scope := natField m 12 10
    let home := s.scopeHome t scope
    let ps := fencePaths m
    let rel := m.testBit 8
    let acq := m.testBit 9
    let prom := if m.testBit 2 then some (t.srcS o.a).1 else none
    s.markers t u
      ((if rel then [(ps, { relMark home with sys := scope == 4, fst := !acq })] else [])
        ++ (if acq then [(ps, { acqMark home with sys := scope == 4, promote := prom, fst := true })] else [])))

/-- The space of a clamp operand (R202). -/
def clampSpace (o : MOp) : Space := match natField o.imm.toNat 10 9 with
  | 0 => .glob
  | 1 => .own
  | _ => .peer

/-- A clamp instruction: one entry on ls (R203); the clamp lies at bN + offset, or at an offset of a share (R202). -/
def clampIssue (s : State) (o : MOp) (k : Slat → ClampOp) (srcs : List Src) (pre post : List (List Path × Marker))
    (after : State → Nat → State) : Out :=
  memIssue s o (clampSpace o)
    { path := .ls
      op := fun t => .clamp (k t) (natField o.imm.toNat 10 9) (t.sget o.bn.toNat)
      lanes := qLanes o.h
      ofs := fun t l => t.ofs o.off l
      srcs := srcs
      data := fun _ _ => none
      pre := fun _ => pre
      post := fun _ => post } after

/-- A clamp instruction's data operand (R202). -/
def clampData (t : Slat) (o : MOp) : Nat := (t.ofs o.data 0).toNat

/-- CLMI (R203). -/
def execClmi (o : MOp) (s : State) : Out :=
  clampIssue s o (fun t => .init (natField (clampData t o) 31 0) (natField (clampData t o) 47 32)) [o.data] [] [] noMore

/-- CLMX (R203). -/
def execClmx (o : MOp) (s : State) : Out :=
  clampIssue s o (fun t => .expect (natField (clampData t o) 31 0)) [o.data] [] [] noMore

/-- CLMA (R96, R203): a device-scope release on ls, ac and cp, then the arrival. -/
def execClma (o : MOp) (s : State) : Out :=
  clampIssue s o (fun _ => .arrive) [] [([.ls, .ac, .cp], relMark true)] [] noMore

/-- The slat parked at its current clause, which goes on when it wakes (R201, R205). -/
def State.parked (s : State) (uid : Nat) (p : Park) (arg : W64) : State :=
  { s.modSlat uid (fun t => { t with park := p, parkArg := arg }) with focus := none }

/-- CLMW (R201, R203): the slat goes on when the read of the clamp, or a later step on it, lets it. (Log 30: DEDUCED.) -/
def execClmw (o : MOp) (s : State) : Out :=
  clampIssue s o (fun t => .wait (natField (clampData t o) 15 0)) [o.data] [] [] (fun s uid => s.parked uid .clmw 0#64)

/-- CLMT (R203): qK when its read returns; a device-scope acquire on all five paths after it. -/
def execClmt (o : MOp) (s : State) : Out :=
  clampIssue s o (fun t => .test (o.dst.toNat % 8) (natField (clampData t o) 15 0)) [o.data] [] [(allPaths, acqMark true)] noMore

/-- TBAR (R96, R205): a release at .tm on ls, ac and cp; the slat parks, and arrives when that release completes. -/
def execTbar (o : ZOp) (s : State) : Out :=
  scaDo s o.h [] (fun t u =>
    (s.markers t u [([.ls, .ac, .cp], relMark (s.scopeHome t 1))]).parked t.uid .tbar (BitVec.ofNat 64 (s.next + 1)))

end Sys2Proof.Machine
end

