-- ==== Sys2Proof/Machine/Leave.lean ====
section
/-! DEFINITION. Entries of ls and ac as they leave their queue (R82 to R86, R88, R161 to R166, R170 to R175, R190, R196,
R203, R204, R217 to R221). -/

namespace Sys2Proof.Machine

/-- A physical address as far as the TLBs and tables tell, with its page's permissions. -/
def State.peekPa (s : State) (t : Slat) (va : W64) : Option (Nat × Perm) :=
  if !canonical va then none
  else match (s.lookup t.core t.ctx t.part va).1 with
    | .leaf e size => some (tagged t.part (pteFrame e + va.toNat % size), ptePerm e)
    | _ => none

/-- The physical place of a lane, where it has one. -/
def State.lanePa (s : State) (t : Slat) (x : Loc) : Option (Nat × Perm) :=
  match x with
  | .glob _ (some p) => some p
  | .glob va none => s.peekPa t va
  | _ => none

/-- Two lanes to the same line (R82). -/
def State.sameLine (s : State) (t : Slat) (a b : Loc) : Bool :=
  a.line == b.line || (match s.lanePa t a, s.lanePa t b with
    | some p, some q => p.1 / 128 == q.1 / 128
    | _, _ => false)

/-- An entry to a mailbox line (R82, R98). -/
def State.entMail (s : State) (t : Slat) (e : QEnt) : Bool := e.mail || e.lanes.any (fun x => (s.lanePa t x.loc).elim false (fun p => p.2.mail))

/-- An entry that blocks every younger entry of its paths: a marker, or a bnd (R82, R217). -/
def EOp.blocks : EOp → Bool
  | .marker _ => true
  | .bnd _ _ => true
  | _ => false

/-- The virtual ranges a copy names: those it reads and writes (R233); what a transform reads is at most four times what it
writes. -/
def CopyOps.ranges (c : CopyOps) : List (W64 × Nat) :=
  let n := min c.n.toNat (2 ^ 32)
  match c.op with
  | 2 => [(c.s, 4 * n), (c.d, n), (c.e, 32)]
  | 3 => [(c.s, n)]
  | 4 => [(c.s, n)]
  | 5 => [(c.d, n)]
  | 6 => [(c.d, n)]
  | 7 => [(c.s, 1)]
  | _ => [(c.s, n), (c.d, n)]

/-- The virtual ranges of a whole entry: a copy's, or the local range of a fabric transfer. -/
def EOp.ranges : EOp → List (W64 × Nat)
  | .copy c => c.ranges
  | .xfer x => [(if x.op = 2 then x.d else x.s, min x.n.toNat 65536)]
  | _ => []

/-- First and last lines of some range: virtual (0, 0), physical (1, 0), or of the share of a rank of a team (2, 16 team + rank). -/
abbrev Span := (Nat × Nat) × Nat × Nat

/-- The lines of a virtual range, as they stand and as far as its pages translate. -/
def State.spans (s : State) (t : Slat) (r : W64 × Nat) : List Span :=
  ((0, 0), r.1.toNat / 128, (r.1.toNat + r.2 - 1) / 128) ::
    (s.pagesOf t.ctx t.part r.1 r.2).filterMap (fun p =>
      (s.peekPa t (r.1 + BitVec.ofNat 64 p.1)).map (fun a => ((1, 0), a.1 / 128, (a.1 + p.2 - 1) / 128)))

/-- The team a peer-set word selects, and its ranks, where the word is valid (R241, R170). -/
def State.peerSet (s : State) (t : Slat) (w : W64) : Option (Team × List Nat) :=
  let n := w.toNat
  let gang := n.testBit 31
  let gr := natField n 27 24
  let team := match s.team? t.team with
    | none => none
    | some m => if gang then (if m.gang = 0 ∨ m.gang ≤ gr then none else (s.gang m).find? (fun (y : Team) => y.grank == gr))
                else if gr = 0 then some m else none
  match team with
  | none => none
  | some m =>
    let ranks := natField n 15 0
    if natField n 63 50 ≠ 0 ∨ natField n 29 28 ≠ 0 ∨ natField n 23 16 ≠ 0 ∨ ranks = 0 ∨ 2 ^ m.cores.length ≤ ranks
        ∨ (n.testBit 30 ∧ natField n 49 32 ≠ 0) then none
    else some (m, upTo 16 ranks.testBit)

/-- The shares that a copy writes, as (team, rank) (R240, R241). -/
def State.shareDsts (s : State) (t : Slat) (c : CopyOps) : List (Nat × Nat) :=
  match c.op with
  | 3 => [(t.team, s.rank t)]
  | 4 => (s.peerSet t c.e).elim [] (fun p => p.2.map (fun r => (p.1.uid, r)))
  | _ => []

/-- The lines that a whole entry names (R233, R303), the clamps that a cpym counts at among them (R241). -/
def State.entSpans (s : State) (t : Slat) (op : EOp) : List Span :=
  (op.ranges.map (s.spans t)).flatten ++ (match op with
    | .copy c =>
      let coff := natField c.e.toNat 49 32
      (s.shareDsts t c).map (fun x => ((2, 16 * x.1 + x.2), c.d.toNat / 128, (c.d.toNat + min c.n.toNat (2 ^ 18) - 1) / 128))
        ++ (if c.op = 4 ∧ c.e.toNat.testBit 30 = false then (s.shareDsts t c).map (fun x => ((2, 16 * x.1 + x.2), coff / 128, (coff + 15) / 128)) else [])
    | _ => [])

/-- Two transfers to one peer, which leave in issue order (R303). -/
def samePeer (e f : QEnt) : Bool :=
  match e.op, f.op with
  | .xfer x, .xfer y => x.key == y.key
  | _, _ => false

/-- An entry that takes its bytes at its home: it has left its queue when the home has served it (R82, R83). -/
def EOp.reads : EOp → Bool
  | .load _ _ _ _ => true
  | .ldt _ _ => true
  | .clamp (.wait _) _ _ => true
  | .clamp (.test _ _) _ _ => true
  | .copy c => c.op == 7
  | _ => false

/-- A lane that has not left its queue (R82, R83). -/
def QEnt.waits (e : QEnt) (x : Lane) : Bool := x.st != .sent || e.op.reads

/-- Two copies or transfers of a slat name one line, or go to one peer, and the older has not left its queue (R82, R233, R303). -/
def State.rangeClash (s : State) (t : Slat) (e f : QEnt) : Bool :=
  (f.lanes.isEmpty || f.op.reads) && (samePeer e f
    || (s.entSpans t e.op).any (fun x => (s.entSpans t f.op).any (fun y =>
      x.1 == y.1 && decide (x.2.1 ≤ y.2.2) && decide (y.2.1 ≤ x.2.2))))

/-- An older entry keeps another in its queue (R82, R88). A `drn` of a region or of all records names no line: none keeps it back but
a marker, a `bnd` and its own draining records. (Log 76: DESIGN CHOICE.) -/
def State.blockedBy (s : State) (t : Slat) (e f : QEnt) : Bool :=
  let path := e.paths.any (fun p => f.paths.contains p)
  (path && f.op.blocks)
    || (path && e.lanes.any (fun x => x.st == .queued && f.lanes.any (fun y => f.waits y && s.sameLine t x.loc y.loc)))
    || (path && s.rangeClash t e f)
    || (s.entMail t f && s.entMail t e)

/-- The entries before one in its slat's order. -/
def Slat.older (t : Slat) (e : QEnt) : List QEnt := t.queue.takeWhile (fun f => f.seq != e.seq)

/-- The records a drn drains (R220). -/
def State.drnRecs (s : State) (t : Slat) (mode : Nat) (arg : W64) (lanes : List Lane) : List DeltaRec :=
  (s.core t.core).recs.filter (fun r => match mode with
    | 0 => lanes.any (fun x => (s.lanePa t x.loc).elim false (fun p => p.1 / 128 == r.line))
    | 1 => r.ctx == t.ctx && r.region == arg.toNat
    | _ => r.ctx == t.ctx)

/-- An access that a draining record of the core holds in its queue (R213). -/
def State.heldByDrain (s : State) (t : Slat) (e : QEnt) : Bool :=
  let touched := e.lanes.any (fun x => x.st == .queued
    && (s.lanePa t x.loc).elim false (fun p => ((s.core t.core).rec? (p.1 / 128)).elim false DeltaRec.draining))
  match e.op with
  | .load _ _ _ _ => touched
  | .store _ _ _ _ => touched
  | .record _ => touched
  | .acc _ _ => touched
  | .ldt _ _ => touched
  | .grd _ => touched
  | .drn mode arg => (s.drnRecs t mode arg e.lanes).any DeltaRec.draining
  | _ => false

/-- A marker never leaves: it completes. -/
def EOp.isMarker : EOp → Bool
  | .marker _ => true
  | _ => false

/-- An entry that may leave its queue now (R82). -/
def State.mayLeave (s : State) (t : Slat) (e : QEnt) : Bool :=
  !e.op.isMarker && e.tok.isNone && (e.lanes.isEmpty || e.lanes.any (fun x => x.st == .queued))
    && !((t.older e).any (fun f => s.blockedBy t e f)) && !(s.heldByDrain t e)

/-- A lane that passed every check (R161): its address in memory or in a core's banks, its page. -/
structure Passed where
  lane : Lane
  a : Nat
  bank : Option Nat
  perm : Perm
  deriving DecidableEq, Repr

/-- A lane routed to the fault service (R161). -/
structure Routed where
  lane : Lane
  kind : Nat
  why : Nat
  page : Nat
  size : Nat
  leaf : W64
  link : Nat
  deriving DecidableEq, Repr

/-- The fate of one lane (R161). -/
inductive LaneFate where
  | ok (p : Passed)
  | sync (code reason : Nat)
  | served (r : Routed)
  deriving DecidableEq, Repr

/-- The drawer links of a die that are not Down, ascending (R179). -/
def State.upLinks (s : State) (die : Nat) : List Nat := ((List.range 8).map (fun j => 8 * die + j)).filter (fun n => (s.link n).st != .down)

/-- The drawer link that carries a line (R179). -/
def State.routeOf (s : State) (line : Nat) : Option Nat :=
  let die := (s.sliceOf line).1
  let up := s.upLinks die
  let a := line * 128
  if up.isEmpty then none else up[(natField a 9 7 ^^^ natField a 20 18) % up.length]?

/-- The link that a line comes over: the one that its read has left on, else that of its route (R179, R187). -/
def State.linkFor (s : State) (line : Nat) : Option Nat :=
  match s.home.drawer.find? (fun d => d.line == line && !d.wr) with
  | some d => match d.sent with
    | some (n, _) => some n
    | none => s.routeOf line
  | none => s.routeOf line

/-- A line that only a link in Swap or Retrain could bring to its home: the link and the reason of R188. (Log 23: DEDUCED.) -/
def State.stalled (s : State) (line : Nat) : Option (Nat × Nat) :=
  if paRegion (line * 128) ≠ .drawer ∨ (s.held line).isSome ∨ (s.owner? line).isSome ∨ (s.dstOf line).isSome then none
  else match s.linkFor line with
    | none => none
    | some n => match (s.link n).st with
      | .swap => some (n, 1)
      | .retrain => some (n, 2)
      | _ => none

/-- What an entry's operation asks of its lanes: width, alignment, rights, the format it adds in (R161, R196, R204, R221); near says that
its core's own hold window and L1 may serve it. -/
structure Ask where
  width : Nat
  need : Need
  near : Bool
  access : Nat
  fmt : Option Bool
  deriving DecidableEq, Repr

/-- What each operation asks. -/
def EOp.ask : EOp → Ask
  | .load w _ _ _ => ⟨2 ^ w, ⟨true, false, false, if w = 4 then some 5 else none⟩, true, 0, none⟩
  | .store w _ _ _ => ⟨2 ^ w, ⟨false, true, false, if w = 4 then some 5 else none⟩, false, 1, none⟩
  | .record _ => ⟨8, Need.store, false, 1, none⟩
  | .pref w _ => ⟨2 ^ w, Need.load, false, 0, none⟩
  | .atomic _ w _ _ _ _ => ⟨2 ^ w, ⟨true, true, false, if w = 4 then some 5 else none⟩, false, 2, none⟩
  | .clamp k _ _ => match k with
    | .wait _ => ⟨16, ⟨true, false, false, some 6⟩, false, 0, none⟩
    | .test _ _ => ⟨16, ⟨true, false, false, some 6⟩, false, 0, none⟩
    | _ => ⟨16, ⟨false, true, false, some 6⟩, false, 2, none⟩
  | .acc bf _ => ⟨elemBytes bf, ⟨false, true, false, some 8⟩, false, 5, some bf⟩
  | .ldt bf _ => ⟨elemBytes bf, ⟨true, false, false, some 8⟩, true, 5, some bf⟩
  | _ => ⟨1, Need.load, false, 0, none⟩

/-- The live region of a context that holds an address (R210). -/
def State.regionOf (s : State) (ctx : Nat) (va : W64) : Option Region :=
  s.home.regions.find? (fun r => r.ctx == ctx && decide (r.base ≤ va.toNat) && decide (va.toNat < r.base + r.size))

/-- The region under which a core treats an access as bounded (R210). -/
def State.bounded (s : State) (t : Slat) (x : Loc) (p : Perm) : Option Region :=
  match x with
  | .glob va _ => if p.bnd then s.regionOf t.ctx va else none
  | _ => none

/-- A request that passes through the hold window (R84); the others only read. -/
def Req.viaHw (r : Req) : Bool :=
  match r.msg with
  | .read _ _ _ => false
  | .prefetch => false
  | .stat _ => false
  | .clamp (.wait _) _ => false
  | .clamp (.test _ _) _ => false
  | _ => true

/-- What a core has sent and no home or bank has applied, oldest first: entries that have exited its hold window and are not
applied yet, and those still in it (R83, R85: an entry leaves the window as it is applied). -/
def State.window (s : State) (core : Nat) : List Req :=
  s.home.reqs.filter (fun r => r.core == core && r.viaHw) ++ (s.core core).hw.map HwEnt.req

/-- The youngest byte of a window at an address (R83). -/
def winByte (w : List Req) (tgt : Tgt) (a : Nat) : Option Byte :=
  w.reverse.findSome? (fun r =>
    if r.tgt = tgt then match r.msg with
      | .write bs => (bs.reverse.find? (fun b => b.1 == a)).map Prod.snd
      | _ => none
    else none)

/-- What a lane takes from the hold window when it leaves (R83): its bytes with a mask above bit 128. -/
def captured (win : List Req) (tgt : Tgt) (a w : Nat) : Nat :=
  (List.range w).foldl (fun m k => match winByte win tgt (a + k) with
    | some b => m + b.toNat * 2 ^ (8 * k) + 2 ^ (128 + k)
    | none => m) 0

/-- All w bytes are in the hold window. -/
def allOwn (d w : Nat) : Bool := (List.range w).all (fun k => d.testBit (128 + k))

/-- Checks after check 8 that a chapter adds: the format of a region (R221), then the retraining fibre (R161), which an access that its
core serves does not meet. -/
def State.lateChecks (s : State) (t : Slat) (k : Ask) (x : Lane) (pa : Nat) (p : Perm) (va : W64) : LaneFate :=
  let wrong := match k.fmt, s.bounded t x.loc p with
    | some bf, some r => r.bf != bf
    | _, _ => false
  if wrong then .sync 6 7
  else if p.mail || (k.fmt.isSome && k.need.wr && ((s.core t.core).rec? (pa / 128)).isSome) then .ok ⟨x, pa, none, p⟩
  else match s.stalled (pa / 128) with
    | some (n, why) =>
      if k.near && (((s.core t.core).l1? (pa / 128)).isSome || allOwn (captured (s.window t.core) .mem pa k.width) k.width) then .ok ⟨x, pa, none, p⟩
      else
        let (page, size) := s.pageOf t.core t.ctx t.part va
        .served ⟨x, 3, why, page, size, 0, n⟩
    | none => .ok ⟨x, pa, none, p⟩

/-- The checks of one lane, in the order of R161; regen is the page after whose regeneration the entry is replayed (R167). -/
def State.checkLane (s : State) (t : Slat) (k : Ask) (regen : Option Nat) (x : Lane) : LaneFate × State :=
  match x.loc with
  | .badSel off => (if off % k.width ≠ 0 then .sync 4 1 else .sync 7 2, s)
  | .spad team rank off =>
    if off % k.width ≠ 0 then (.sync 4 1, s)
    else if (s.team? team).elim 0 Team.spad < off + k.width then (.sync 7 1, s)
    else match s.spadByte team rank off with
      | some (c, a) => (.ok ⟨x, a, some c, ⟨true, true, false, false⟩⟩, s)
      | none => (.sync 7 1, s)
  | .glob va direct =>
    if va.toNat % k.width ≠ 0 then (.sync 4 1, s)
    else
      let (f, s) := match direct with
        | some (pa, p) => (s.checkDirect k.need pa p, s)
        | none => s.check t.core t.ctx t.part t.level k.need va
      match f.againAt regen va with
      | .sync code reason => (.sync code reason, s)
      | .served kind why page size e => (.served ⟨x, kind, why, page, size, e, 0⟩, s)
      | .ok pa p => (s.lateChecks t k x pa p va, s)

/-- The fates of lanes in turn. -/
def State.checkLanes (s : State) (t : Slat) (k : Ask) (regen : Option Nat) : List Lane → List (Lane × LaneFate) × State
  | [] => ([], s)
  | x :: rest =>
    let (f, s) := s.checkLane t k regen x
    let (fs, s) := s.checkLanes t k regen rest
    ((x, f) :: fs, s)

/-- The lanes that passed. -/
def passedOf (fs : List (Lane × LaneFate)) : List Passed := fs.filterMap (fun f => match f.2 with
  | .ok p => some p
  | _ => none)

/-- The lanes that are routed. -/
def routedOf (fs : List (Lane × LaneFate)) : List Routed := fs.filterMap (fun f => match f.2 with
  | .served r => some r
  | _ => none)

/-- The mask of some lanes. -/
def lanesMask (ls : List Lane) : W32 := laneMask (ls.map Lane.l)

/-- An entry of a slat without some lanes, given up when it has none left. -/
def Slat.dropEntLanes (t : Slat) (seq : Nat) (gone : Lane → Bool) : Slat :=
  match t.qent? seq with
  | none => t
  | some e =>
    let e : QEnt := { e with lanes := e.lanes.filter (fun (x : Lane) => !(gone x)) }
    if e.lanes.isEmpty then t.abandonEnt e else t.setQent e

/-- A lane of an entry that faulted and keeps its place (R88). -/
def Slat.faultLane (t : Slat) (seq l : Nat) : Slat :=
  match t.qent? seq with
  | none => t
  | some e => t.setQent { e with lanes := e.lanes.map (fun (x : Lane) => if x.l == l && x.st == .queued then { x with st := .faulted } else x) }

/-- Lanes that faulted synchronously abandoned, with their causes (R164). Misaligned lanes of an access that is split, others of its entry
going on, keep their place, where they block, until the trap of their clause is taken (R88). (Log 65: DEDUCED.) -/
def Slat.syncFaults (t : Slat) (e : QEnt) (fs : List (Lane × LaneFate)) : Slat :=
  let split := e.lanes.any (fun x => x.st != .queued && x.st != .faulted) || fs.any (fun f => match f.2 with
    | .sync _ _ => false
    | _ => true)
  fs.foldl (fun (t : Slat) f => match f.2 with
    | .sync code reason =>
      let t1 := t.raise (e.cause code reason (1#32 <<< f.1.l))
      if code = 4 ∧ split ∧ !t.ended ∧ !(t.told.contains e.cid) then t1.faultLane e.seq f.1.l
      else t1.dropEntLanes e.seq (fun x => x.l == f.1.l && x.st == .queued)
    | _ => t) t

/-- Operations whose lanes are checked one by one (R161). -/
def EOp.lanewise : EOp → Bool
  | .load _ _ _ _ => true
  | .store _ _ _ _ => true
  | .atomic _ _ _ _ _ _ => true
  | .clamp _ _ _ => true
  | .acc _ _ => true
  | .ldt _ _ => true
  | _ => false

/-- The lines of the walk that a lane's check makes are at hand (R158, R179). -/
def State.walkReady (s : State) (t : Slat) (x : Loc) : Bool :=
  match x with
  | .glob va none => (s.walksFor t.core t.ctx t.part [va]).all s.present
  | _ => true

/-- The synchronous faults of an entry's lanes found, as far as their walks can be made, and those lanes abandoned (R164). -/
def State.syncCheck (s : State) (uid : Nat) (e : QEnt) : State :=
  match s.slat? uid with
  | none => s
  | some t =>
    let (fs, s1) := s.checkLanes t e.op.ask e.regen (e.lanes.filter (fun x => x.st == .queued && s.walkReady t x.loc))
    s1.modSlat uid (fun t => t.syncFaults e fs)

/-- The end of a clause: the synchronous faults of the lanes it has placed are known, so that its boundary reports the first of them
(R56, R164); then what ends any clause. (Log 67: DEDUCED.) -/
def State.clauseOver (s : State) (t : Slat) (u : Issue) : State :=
  let s1 := (t.queue.filter (fun e => e.cid == u.cid && e.op.lanewise)).foldl (fun (s : State) e => s.syncCheck t.uid e) s
  match s1.slat? t.uid with
  | some t1 => s1.clauseEnd t1 u
  | none => s1

/-- Lanes routed to the fault service logged under one token, or referred back at once (R165, R166, R328). All lanes of an
entry lie on one page. -/
def State.logLanes (s : State) (uid : Nat) (e : QEnt) (access : Nat) (rs : List Routed) : State :=
  match rs, s.slat? uid with
  | r :: _, some t =>
    let m := lanesMask (rs.map Routed.lane)
    let addr := match r.lane.loc with
      | .glob va _ => va
      | _ => 0#64
    match s.serve t r.kind access r.page r.size addr m r.leaf r.link with
    | (none, s) => s.modSlat uid (fun (t : Slat) =>
        (t.raise (e.cause 5 r.why m)).dropEntLanes e.seq (fun x => x.st == .queued && m.getLsbD x.l))
    | (some tok, s) => s.modSlat uid (fun (t : Slat) =>
        let t : Slat := { t with log := t.log ++ [(⟨e.seq, e.word, m, r.kind, tok, r.why, s.now, false⟩ : LogEntry)] }
        match t.qent? e.seq with
        | none => t
        | some e => t.setQent { e with
            lanes := e.lanes.map (fun (x : Lane) => if x.st == .queued && m.getLsbD x.l then { x with st := .logged } else x) })
  | _, _ => s

/-- Lanes marked as gone on their way. -/
def State.sendLanes (s : State) (uid seq : Nat) (ps : List Passed) (mail : Bool) : State :=
  s.modSlat uid (fun (t : Slat) => match t.qent? seq with
    | none => t
    | some e => t.setQent { e with
        mail := e.mail || mail
        lanes := e.lanes.map (fun (x : Lane) => if x.st == .queued && ps.any (fun p => p.lane.l == x.l) then { x with st := .sent } else x) })

/-- Lanes of an entry that no log entry names any more. -/
def Slat.logDone (t : Slat) (seq : Nat) (m : W32) : Slat :=
  { t with log := (t.log.map (fun l => if l.seq = seq then { l with lanes := l.lanes &&& ~~~m } else l)).filter (fun l => l.lanes != 0#32) }

/-- Lanes done: they leave their entry, which completes with its last one, and the log, if they waited there on their way (R187). -/
def State.doneLanes (s : State) (uid seq : Nat) (ls : List Nat) : State :=
  s.modSlat uid (fun (t : Slat) => match t.qent? seq with
    | none => t
    | some e =>
      let t := t.logDone seq (lanesMask (e.lanes.filter (fun (x : Lane) => x.st != .logged && ls.contains x.l)))
      let e : QEnt := { e with lanes := e.lanes.filter (fun (x : Lane) => !(x.st != .logged && ls.contains x.l)) }
      if e.lanes.isEmpty then t.finish e else t.setQent e)

/-- n registers of a lane as one number, the lowest first (R63, R173). -/
def Slat.vnum (t : Slat) (n k l : Nat) : Nat := (List.range k).foldl (fun m i => m + (t.vget (n + i) l).toNat * 2 ^ (32 * i)) 0

/-- Registers that a width takes (R172). -/
def wregs (w : Nat) : Nat := if w ≤ 2 then 1 else 2 ^ (w - 2)

/-- A data operand of a memory instruction in a lane, low bytes of the width (R173). -/
def Slat.memData (t : Slat) (x : Src) (w l : Nat) : Nat :=
  (match x with
    | .v n => t.vnum n.toNat (wregs w) l
    | .s n => (t.sget n.toNat).toNat
    | .y _ => 0
    | .k n => (const64 t n.toNat l).toNat) % 2 ^ (8 * 2 ^ w)

/-- The data an entry captures for a lane when it leaves or first tries to (R165, R173, R194): a cas takes its compare value
from the first half of its group. (Log 22: DEDUCED.) -/
def Slat.capture (t : Slat) (op : EOp) (l : Nat) : Option Nat :=
  match op with
  | .store w _ d _ => some (t.memData d w l)
  | .acc _ d => some (t.dataBits d l).toNat
  | .atomic 7 w _ _ _ (.v n) => some (t.vnum (n.toNat + wregs w) (wregs w) l + t.vnum n.toNat (wregs w) l * 2 ^ 128)
  | .atomic _ w _ _ _ d => some (t.memData d w l)
  | _ => none

/-- Whether the data an entry captures is marked (R175). -/
def Slat.captureMarked (t : Slat) (op : EOp) (l : Nat) : Bool :=
  match op with
  | .store w _ d _ => t.marked d (wregs w) l
  | .acc _ d => t.marked d 1 l
  | .atomic n w _ _ _ d => t.marked d (if n = 7 then 2 * wregs w else wregs w) l
  | _ => false

/-- The lanes of an instruction that have not been performed given up, those of one of its entries with the rest (R175). -/
def Slat.dropIns (t : Slat) (e : QEnt) : Slat :=
  let mine := fun (f : QEnt) => f.seq == e.seq || (e.ins != 0 && f.ins == e.ins)
  let gone := t.queue.filter mine
  let t := gone.foldl (fun (t : Slat) f => t.dropEntLanes f.seq (fun x => f.seq == e.seq || x.st != .sent)) t
  { t with log := t.log.filter (fun l => !(gone.any (fun f => f.seq == l.seq))) }

/-- A marked word that an entry on its way consumes: none of the lanes still to be performed is, and POISON is pending (R175, R398). -/
def State.poisonEnt (s : State) (t : Slat) (e : QEnt) (m : W32) : State :=
  s.modSlat t.uid (fun t => (if t.ended then t else t.raise (e.cause 0xA 1 m)).dropIns e)

/-- A line with a window's bytes over it, oldest first (R83). -/
def overlay (w : List Req) (line : Nat) (v : LineVal) : LineVal :=
  w.foldl (fun v r =>
    if r.tgt = .mem then match r.msg with
      | .write bs => v.put (bytesIn line bs)
      | _ => v
    else v) v

/-- A request of an entry. -/
def mkReq (t : Slat) (e : QEnt) (path : Path) (tgt : Tgt) (line hint : Nat) (mail : Bool) (msg : Msg) : Req :=
  { id := 0, uid := t.uid, seq := e.seq, path := path, core := t.core, ctx := t.ctx, fn := t.fn, part := t.part, tgt := tgt,
    line := line, hint := hint, mail := mail, msg := msg, st := .fresh }

/-- A request sent straight to its home (R84: entries that only read). -/
def State.send (s : State) (r : Req) : State :=
  let (id, s) := s.fresh
  s.modHome (fun h => { h with reqs := h.reqs ++ [{ r with id := id }] })

/-- A request put at the tail of its core's hold window (R84, R85). -/
def State.enterHw (s : State) (r : Req) : State :=
  let (id, s) := s.fresh
  s.modCore r.core (fun c => { c with hw := c.hw ++ [⟨s.now, { r with id := id }⟩] })

/-- A message of a core about a line that no entry stands for: drains, give-ups, replies. -/
def coreReq (core line : Nat) (r : DeltaRec) (fn part : Nat) (msg : Msg) : Req :=
  { id := 0, uid := 0, seq := 0, path := .ac, core := core, ctx := r.ctx, fn := fn, part := part, tgt := .mem, line := line, hint := 0,
    mail := false, msg := msg, st := .fresh }

/-- The function and partition of a record's context. -/
def State.recOwner (s : State) (r : DeltaRec) : Nat × Nat := (s.context? r.ctx).elim (0, 0) (fun c => (c.fn, c.part))

/-- A record drained: the drain enters the hold window, the record is draining (R213). -/
def State.sendDrain (s : State) (core : Nat) (r : DeltaRec) : State :=
  let (fn, part) := s.recOwner r
  (s.modCore core (fun c => c.putRec (r.empty true))).enterHw (coreReq core r.line r fn part (.drain r.bf r.carried))

/-- A record given up (R211, R213). -/
def State.sendGiveUp (s : State) (core : Nat) (r : DeltaRec) : State :=
  let (fn, part) := s.recOwner r
  (s.modCore core (fun c => c.dropRec r.line)).enterHw (coreReq core r.line r fn part (.giveUp r.bf r.carried))

/-- The core's own record of a line given up before a write-class request for it (R213). -/
def State.giveUpOwn (s : State) (core line : Nat) : State :=
  match (s.core core).rec? line with
  | some r => s.sendGiveUp core r
  | none => s

/-- A loaded lane written (R117, R173, R175): x is its value, marks the marks of its words. -/
def Slat.putLoad (t : Slat) (op : EOp) (l x : Nat) (marks : W32) : Slat :=
  let vec := fun (dst n : Nat) => (List.range n).foldl (fun (t : Slat) k =>
    t.vput (dst + k) l (BitVec.ofNat 32 (x / 2 ^ (32 * k))) (marks.getLsbD k)) t
  match op with
  | .load w sc dst _ =>
    if sc then t.sput dst (BitVec.ofNat 64 x) (decide (marks ≠ 0)) else if t.has l then vec dst (wregs w) else t
  | .atomic _ w _ _ dst _ => if t.has l then vec dst (wregs w) else t
  | .ldt _ dst => if t.has l then vec dst 1 else t
  | _ => t

/-- A value delivered to a lane of an entry, which it completes (R173); kept for delivery again after a rollback (R387). -/
def State.deliver (s : State) (uid seq l x : Nat) (marks : W32) : State :=
  let s := s.modSlat uid (fun (t : Slat) => match t.qent? seq with
    | some e => t.putLoad e.op l x marks
    | none => t)
  (s.doneLanes uid seq [l]).note uid seq 0 [(l, x, marks)] none

/-- A raw load value as its operation delivers it: ldt widens BF16 to FP32 (R219). -/
def EOp.widen (op : EOp) (x : Nat) : Nat :=
  match op with
  | .ldt true _ => x % 2 ^ 16 * 2 ^ 16
  | _ => x

/-- A lane's bytes from a line, under the bytes it took from the hold window when it left: those are data, each with a mask bit
above bit 128 (R83). -/
def laneBytes (v : LineVal) (a w : Nat) (data : Option Nat) : Nat × W32 :=
  let d := data.getD 0
  let own := fun (k : Nat) => d.testBit (128 + k)
  let x := leNat ((List.range w).map (fun k => if own k then BitVec.ofNat 8 (d / 2 ^ (8 * k)) else v.get (a % 128 + k)))
  (x, laneMask (upTo ((w + 3) / 4) (fun j => (List.range 4).any (fun b => decide (4 * j + b < w) && !(own (4 * j + b)) && v.marked (a % 128 + 4 * j + b) 1))))

/-- Data kept for a lane. -/
def State.setLaneData (s : State) (uid seq l d : Nat) : State :=
  s.modSlat uid (fun (t : Slat) => match t.qent? seq with
    | none => t
    | some e => t.setQent { e with lanes := e.lanes.map (fun (x : Lane) => if x.l == l && x.st != .logged then { x with data := some d } else x) })

/-- Bytes of a bank under those of a hold window (R83), with the marks of the words they come from (R175). -/
def bankBytes (win : List Req) (k : Core) (b a w : Nat) : Nat × W32 :=
  let own := fun (i : Nat) => winByte win (.spad b) (a + i)
  (leNat ((List.range w).map (fun i => (own i).getD (Memory.read k.spad (a + i)))),
   laneMask (upTo ((w + 3) / 4) (fun j => (List.range 4).any (fun i => decide (4 * j + i < w) && (own (4 * j + i)).isNone && k.bankMarked (a + 4 * j + i) 1))))

/-- A load's lanes served: hold window, then L1, then the home, which it leaves its queue for when it is served there (R83);
scratchpad banks at once. tol is the tolerance with which the home is asked (R222). -/
def State.leaveLoad (s : State) (t : Slat) (e : QEnt) (w hint : Nat) (ps : List Passed) (tol : Option W32) : State :=
  match ps with
  | [] => s
  | p :: _ =>
    let c := s.core t.core
    let win := s.window t.core
    match p.bank with
    | some b =>
      ps.foldl (fun (s : State) p =>
        let (v, m) := bankBytes win (s.core b) b p.a w
        s.deliver t.uid e.seq p.lane.l (e.op.widen v) m) s
    | none =>
      let line := lineOf p.a
      let served := ps.filter (fun p => !p.perm.mail && tol.isNone && (allOwn (captured win .mem p.a w) w || (c.l1? line).isSome))
      let rest := ps.filter (fun p => !(served.contains p))
      let v := ((c.l1? line).elim LineVal.zero L1Line.val)
      let s := served.foldl (fun (s : State) p =>
        let (x, m) := laneBytes v p.a w (some (captured win .mem p.a w))
        s.deliver t.uid e.seq p.lane.l (e.op.widen x) m) s
      if rest.isEmpty then s
      else (s.sendLanes t.uid e.seq rest p.perm.mail).send
        (mkReq t e (e.paths.headD .ls) .mem line hint p.perm.mail (.read w (rest.map (fun p => (p.lane.l, p.a))) tol))

/-- Which of several lanes that store the same bytes prevails: a free value names one of them (R82). -/
def State.pickStores (s : State) (w : Nat) (ps : List Passed) : List (Nat × Byte) × State :=
  ((ps.map (fun p => p.a)).eraseDups).foldl (fun (acc : List (Nat × Byte) × State) a =>
    let same := ps.filter (fun p => p.a == a)
    let (k, s) := if same.length ≤ 1 then (0, acc.2) else (acc.2.freeVal.1.toNat % same.length, acc.2.freeVal.2)
    (acc.1 ++ at_ a (leBytes w ((same[k]?).elim 0 (fun p => p.lane.data.getD 0))), s)) ([], s)

/-- A store's lanes leave (R84): the L1 copy, the own bank at once, the hold window. (Log 24: DEDUCED.) A store to
the own bank under upset protection enters the window with no bytes. (Log 25: DEDUCED.) -/
def State.leaveStore (s : State) (t : Slat) (e : QEnt) (w hint : Nat) (ps : List Passed) : State :=
  match ps with
  | [] => s
  | p :: _ =>
    let (bs, s) := s.pickStores w ps
    let ls := ps.map (fun p => p.lane.l)
    match p.bank, p.lane.loc with
    | some b, .spad team rank _ =>
      if team = t.team ∧ rank = s.rank t then
        let s := s.modCore b (fun c => c.bankPut bs)
        let s := if s.upsOn t.core then s.enterHw (mkReq t e .ls (.spad b) (p.a / 128) 0 false (.write [])) else s
        s.doneLanes t.uid e.seq ls
      else (s.enterHw (mkReq t e .ls (.spad b) (p.a / 128) 0 false (.write bs))).doneLanes t.uid e.seq ls
    | _, _ =>
      let line := lineOf p.a
      let s := s.giveUpOwn t.core line
      let s := s.modCore t.core (fun c => match c.l1? line with
        | some x => if x.owned || p.perm.mail then c else c.putL1 { x with val := x.val.put (bytesIn line bs) }
        | none => c)
      let s := s.enterHw (mkReq t e .ls .mem line hint p.perm.mail (.write bs))
      if p.perm.mail then
        s.modSlat t.uid (fun (t : Slat) => match t.qent? e.seq with
          | none => t
          | some e =>
            let left := e.lanes.map (fun x => if x.st == .queued && ls.contains x.l then { x with st := .sent } else x)
            if left.all (fun x => x.st == .sent) then (t.doneInst e.ins).setQent { e with lanes := left, mail := true, ins := 0 }
            else t.setQent { e with lanes := left, mail := true })
      else s.doneLanes t.uid e.seq ls

/-- An eligible atomic leaves: the predictor's entry, and whether the line is asked for owned (R190). -/
def Core.predict (c : Core) (line : Nat) : Bool × Core :=
  let (tag, cnt) := c.predOf line
  if tag = line / 64 ∧ c.pred.any (fun p => p.1 == line % 64) then (decide (2 ≤ cnt), c) else (false, c.predSet line 0)

/-- An atomic's lanes leave into the hold window (R86, R190, R197). -/
def State.leaveAtomic (s : State) (t : Slat) (e : QEnt) (n w : Nat) (sgn ffmt : Bool) (ps : List Passed) : State :=
  match ps with
  | [] => s
  | p :: _ =>
    let ls := ps.map (fun p => ({ l := p.lane.l, a := p.a, v := p.lane.data.getD 0 % 2 ^ 128, cmp := p.lane.data.getD 0 / 2 ^ 128 } : ALane))
    let s := s.sendLanes t.uid e.seq ps p.perm.mail
    match p.bank with
    | some b => s.enterHw (mkReq t e .ls (.spad b) (p.a / 128) 0 false (.atomic n w sgn ffmt ls))
    | none =>
      let line := lineOf p.a
      let s := if p.perm.mail then s else s.giveUpOwn t.core line
      if p.perm.mail || p.perm.bnd || w == 4 then s.enterHw (mkReq t e .ls .mem line 0 p.perm.mail (.atomic n w sgn ffmt ls))
      else
        let (own, c) := (s.core t.core).predict line
        (s.setCore t.core c).enterHw (mkReq t e .ls .mem line 0 false (if own then .own n w sgn ffmt ls else .atomic n w sgn ffmt ls))

/-- The place of a clamp as a watch keeps it. -/
def clampLoc (p : Passed) : ClampLoc :=
  match p.lane.loc with
  | .spad team rank off => .spad team rank off
  | _ => .mem p.a

/-- What the read of a clmw or clmt decides (R201, R203, R206, R207): a clmw of an abandoned team returns with cwoke; a clmt clears it.
(Log 77: DESIGN CHOICE.) -/
def State.clampRead (s : State) (uid seq : Nat) (k : ClampOp) (space : Nat) (sel : W64) (loc : ClampLoc) (addr : W64) (c : Clamp) : State :=
  match s.slat? uid with
  | none => s
  | some t => match k with
    | .wait ph =>
      let ab := (s.team? t.team).elim false Team.aband
      let s := s.doneLanes uid seq [0]
      if c.phase = ph ∧ !c.err ∧ !ab then
        s.modSlat uid (fun (t : Slat) => { t with park := .clmw, watch := some ⟨space, addr, sel, ph, loc⟩ })
      else s.wakeClmw uid c.err ab
    | .test q ph =>
      let s := s.modSlat uid (fun (t : Slat) => { (t.qput q (decide (c.phase ≠ ph) || c.err)) with bst := s.newBst t (some (c.err, false)) })
      s.doneLanes uid seq [0]
    | _ => s

/-- A clamp instruction's entry leaves: reads go to the home or bank, steps into the hold window (R203). -/
def State.leaveClamp (s : State) (t : Slat) (e : QEnt) (k : ClampOp) (space : Nat) (sel : W64) (p : Passed) : State :=
  let addr := match p.lane.loc with
    | .glob va _ => va
    | .spad _ _ off => BitVec.ofNat 64 off
    | .badSel off => BitVec.ofNat 64 off
  let reads := match k with
    | .wait _ => true
    | .test _ _ => true
    | _ => false
  match reads, p.bank with
  | true, some _ => s.clampRead t.uid e.seq k space sel (clampLoc p) addr (s.clampAt (clampLoc p))
  | true, none => (s.sendLanes t.uid e.seq [p] false).send (mkReq t e .ls .mem (lineOf p.a) 0 false (.clamp k p.a))
  | false, some b => (s.sendLanes t.uid e.seq [p] false).enterHw (mkReq t e .ls (.spad b) (p.a / 128) 0 false (.clamp k p.a))
  | false, none => ((s.giveUpOwn t.core (lineOf p.a)).sendLanes t.uid e.seq [p] false).enterHw (mkReq t e .ls .mem (lineOf p.a) 0 false (.clamp k p.a))

/-- The magnitude an addition counts toward its gauge: infinite for a NaN (R218). -/
def accMag (d : W32) : FVal := match f32 d with
  | .nan => .inf false
  | v => v.abs

/-- The gauge pass of R218 from a start: the running sums of the touched elements, rounded up. -/
def gaugePass (start : W32) (adds : List Add) : List (Nat × W32) :=
  adds.foldl (fun t a => sput t a.1 (BitVec.ofNat 32 (fround fp32 2 0 false (fsum 2 (f32 (sget start t a.1)) (accMag a.2))).bits)) []

/-- The largest of the running sums. -/
def gaugeMax (start : W32) (t : List (Nat × W32)) : W32 :=
  (t.map Prod.snd).foldl (fun m x => if flt (f32 m) (f32 x) then x else m) start

/-- An acc's lanes leave (R218). A record whose gauge would pass its share is drained first, which bit 128 of the lanes' data remembers;
one that is empty after that and would still pass it sends the lanes to the home. -/
def State.leaveAcc (s : State) (t : Slat) (e : QEnt) (bf : Bool) (ps : List Passed) : State :=
  match ps with
  | [] => s
  | p :: _ =>
    let line := lineOf p.a
    let val32 := fun (x : Nat) => if bf then toF32 (b16 (x % 65536)) else BitVec.ofNat 32 x
    let adds : List Add := ps.map (fun p => (p.a % 128 / elemBytes bf, val32 (p.lane.data.getD 0)))
    let ls := ps.map (fun p => p.lane.l)
    let s := s.modSlat t.uid (fun (t : Slat) => { t with accd := if t.accd.contains line then t.accd else line :: t.accd })
    let home := fun (s : State) (m : Msg) => (s.sendLanes t.uid e.seq ps false).enterHw (mkReq t e .ac .mem line 0 false m)
    match s.bounded t p.lane.loc p.perm with
    | none => home s (.homeAdd bf adds)
    | some r => match (s.core t.core).rec? line with
      | none => home s (.grant bf r.num adds)
      | some d =>
        let g := gaugePass d.gauge adds
        let m := gaugeMax 0#32 g
        if flt (f32 d.share) (f32 m) then
          if ps.all (fun p => (p.lane.data.getD 0).testBit 128) ∧ d.gauge = 0 ∧ d.delta.isEmpty then home s (.homeAdd bf adds)
          else (ps.foldl (fun (s : State) p => s.setLaneData t.uid e.seq p.lane.l (p.lane.data.getD 0 % 2 ^ 128 + 2 ^ 128)) s).sendDrain t.core d
        else
          let delta := adds.foldl (fun x a => sput x a.1 (f32add (sget 0#32 x a.1) a.2)) d.delta
          (s.modCore t.core (fun c => c.putRec { d with delta := delta, gauge := m })).doneLanes t.uid e.seq ls

/-- A tolerance as FP32: NaN, −0 and negative values count as 0 (R219). -/
def tolOf (x : Nat) : W32 := match f32 (BitVec.ofNat 32 x) with
  | .nan => 0#32
  | v => if v.neg then 0#32 else BitVec.ofNat 32 x

/-- The least tolerance of some lanes. -/
def leastTol (ps : List Passed) : W32 :=
  match ps.map (fun p => tolOf (p.lane.data.getD 0)) with
  | [] => 0#32
  | x :: xs => xs.foldl (fun m y => if flt (f32 y) (f32 m) then y else m) x

/-- A prefetch's lanes leave: those that would fault, and those on mailbox or bounded lines, are dropped (R174). -/
def State.leavePref (s : State) (t : Slat) (e : QEnt) (hint : Nat) (ps : List Passed) : State :=
  let ps := ps.filter (fun p => !p.perm.mail && (s.bounded t p.lane.loc p.perm).isNone && (s.budget? (lineOf p.a)).isNone)
  let dropped := (e.lanes.filter (fun x => !(ps.any (fun p => p.lane.l == x.l)))).map Lane.l
  let s := s.doneLanes t.uid e.seq dropped
  match ps with
  | [] => s
  | p :: _ => (s.sendLanes t.uid e.seq ps false).send (mkReq t e .ls .mem (lineOf p.a) hint false .prefetch)

/-- A drn leaves: every record it names is drained; it completes when all are acknowledged (R220). -/
def State.leaveDrn (s : State) (t : Slat) (e : QEnt) (mode : Nat) (arg : W64) : State :=
  let rs := s.drnRecs t mode arg e.lanes
  let s := s.modSlat t.uid (fun (t : Slat) =>
    let e : QEnt := { e with lanes := (rs.zipIdx).map (fun r => ⟨r.2, .badSel 0, some r.1.line, .sent⟩) }
    if e.lanes.isEmpty then t.finish e else t.setQent e)
  rs.foldl (fun (s : State) r => s.sendDrain t.core r) s

/-- A grd leaves: the gauge and share of the core's record of the line, or 0 (R220). -/
def State.leaveGrd (s : State) (t : Slat) (e : QEnt) (dst : Nat) : State :=
  let r := (e.lanes.head?).bind (fun x => (s.lanePa t x.loc).bind (fun p => (s.core t.core).rec? (p.1 / 128)))
  s.modSlat t.uid (fun (t : Slat) => (t.sput dst (match r with
    | some r => zext64 r.share <<< 32 ||| zext64 r.gauge
    | none => 0#64) false).finish e)

/-- A byte as a core's own read sees it at this moment: hold window, L1, home with every share drained (R83, R212). -/
def State.coreByte (s : State) (core a : Nat) : Byte :=
  match winByte (s.window core) .mem a with
  | some b => b
  | none => match (s.core core).l1? (lineOf a) with
    | some x => x.val.get (a % 128)
    | none => s.hubByte a

/-- A region descriptor (R209). -/
def regionBad (n : Nat) : Bool :=
  let size := natField n 127 64
  let base := natField n 63 0
  let limit := fdec fp32 (natField n 159 128)
  let split := natField n 164 160
  size != 0 && (natField n 255 169 != 0 || natField n 167 165 != 0 || split == 0 || decide (16 < split)
    || (match limit with
        | .fin neg m _ => neg || m == 0
        | _ => true)
    || size % 65536 != 0 || base % 65536 != 0
    || !(canonical (BitVec.ofNat 64 base)) || !(canonical (BitVec.ofNat 64 (base + size - 1))) || decide (2 ^ 64 < base + size)
    || (decide (base < 2 ^ 63) && decide (2 ^ 54 < base + size)))

/-- A bnd refused: its cause is taken at the next boundary (R221). -/
def State.bndFault (s : State) (t : Slat) (e : QEnt) (code reason : Nat) : State :=
  s.modSlat t.uid (fun (t : Slat) => (t.raise (e.cause code reason 0#32)).finish e)

/-- The leaf of an address, as far as the TLBs and tables tell. -/
def State.peekLeaf (s : State) (t : Slat) (va : W64) : Option W64 :=
  if !canonical va then none
  else match (s.lookup t.core t.ctx t.part va).1 with
    | .leaf e _ => some e
    | _ => none

/-- What a core reads as one of its own reads is ready: in its window or its L1, or at its home (R18, R83). -/
def State.coreReady (s : State) (core : Nat) (as : List Nat) : Bool :=
  s.hubOk true ((linesOf (as.filter (fun a => (winByte (s.window core) .mem a).isNone))).filter (fun l => ((s.core core).l1? l).isNone))

/-- Those lines asked for. -/
def State.coreWant (s : State) (t : Slat) (as : List Nat) : State :=
  s.hubAsk true t.fn t.part ((linesOf (as.filter (fun a => (winByte (s.window t.core) .mem a).isNone))).filter (fun l => ((s.core t.core).l1? l).isNone))

/-- A grant of a region that is on its way, or a share of it that a home holds (R211). -/
def State.regionLive (s : State) (ctx num : Nat) : Bool :=
  s.home.budget.any (fun b => b.ctx == ctx && b.region == num)
    || (s.home.reqs ++ (s.cores.map (fun c => c.2.hw.map HwEnt.req)).flatten).any (fun r => r.ctx == ctx && (match r.msg with
      | .grant _ g _ => g == num
      | _ => false))
    || s.home.net.any (fun n => match n.msg with
      | .reply _ _ sh c g => sh.isSome && c == ctx && g == num
      | _ => false)

/-- A bnd leaves and completes once its descriptor can be read and the old region is settled: checks in the order of R221, every record of the
old region given up and its shares gone (R214), the new one installed (R217). -/
def State.leaveBnd (s : State) (t : Slat) (e : QEnt) (addr num : W64) : State :=
  if addr.toNat % 32 ≠ 0 then s.bndFault t e 4 1
  else if (s.peekPa t addr).elim false (fun p => ((s.core t.core).l1? (lineOf p.1)).isNone && (s.stalled (lineOf p.1)).isSome) then s
  else
    let (f, s) := s.check t.core t.ctx t.part t.level ⟨true, false, false, some 8⟩ addr
    let own0 := match s.peekLeaf t addr with
      | some l => pteOwn l == 0
      | none => false
    match f with
    | .served _ _ _ _ _ => s.bndFault t e 5 1
    | .sync code reason => if own0 then s.bndFault t e 5 1 else s.bndFault t e code reason
    | .ok pa _ =>
      if !(s.coreReady t.core (addrs pa 32)) then s.coreWant t (addrs pa 32)
      else
      let n := leNat ((addrs pa 32).map (s.coreByte t.core))
      let s := s.hubFree true (linesOf (addrs pa 32))
      let mine := fun (r : DeltaRec) => r.ctx == t.ctx && r.region == num.toNat
      let size := natField n 127 64
      let base := natField n 63 0
      let others := s.home.regions.filter (fun r => r.ctx == t.ctx && r.num != num.toNat)
      if 15 < num.toNat then s.bndFault t e 7 5
      else if regionBad n then s.bndFault t e 7 3
      else if size ≠ 0 ∧ others.any (fun r => decide (base < r.base + r.size) && decide (r.base < base + size)) then s.bndFault t e 7 4
      else if s.cores.any (fun c => c.2.recs.any mine) then s.giveUpAll State.sendGiveUp mine
      else if s.regionLive t.ctx num.toNat then s
      else
        let new : Region := ⟨t.ctx, num.toNat, base, size, BitVec.ofNat 32 (natField n 159 128), natField n 164 160, n.testBit 168⟩
        let s := s.modHome (fun h => { h with
          regions := h.regions.filter (fun r => !(r.ctx == t.ctx && r.num == num.toNat)) ++ (if size = 0 then [] else [new]) })
        s.modSlat t.uid (fun (t : Slat) => t.finish e)

/-- The lanes that passed, performed as their operation says. -/
def State.perform (s : State) (t : Slat) (e : QEnt) (ps : List Passed) : State :=
  match e.op with
  | .load w _ _ hint =>
    let tol := (ps.head?).bind (fun p => (s.bounded t p.lane.loc p.perm).map (fun _ => 0#32))
    s.leaveLoad t e (2 ^ w) hint ps tol
  | .ldt bf _ =>
    let b := (ps.head?).bind (fun p => s.bounded t p.lane.loc p.perm)
    s.leaveLoad t e (elemBytes bf) 0 ps (b.map (fun _ => leastTol ps))
  | .store w _ _ hint => s.leaveStore t e (2 ^ w) hint ps
  | .record _ => s.leaveStore t e 8 0 ps
  | .atomic n w sgn ffmt _ _ => s.leaveAtomic t e n w sgn ffmt ps
  | .clamp k space sel => match ps with
    | p :: _ => s.leaveClamp t e k space sel p
    | [] => s
  | .acc bf _ => s.leaveAcc t e bf ps
  | _ => s

/-- The lanes of an entry and of the other entries of its instruction whose data is still to be read and is marked (R175). -/
def Slat.markedLanes (t : Slat) (e : QEnt) : List Lane :=
  ((t.queue.filter (fun f => f.seq == e.seq || (e.ins != 0 && f.ins == e.ins))).map (fun f =>
    f.lanes.filter (fun x => x.st == .queued && x.data.isNone && t.captureMarked f.op x.l))).flatten

/-- An entry of ls or ac leaves its queue, or as many of its lanes as can (R82, R88). With the operand log full, the lanes that
would need it stay as they are (R165). Lanes with a synchronous fault are abandoned as R164 has it. -/
def State.leaveLanes (s : State) (t : Slat) (e : QEnt) : State :=
  let bad := t.markedLanes e
  if !bad.isEmpty then s.poisonEnt t e (lanesMask bad)
  else
    let e : QEnt := { e with lanes := e.lanes.map (fun (x : Lane) => if x.st == .queued && x.data.isNone then { x with data := t.capture e.op x.l } else x) }
    let (fs, s1) := s.checkLanes t e.op.ask e.regen (e.lanes.filter (fun x => x.st == .queued))
    match e.op with
    | .pref _ hint => s1.leavePref t e hint (passedOf fs)
    | _ =>
      let s2 := s1.modSlat t.uid (fun t => (t.setQent e).syncFaults e fs)
      let s3 := if t.logFull then s2 else s2.logLanes t.uid e e.op.ask.access (routedOf fs)
      s3.perform t e (passedOf fs)

end Sys2Proof.Machine
end

