-- ==== Sys2Proof/Machine/Home.lean ====
section
/-! DEFINITION. Requests at the home slices and banks: whose turn it is, the veneer and bounded-region steps, the accesses
(R18, R83, R86, R190, R191, R194, R195, R212, R222, R248 to R252). -/

namespace Sys2Proof.Machine

/-- A drain, a give-up or a reply to a force-drain: the home takes it while it waits within another request (R213). -/
def Req.settles (r : Req) : Bool :=
  match r.msg with
  | .drain _ _ => true
  | .giveUp _ _ => true
  | .reply _ _ _ _ => true
  | _ => false

/-- A line's part in a copy at its home (R231), or in a step of a unit outside the cores. -/
def Req.isCopy (r : Req) : Bool :=
  match r.msg with
  | .copy _ => true
  | .hub _ => true
  | .clear _ => true
  | _ => false

/-- A copy that has exited its window and has steps left (R233). -/
def Copy.open_ (c : Copy) : Bool := c.out && !(c.srcTodo.isEmpty && c.dstTodo.isEmpty && c.banks.isEmpty)

/-- An entry of a core's window older than number id is still to be applied (R85). (Log 26: DEDUCED.) -/
def State.owed (s : State) (core id : Nat) : Bool :=
  s.home.reqs.any (fun o => o.core == core && o.viaHw && !o.isCopy && decide (o.id < id))
    || s.home.starts.any (fun o => o.core == core && decide (o.id < id))
    || s.home.copies.any (fun c => c.core == core && decide (c.id < id) && c.open_)

/-- The same for what a home waits for within another request (R213): of what is older, only what can itself go on now holds it back, since
that home may wait for it. (Log 26: DEDUCED.) -/
def State.owedOther (s : State) (core id : Nat) : Bool :=
  s.home.reqs.any (fun o => o.core == core && o.viaHw && !o.isCopy && decide (o.id < id) && !(s.owed core o.id) && o.st == .fresh
      && (o.tgt != .mem || !(s.waiting o.line)))
    || s.home.starts.any (fun o => o.core == core && decide (o.id < id) && !(s.owed core o.id) && o.isCopy)
    || s.home.copies.any (fun c => c.core == core && decide (c.id < id) && c.open_ && !(s.owed core c.id) && !((c.srcTodo ++ c.dstTodo).any s.waiting))

/-- A home that waits for a drain, a give-up or a reply of its core, within another request of the line (R213). -/
def State.awaits (s : State) (r : Req) : Bool :=
  r.settles && s.home.reqs.any (fun o => o.tgt == .mem && o.line == r.line && (match o.st with
    | .drains cs => cs.contains r.core
    | _ => false))

/-- A request that may not be applied yet: an older entry of its core's window is not (R85). -/
def State.gated (s : State) (r : Req) : Bool := r.viaHw && (if s.awaits r then s.owedOther r.core r.id else s.owed r.core r.id)

/-- What of a core's window has been passed by a drain numbered n that its home waited for: what is older and not applied yet. -/
def State.overtaken (s : State) (core n : Nat) : List Nat :=
  (s.home.reqs.filter (fun o => o.core == core && o.viaHw && !o.isCopy && decide (o.id < n))).map Req.id
    ++ (s.home.starts.filter (fun o => o.core == core && decide (o.id < n))).filterMap (fun o => match o.msg with
      | .copy id => some id
      | _ => none)
    ++ (s.home.copies.filter (fun c => c.core == core && decide (c.id < n) && c.open_)).map Copy.id

/-- A read that its own core's drain of the line holds back in its queue (R213). -/
def State.drainHeld (s : State) (r : Req) : Bool := ((s.core r.core).rec? r.line).elim false DeltaRec.draining

/-- Requests for the same line, or the same line of a scratchpad. -/
def Req.same (r o : Req) : Bool := r.tgt == o.tgt && r.line == o.line

/-- A request with its number. -/
def State.req? (s : State) (id : Nat) : Option Req := s.home.reqs.find? (fun r => r.id == id)

/-- A copy that has not begun names a line as a destination. -/
def Copy.lands (c : Copy) (line : Nat) : Bool := c.dst.any (fun g => decide (g.2.1 / 128 ≤ line) && decide (line ≤ (g.2.1 + g.2.2 - 1) / 128))

/-- A request changed in place. -/
def State.setReq (s : State) (r : Req) : State := s.modHome (fun h => { h with reqs := replaceBy Req.id r h.reqs })

/-- The requests that stand before one. -/
def State.before (s : State) (r : Req) : List Req := s.home.reqs.takeWhile (fun o => o.id != r.id)

/-- A line whose home waits for dependents, or does not wait: it serves reads (R18, R252). -/
def State.readable (s : State) (line : Nat) : Bool :=
  s.home.reqs.all (fun o => o.tgt != .mem || o.line != line || o.st == .fresh || o.st == .mat)

/-- A read that stands behind a write, or meets a destination line of a copy, that a drain of the same core has passed: it sees what was to
be applied before that drain (R85). -/
def State.behindPassed (s : State) (r : Req) : Bool :=
  !s.home.passed.isEmpty
    && ((s.before r).any (fun o => r.same o && s.home.passed.contains o.id)
      || (r.tgt == .mem && s.home.copies.any (fun c => s.home.passed.contains c.id && (c.dstTodo.contains r.line || (!c.out && c.lands r.line)))))

/-- A request that has not reached its home: what its window still holds back, and a read that a drain holds back or that waits for what a
drain has passed. -/
def State.absent (s : State) (r : Req) : Bool := s.gated r || (!r.viaHw && r.st == .fresh && (s.drainHeld r || s.behindPassed r))

/-- Whether the home or bank takes a request now (R18): one that it has begun; else the first for its line that has reached
it, while no other waits. A read may be served ahead of a write that waits for dependents. -/
def State.turn (s : State) (r : Req) : Bool :=
  let mat := !r.viaHw && s.home.reqs.any (fun o => r.same o && o.st == .mat)
  r.st != .fresh
    || (!(s.gated r) && (r.viaHw || !(s.behindPassed r))
        && s.home.reqs.all (fun o => o.id == r.id || !(r.same o) || o.st == .fresh || (!r.viaHw && o.st == .mat))
        && (mat || (s.before r).all (fun o => !(r.same o) || s.absent o || o.st != .fresh)))

/-- A request that only adds at the home: the order of additions is not defined (R78, R213). -/
def Req.adds (r : Req) : Bool :=
  match r.msg with
  | .grant _ _ _ => true
  | .homeAdd _ _ => true
  | _ => false

/-- Whether a drain, a give-up or a reply is taken now (R213): behind its own core's earlier ones and writes of the line, but not behind
additions, since what waits for it may stand ahead of them, nor behind the core's reads, nor behind reads that a drain holds back; ahead of
what waits, or in its turn. (Log 29: DEDUCED.) -/
def State.settleTurn (s : State) (r : Req) : Bool :=
  !(s.gated r) && (s.before r).all (fun o => !(r.same o) || o.core != r.core || !o.viaHw || o.st != .fresh || o.adds)
    && (s.waiting r.line || (s.before r).all (fun o => !(r.same o) || s.absent o || (o.core == r.core && !o.viaHw)))

/-- A request served: it is gone, its core is the last that asked for the line (R190), and a line that no way of L2 holds is not kept
(R360). -/
def State.served (s : State) (r : Req) : State :=
  match r.tgt with
  | .spad _ => s.modHome (fun h => { h with reqs := h.reqs.filter (fun o => o.id != r.id) })
  | .mem => (s.modHome (fun h => { h with
      reqs := h.reqs.filter (fun o => o.id != r.id)
      passed := h.passed.filter (fun i => i != r.id)
      lastCore := sput h.lastCore r.line r.core })).usedUp r.line

/-- Dependents of a source line that have still to join their entry marked to be performed (R397). -/
def State.markDeps (s : State) (l : Nat) : State :=
  let deps := s.dependents l
  s.modHome (fun h => { h with
    copies := h.copies.map (fun c => { c with
      perform := c.perform ++ deps.filter (fun m => c.dstTodo.contains m && !(c.perform.contains m)
        && s.home.veneers.any (fun v => v.copy == c.id && v.covers m && v.todo.contains m && (v.deps m).contains l)) }) })

/-- Lines whose homes wait for dependents within a copy's step, as (copy, line). -/
def State.copyWaits (s : State) : List (Nat × Nat) :=
  s.home.reqs.filterMap (fun r => match r.msg with
    | .copy id => if r.st = .mat then some (id, r.line) else none
    | _ => none)

/-- From a line still to join its entry, through the copies that have to make it join and the lines they wait at, to a line of a given
list: a chain of copies that wait for each other. fuel bounds its length. -/
def State.waitsRound (s : State) (goal m : Nat) : Nat → Bool
  | 0 => false
  | fuel + 1 => s.copyWaits.any (fun w => w.2 == m && s.home.copies.any (fun c => c.id == w.1 && c.dstTodo.contains m)
      && ((s.joiningDependents w.2).contains goal || (s.joiningDependents w.2).any (fun x => s.waitsRound goal x fuel)))

/-- Dependents of a line that its home has to wait for (R251, R397). A copy's step at a line does not wait for one still to join whose home
waits, within its own copy's step, for that line to join in its turn: neither could go on. (Log 70: DEDUCED.) -/
def State.depsLeft (s : State) (line : Nat) (copy : Bool) : Bool :=
  !(s.joinedDependents line).isEmpty
    || (s.joiningDependents line).any (fun m => !(copy && s.waitsRound line m (s.home.copies.length + 1)))

/-- The veneer step of a write-class request (R18, R250, R251): false while it waits for dependents. -/
def State.veneerStep (s : State) (r : Req) : State × Bool :=
  let s := (s.materialise r.line r.uid r.seq).markDeps r.line
  if s.depsLeft r.line r.isCopy then (s.setReq { r with st := .mat }, false) else (s, true)

/-- Force-drains sent to some sharers of a line for a request, which waits for their replies (R212). -/
def State.force (s : State) (r : Req) (cores : List Nat) (gone : Bool) : State :=
  let s := cores.foldl (fun (s : State) c =>
    let (id, s) := s.fresh
    s.modHome (fun h => { h with net := h.net ++ [⟨id, c, .force r.line gone r.id, none⟩] })) s
  s.setReq { r with st := .drains cores }

/-- The sharers of a budget entry, lowest sequence number first. -/
def Budget.bySeq (b : Budget) : List (Nat × Nat) := b.sharers.mergeSort (fun x y => decide (x.2 ≤ y.2))

/-- The bounded-region step of a write-class request (R18, R212): false while it waits for force-drains. A unit's read has every share
drained and keeps them, as at tolerance zero (R222). -/
def State.boundedStep (s : State) (r : Req) : State × Bool :=
  match s.budget? r.line with
  | none => (s, true)
  | some b => match r.msg with
    | .homeAdd _ _ => (s, true)
    | .grant _ _ _ =>
      if b.sharers.length < b.n ∨ b.sharers.any (fun x => x.1 == r.core) then (s, true)
      else (s.force r ((b.bySeq.take 1).map Prod.fst) true, false)
    | .hub true => (s.force r (b.bySeq.map Prod.fst) false, false)
    | _ => (s.force r (b.bySeq.map Prod.fst) true, false)

/-- The veneer step of a request, by what it is: a unit's read has none (R18); a flush makes a destination line real and leaves what depends on
the line (R362); the abandonment of a line takes it out of its entry as vdrop does, and waits for its dependents (R374). -/
def State.entryStep (s : State) (r : Req) : State × Bool :=
  match r.msg with
  | .hub true => (s, true)
  | .clear true => (s.materialise r.line 0 r.seq, true)
  | .clear false =>
    let s := (s.dropLine r.line).markDeps r.line
    if s.depsLeft r.line true then (s.setReq { r with st := .mat }, false) else (s, true)
  | _ => s.veneerStep r

/-- A write-class request brought to its access step; false while it waits. -/
def State.settled (s : State) (r : Req) : State × Bool :=
  match r.st with
  | .drains cs => (s, cs.isEmpty)
  | .mat => (s, false)
  | .fresh =>
    let (s, ok) := s.entryStep r
    if ok then s.boundedStep r else (s, false)

/-- The new value of an atomic (R194): n the operation, bits the width. -/
def atomicNew (n bits : Nat) (sgn ffmt : Bool) (old v cmp : Nat) : Nat :=
  let lt := if sgn then decide ((BitVec.ofNat bits v).toInt < (BitVec.ofNat bits old).toInt) else decide (v < old)
  let gt := if sgn then decide ((BitVec.ofNat bits old).toInt < (BitVec.ofNat bits v).toInt) else decide (old < v)
  let halves := fun (f : Nat → Nat → Nat) => f (old % 65536) (v % 65536) + 65536 * f (old / 65536 % 65536) (v / 65536 % 65536)
  match n with
  | 0 => (old + v) % 2 ^ bits
  | 1 => if lt then v else old
  | 2 => if gt then v else old
  | 3 => old &&& v
  | 4 => old ||| v
  | 5 => old ^^^ v
  | 6 => v
  | 7 => if old = cmp then v else old
  | 8 => if ffmt then halves (fun a b => toB16 (fsum 0 (b16 a) (b16 b)))
         else (toF32 (fsum 0 (fdec fp32 old) (fdec fp32 v))).toNat
  | _ => if ffmt then halves (fun a b => fpick bf16 true false a b) else fpick fp32 true false old v

/-- The lanes of an atomic applied in ascending order to bytes held from address base on (R195): the old value of each. -/
def atomicLanes (n w : Nat) (sgn ffmt : Bool) (base : Nat) (m : List (Nat × Byte)) (ls : List ALane) :
    List (Nat × Byte) × List (Nat × Nat) :=
  (ls.mergeSort (fun a b => decide (a.l ≤ b.l))).foldl (fun (x : List (Nat × Byte) × List (Nat × Nat)) a =>
    let old := leNat (Memory.readN x.1 (a.a - base) (2 ^ w))
    let new := atomicNew n (8 * 2 ^ w) sgn ffmt old a.v a.cmp
    (Memory.writeAll x.1 (a.a - base) (leBytes (2 ^ w) new), x.2 ++ [(a.l, old)])) (m, [])

/-- Values delivered to the lanes of a request. -/
def State.deliverAll (s : State) (r : Req) (vs : List (Nat × Nat)) : State :=
  vs.foldl (fun (s : State) v => s.deliver r.uid r.seq v.1 v.2 0#32) s

/-- The predictor's count for an atomic that the home serves (R190). -/
def State.counted_ (s : State) (r : Req) : State :=
  if s.home.lastCore.contains (r.line, r.core) then
    s.modCore r.core (fun c => if c.predOf r.line = (r.line / 64, (c.predOf r.line).2) then c.predSet r.line (min ((c.predOf r.line).2 + 1) 3) else c)
  else s

/-- An atomic's lanes whose line words are marked (R175). -/
def LineVal.badLanes (v : LineVal) (w : Nat) (ls : List ALane) : W32 :=
  laneMask ((ls.filter (fun a => v.marked (a.a % 128) (2 ^ w))).map ALane.l)

/-- An atomic that consumes a marked word at its home: none of its lanes is performed (R175). -/
def State.poisonReq (s : State) (r : Req) (m : W32) : State :=
  match s.slat? r.uid with
  | none => s.served r
  | some t => match t.qent? r.seq with
    | none => s.served r
    | some e => (s.served r).poisonEnt t e m

/-- The atomic of a request on a line's value, which put puts back (R86, R194). -/
def State.atomicOn (s : State) (r : Req) (n w : Nat) (sgn ffmt : Bool) (ls : List ALane) (v : LineVal)
    (put : State → LineVal → List (Nat × Byte) → State) : State :=
  if v.badLanes w ls ≠ 0 then s.poisonReq r (v.badLanes w ls)
  else
    let (m, olds) := atomicLanes n w sgn ffmt (r.line * 128) v.bytes ls
    let bs := (ls.map (fun a => (addrs (a.a % 128) (2 ^ w)).map (fun i => (i, sget 0#8 m i)))).flatten
    ((put s { v with bytes := m } bs).deliverAll r olds).served r

/-- The team, rank and offset of a place in a core's banks. -/
def State.spadPlace (s : State) (core a : Nat) : Option (Nat × Nat × Nat) :=
  s.teams.findSome? (fun t => ((t.cores.zipIdx).find? (fun c => c.1.1 == core && decide (c.1.2.1 ≤ a) && decide (a < c.1.2.1 + t.spad))).map
    (fun c => (t.uid, c.2, a - c.1.2.1)))

/-- The lanes of an entry that are on their way, done. -/
def State.doneSent (s : State) (uid seq : Nat) : State :=
  match (s.slat? uid).bind (fun t => t.qent? seq) with
  | some e => s.doneLanes uid seq ((e.lanes.filter (fun x => x.st == .sent)).map Lane.l)
  | none => s

/-- A reply to a grant request (R211, R212), which completes its entry (R90, R223); new says that it sets up a record. -/
def State.grantReply (s : State) (r : Req) (bf : Bool) (region : Nat) (share : Option W32) (new : Bool) : State :=
  let (id, s) := s.fresh
  s.modHome (fun h => { h with net := h.net ++ [⟨id, r.core, .reply r.line bf share r.ctx region, some (r.uid, r.seq, new)⟩] })

/-- FP32 L / n rounded down (R211). -/
def shareOf (limit : W32) (n : Nat) : W32 :=
  match f32 limit with
  | .fin neg m e => let (q, rm) := (m * 2 ^ 40 / n, m * 2 ^ 40 % n)
                    BitVec.ofNat 32 (fround fp32 3 0 false (.fin neg q (e - 40)) (decide (rm ≠ 0))).bits
  | _ => 0#32

/-- A grant request's share (R211, R212): a seat that exists, a new one, or none; new seats are told apart. No L1 keeps a clean copy of a
line that becomes bounded (R210). -/
def State.grantShare (s : State) (r : Req) (region : Nat) : Option W32 × Bool × State :=
  match s.budget? r.line with
  | some b =>
    if b.sharers.any (fun x => x.1 == r.core) then (some b.share, false, s)
    else (some b.share, true, s.putBudget { b with sharers := b.sharers ++ [(r.core, b.nseq)], nseq := b.nseq + 1 })
  | none =>
    let slice := s.sliceOf r.line
    let room := decide ((s.home.budget.filter (fun b => s.sliceOf b.line == slice)).length < Config.maxBudget)
    let quota := decide ((s.home.budget.filter (fun b => b.fn == r.fn)).length < (s.fn r.fn).shq)
    match (if room && quota then s.home.regions.find? (fun g => g.ctx == r.ctx && g.num == region) else none) with
    | none => (none, false, s)
    | some g =>
      let sh := shareOf g.limit g.split
      (some sh, true, (s.dropClean r.line).putBudget ⟨r.line, r.ctx, region, r.fn, g.bf, g.limit, g.split, sh, [(r.core, 0)], 1⟩)

/-- The lanes of an atomic on a bank whose words are marked (R175). -/
def Core.badLanes (c : Core) (w : Nat) (ls : List ALane) : W32 := laneMask ((ls.filter (fun a => c.bankMarked a.a (2 ^ w))).map ALane.l)

/-- A host-located line flushed (R362): its dirty bytes on their way to the host, under the number of the command, no copy of it kept. -/
def State.flushLine (s : State) (line num : Nat) : State :=
  let s := match s.l2? line with
    | some x => if x.dirty then s.toHost line ((List.range 128).map (fun i => (i, x.val.get i))) 0 num else s
    | none => s
  (s.dropL2 line).dropClean line

/-- A line whose contents are abandoned (R374): no copy of it is kept, nothing is written back. -/
def State.abandonLine (s : State) (line : Nat) : State :=
  ((s.dropL2 line).dropClean line).modHome (fun h => { h with drawer := h.drawer.filter (fun d => !(d.wr && d.line == line)) })

/-- The access step of a write-class request (R18), which serves it. -/
def State.access (s : State) (r : Req) : State :=
  match r.msg with
  | .write bs =>
    match r.tgt with
    | .spad c => (s.bankWrite c bs).served r
    | .mem => (s.putHome r.line ((s.homeVal r.line).put (bytesIn r.line bs)) (bytesIn r.line bs) r.fn r.hint r.uid r.seq).served r
  | .atomic n w sgn ffmt ls =>
    match r.tgt with
    | .spad c =>
      if (s.core c).badLanes w ls ≠ 0 then s.poisonReq r ((s.core c).badLanes w ls)
      else
        let (m, olds) := atomicLanes n w sgn ffmt 0 (s.core c).spad ls
        let bs := (ls.map (fun a => (addrs a.a (2 ^ w)).map (fun i => (i, sget 0#8 m i)))).flatten
        ((s.bankWrite c bs).deliverAll r olds).served r
    | .mem => (s.counted_ r).atomicOn r n w sgn ffmt ls (s.homeVal r.line) (fun s v bs => s.putHome r.line v bs r.fn r.hint r.uid r.seq)
  | .own _ _ _ _ ls =>
    if ls.isEmpty then s.served r
    else
      let x : L1Line := ⟨r.line, true, s.homeVal r.line, 0⟩
      let s := s.modCore r.core (fun c => c.putL1 x)
      (s.modHome (fun h => { h with owned := h.owned ++ [(r.line, r.core)] })).setReq { r with st := .fresh }
  | .clamp k a =>
    let loc := match r.tgt with
      | .spad c => (s.spadPlace c a).map (fun x => ClampLoc.spad x.1 x.2.1 x.2.2)
      | .mem => some (ClampLoc.mem a)
    let s := match loc with
      | some loc => s.clampDo loc k r.fn r.uid r.seq
      | none => s
    (s.doneLanes r.uid r.seq [0]).served r
  | .grant bf region adds =>
    let s := s.addHome r.line bf adds r.fn r.uid r.seq
    let (share, new, s) := s.grantShare r region
    (s.grantReply r ((s.budget? r.line).elim bf Budget.bf) region share new).served r
  | .homeAdd bf adds => ((s.addHome r.line bf adds r.fn r.uid r.seq).doneSent r.uid r.seq).served r
  | .copy _ => s.setReq { r with st := .drains [] }
  | .hub _ => s.setReq { r with st := .drains [] }
  | .clear flush => (if flush then s.flushLine r.line r.seq else s.abandonLine r.line).served r
  | _ => s

/-- A write-class request at its turn: settled, then performed. -/
def State.writeClass (s : State) (r : Req) : State :=
  if !(s.turn r) then s
  else
    let (s, ok) := s.settled r
    if ok then s.access r else s

/-- A write has its line at hand, or writes all of it (R17, R18). -/
def State.writable (s : State) (line : Nat) (bs : List (Nat × Byte)) : Bool :=
  s.ripe line || (s.dstOf line).isNone && decide ((upTo 128 (fun i => bs.any (fun b => b.1 == line * 128 + i))).length = 128)

/-- A request that clears a line can begin: what a flush makes real, or its drains are added to, is at hand (R17); what is made real because an
abandoned line leaves its entry (R250). -/
def State.clearable (s : State) (flush : Bool) (line : Nat) : Bool :=
  if flush then ((s.dstOf line).isNone && (s.budget? line).isNone) || s.ripe line else (s.leaveDeps line).all s.near

/-- HOME_WRITE (R18): a store, or a kst write; a store to a peer's scratchpad that had to wait for its core's older entries; a line flushed or
abandoned (R362, R374); a unit's request for a line that it is to write or read, which then holds the line until that unit's step, or is given
up. -/
def execHomeWrite (req : Nat) (s : State) : Out :=
  .next (match s.req? req with
    | some r => match r.msg, r.tgt with
      | .write _, .spad _ => if s.turn r then s.access r else s
      | .write bs, .mem => if r.mail || (s.owner? r.line).isSome || (r.st == .fresh && !(s.writable r.line bs)) then s else s.writeClass r
      | .hub _, .mem =>
        if r.st = .drains [] then s.served r
        else if (s.owner? r.line).isSome || (r.st == .fresh && !(if r.msg = .hub true then s.present r.line else s.ripe r.line)) then s
        else s.writeClass r
      | .clear flush, .mem => if (s.owner? r.line).isSome || (r.st == .fresh && !(s.clearable flush r.line)) then s else s.writeClass r
      | _, _ => s
    | none => s)

/-- An atomic on the copy that its own core holds owned (R86, R190). -/
def State.ownAtomic (s : State) (r : Req) (n w : Nat) (sgn ffmt : Bool) (ls : List ALane) : State :=
  match (s.core r.core).l1? r.line with
  | some x => s.atomicOn r n w sgn ffmt ls x.val (fun s v bs =>
      (s.modCore r.core (fun c => c.putL1 { x with val := v })).toHost r.line bs r.uid r.seq)
  | none => s

/-- ATOMIC_STEP (R86): an atomic or a clamp step, at its home, its owned copy or its bank. -/
def execAtomicStep (req : Nat) (s : State) : Out :=
  .next (match s.req? req with
    | none => s
    | some r =>
      if r.mail then s
      else match r.tgt with
        | .spad _ => match r.msg with
          | .atomic _ _ _ _ _ => if s.turn r then s.access r else s
          | .clamp _ _ => if s.turn r then s.access r else s
          | _ => s
        | .mem =>
          let mine := s.owner? r.line = some r.core
          let free := (s.owner? r.line).isNone && (r.st != .fresh || s.ripe r.line)
          match r.msg with
          | .atomic n w sgn ffmt ls => if mine ∧ s.turn r then s.ownAtomic r n w sgn ffmt ls else if free then s.writeClass r else s
          | .own n w sgn ffmt ls => if mine ∧ s.turn r then s.ownAtomic r n w sgn ffmt ls else s
          | .clamp _ _ => if r.viaHw && free then s.writeClass r else s
          | _ => s)

/-- OWNED_LINE_GRANT (R190): a write-class request; the core, whose L1 has room for it, keeps the line owned and performs the atomic on
it. -/
def execOwnedLineGrant (req : Nat) (s : State) : Out :=
  .next (match s.req? req with
    | some r => match r.msg with
      | .own _ _ _ _ _ =>
        if (s.owner? r.line).isNone && (r.st != .fresh || s.ripe r.line) && (s.core r.core).l1Room r.line then s.writeClass r else s
      | _ => s
    | none => s)

/-- A read that has its destination line filled (R248): a load, an ldt or a prefetch. A vstat resolves nothing (R244); nor does the read of a
clamp, which the list does not name, fill the line or add heat. (Log 92: DESIGN CHOICE.) -/
def Req.fills (r : Req) : Bool :=
  match r.msg with
  | .read _ _ _ => true
  | .prefetch => true
  | _ => false

/-- A copy's source step at a line is due, and reads it as it stands: it feeds no entry of the copy, which would have it made real (R248, R254). -/
def State.sourceDue (s : State) (c : Copy) (line : Nat) : Bool :=
  c.out && c.srcTodo.contains line && !(s.owed c.core c.id) && s.readable line
    && !(s.home.veneers.any (fun v => v.copy == c.id && v.unread.contains line))

/-- A destination line that a read wants filled, at its turn (R18, R248). -/
def State.fillWanted (s : State) (line : Nat) : Bool :=
  !(s.filled line)
    && (s.home.reqs.any (fun r => r.tgt == .mem && r.line == line && r.fills && !(s.absent r) && s.turn r)
        || s.home.copies.any (fun c => s.sourceDue c line))

/-- The destination lines that reads want filled. -/
def State.fillLines (s : State) : List Nat :=
  (s.home.reqs.map Req.line ++ (s.home.copies.map Copy.srcTodo).flatten).filter (fun m => (s.dstOf m).isSome && s.fillWanted m)

/-- A line that something other than its owner's atomics wants at its home (R86), as a source of a fill too (R248). -/
def State.wanted (s : State) (core line : Nat) : Bool :=
  s.fillLines.any (fun m => (s.dstOf m).elim false (fun v => (v.deps m).contains line))
    || s.home.reqs.any (fun r => r.tgt == .mem && r.line == line && !(r.core == core && (match r.msg with
      | .atomic _ _ _ _ _ => true
      | .own _ _ _ _ _ => true
      | _ => false)))
    || s.home.copies.any (fun c => c.srcTodo.contains line || c.dstTodo.contains line)

/-- OWNED_COPY_RECALL (R86, R191). -/
def execOwnedCopyRecall (core line : Nat) (s : State) : Out :=
  .next (if s.owner? line = some core ∧ s.wanted core line then s.giveBack line true else s)

/-- OWNED_COPY_EVICTION (R191). -/
def execOwnedCopyEviction (core line : Nat) (s : State) : Out :=
  .next (if s.owner? line = some core then s.giveBack line false else s)

/-- L1_DROP (R87): a clean copy only. -/
def execL1Drop (core line : Nat) (s : State) : Out :=
  .next (match (s.core core).l1? line with
    | some x => if x.owned then s else s.modCore core (fun c => c.dropL1 line)
    | none => s)

/-- The value a home has at hand for a read (R248): a filled destination line, or the line as its home holds it. -/
def State.atHand (s : State) (line : Nat) : Option LineVal :=
  if (s.owner? line).isSome then none
  else match s.dstOf line with
    | some _ => (s.home.vfill.find? (fun x => x.line == line)).map L2Line.val
    | none => s.held line

/-- A load's line put into its core's L1, under the hint's priority (R83, R169): not under .nl1, not over an owned copy, not where a record
stands. -/
def State.fillL1 (s : State) (core line hint : Nat) (v : LineVal) : State :=
  let c := s.core core
  if hint = 3 ∨ (c.l1? line).elim false L1Line.owned ∨ (c.rec? line).isSome then s
  else s.modCore core (fun c => c.putL1 ⟨line, false, overlay (s.window core) line v, c.l1Hint line hint⟩)

/-- The operation of an entry. -/
def State.entOp (s : State) (uid seq : Nat) : Option EOp := ((s.slat? uid).bind (fun t => t.qent? seq)).map QEnt.op

/-- What a lane of a read finds in its core's hold window as it is served (R83). -/
def State.ahead (s : State) (r : Req) (w : Nat) (x : RLane) : Option Nat :=
  if r.mail then none else some (captured (s.window r.core) .mem x.2 w)

/-- The lanes of a read answered from a line's value, under the hold window's bytes (R83, R173). -/
def State.answer (s : State) (r : Req) (w : Nat) (lanes : List RLane) (v : LineVal) : State :=
  match s.entOp r.uid r.seq with
  | none => s
  | some op => lanes.foldl (fun (s : State) x =>
      let (n, m) := laneBytes v x.2 w (s.ahead r w x)
      s.deliver r.uid r.seq x.1 (op.widen n) m) s

/-- A whole entry done. -/
def State.finishEnt (s : State) (uid seq : Nat) : State :=
  s.modSlat uid (fun t => match t.qent? seq with
    | some e => t.finish e
    | none => t)

/-- The veneer state of a line (R244). -/
def State.vstatWord (s : State) (line : Nat) : W64 :=
  BitVec.ofNat 64 ((if s.isSource line then 2 ^ 62 else 0) + (match s.dstOf line with
    | some v => 2 ^ 63 + (if v.promoting then 2 else 1) * 2 ^ 60 + v.idx * 2 ^ 32 + v.heat
    | none => 0))

/-- A clamp's virtual place in an entry. -/
def State.clampVa (s : State) (uid seq : Nat) : W64 :=
  match (((s.slat? uid).bind (fun t => t.qent? seq)).bind (fun e => e.lanes.head?)).map Lane.loc with
  | some (.glob va _) => va
  | _ => 0#64

/-- The clamp's selector and space in an entry. -/
def State.clampSel (s : State) (uid seq : Nat) : Nat × W64 :=
  match s.entOp uid seq with
  | some (.clamp _ space sel) => (space, sel)
  | _ => (0, 0#64)

/-- HOME_READ (R83, R248): a load, prefetch, vstat or clamp read that finds its line at hand and no budget entry. A copy that has come
into the core's L1 since the load missed stands before the home. The read of a clamp on a bounded line takes the home's bytes, with nothing
drained and nothing of its core added, since R222 gives no tolerance for it. (Log 92: DESIGN CHOICE.) -/
def execHomeRead (req : Nat) (s : State) : Out :=
  .next (match s.req? req with
    | none => s
    | some r =>
      if r.mail || !(s.turn r) || s.drainHeld r then s
      else match r.msg with
        | .read w lanes none =>
          if (s.budget? r.line).isSome then s
          else match s.atHand r.line with
            | some v => match (s.core r.core).l1? r.line with
              | some x => (s.answer r w lanes x.val).served r
              | none => ((s.answer r w lanes v).fillL1 r.core r.line r.hint v).served r
            | none => s
        | .prefetch =>
          if (s.budget? r.line).isSome then (s.doneSent r.uid r.seq).served r
          else match s.atHand r.line with
            | some v => ((s.doneSent r.uid r.seq).fillL1 r.core r.line r.hint v).served r
            | none => s
        | .stat dst =>
          let x := s.vstatWord r.line
          (((s.modSlat r.uid (fun t => t.sput dst x false)).finishEnt r.uid r.seq).note r.uid r.seq 6 [(dst, x.toNat, 0#32)] none).served r
        | .clamp k a =>
          if r.viaHw || (s.owner? r.line).isSome || !(s.present r.line) then s
          else
            let (space, sel) := s.clampSel r.uid r.seq
            let c := s.clampAt (.mem a)
            ((s.clampRead r.uid r.seq k space sel (.mem a) (s.clampVa r.uid r.seq) c).note r.uid r.seq 5 [(a, leNat c.bytes, 0#32)] none).served r
        | _ => s)

/-- RESOLUTION_READ (R248): a source home serves its part of a fill, as a read at its place. -/
def execResolutionRead (line src : Nat) (s : State) : Out :=
  .next (match s.dstOf line with
    | none => s
    | some v =>
      if !(s.fillWanted line) || !((v.deps line).contains src) || !(s.readable src) || (s.owner? src).isSome then s
      else match s.held src with
        | none => s
        | some x =>
          let f := (s.home.filling.find? (fun f => f.line == line)).getD ⟨line, []⟩
          s.modHome (fun h => { h with
            filling := { f with got := sput f.got src x } :: h.filling.filter (fun f => f.line != line) }))

/-- An entry's heat after a fill, and its promotion at the threshold (R249). -/
def State.heated (s : State) (v : Veneer) : State :=
  let heat := min (v.heat + 1) (2 ^ 32 - 1)
  let thr := (s.fn v.fn).thr
  let over_ := thr ≠ 0 ∧ thr ≤ heat
  let hot := over_ ∧ v.promoting = false
  let s := s.modHome (fun h => { h with
    veneers := h.veneers.map (fun x => if x.idx = v.idx then
      { x with heat := heat, promoting := x.promoting || decide over_, since := if hot then s.next else x.since } else x) })
  if hot then s.modFn v.fn (fun f => { f with vhot := (f.vhot + 1) % 2 ^ 64 }) else s

/-- VENEER_FILL (R248): the bytes of every source returned, the line is filled in L2 as a clean line, under its entry's priority (R235), and
heat added. -/
def execVeneerFill (line : Nat) (s : State) : Out :=
  .next (match s.dstOf line, s.home.filling.find? (fun f => f.line == line) with
    | some v, some f =>
      if !((v.deps line).all (fun d => f.got.any (fun g => g.1 == d))) then s
      else
        let src := fun (a : Nat) => sget LineVal.zero f.got (lineOf a)
        let x := v.resolve line (fun a => (src a).get (a % 128)) (fun a => (src a).marked (a % 128) 1)
        let w := s.l2Way line v.fn
        ((w.2.elim s s.l2Out).modHome (fun h => { h with
          vfill := ⟨line, x, false, v.fn, v.hint, w.1⟩ :: h.vfill.filter (fun y => y.line != line)
          filling := h.filling.filter (fun f => f.line != line) })).heated v
    | _, _ => s)

/-- MATERIALISE_REQUEST (R251): a dependent of a source line whose write waits is materialised at its own home. -/
def execMaterialiseRequest (line : Nat) (s : State) : Out :=
  .next (if !(s.waiting line) && s.ripe line
      && s.home.reqs.any (fun r => r.tgt == .mem && r.st == .mat && (s.joinedDependents r.line).contains line)
    then s.materialise line else s)

/-- MATERIALISE_COMPLETE (R251): every dependent is real; the waiting request goes on. -/
def execMaterialiseComplete (req : Nat) (s : State) : Out :=
  .next (match s.req? req with
    | some r =>
      if r.st = .mat ∧ !(s.depsLeft r.line r.isCopy) then
        let (s, ok) := (s.markDeps r.line).boundedStep r
        if ok then s.access r else s
      else s
    | none => s)

/-- HOT_MATERIALISE (R249): the lowest remaining line of a promoting entry, once its sources have been read. -/
def execHotMaterialise (entry : Nat) (s : State) : Out :=
  .next (match s.home.veneers.find? (fun v => v.idx == entry && v.promoting) with
    | some v => match v.lines.find? (fun m => v.isDst m) with
      | some m => if s.waiting m ∨ !(s.ripe m) then s else s.materialise m
      | none => s
    | none => s)

end Sys2Proof.Machine
end

