-- ==== Sys2Proof/Machine/Bounded.lean ====
section
/-! DEFINITION. Grants, tolerant reads, drains and force-drains at the homes and cores (R210 to R215, R222). -/

namespace Sys2Proof.Machine

/-- GRANT_REQUEST (R212): a core's first addition to a bounded line, at its home. -/
def execGrantRequest (req : Nat) (s : State) : Out :=
  .next (match s.req? req with
    | some r => match r.msg with
      | .grant _ _ _ => if (s.owner? r.line).isNone && (r.st != .fresh || s.ripe r.line) then s.writeClass r else s
      | _ => s
    | none => s)

/-- HOME_ADD (R212): additions that their core does not withhold; every share stays. -/
def execHomeAdd (req : Nat) (s : State) : Out :=
  .next (match s.req? req with
    | some r => match r.msg with
      | .homeAdd _ _ => if (s.owner? r.line).isNone && (r.st != .fresh || s.ripe r.line) then s.writeClass r else s
      | _ => s
    | none => s)

/-- A message to a core, if it is the next for its core and line (R213: in the order they were sent). -/
def State.net? (s : State) (id : Nat) : Option Net :=
  let line := fun (n : Net) => match n.msg with
    | .reply l _ _ _ _ => l
    | .force l _ _ => l
    | .ack l => l
  match s.home.net.find? (fun n => n.id == id) with
  | none => none
  | some n => s.home.net.find? (fun m => m.core == n.core && line m == line n) |>.filter (fun m => m.id == id)

/-- A message taken. -/
def State.taken (s : State) (id : Nat) : State := s.modHome (fun h => { h with net := h.net.filter (fun n => n.id != id) })

/-- The record of a core whose grant came first (R211). -/
def Core.oldest (c : Core) : Option DeltaRec :=
  match c.recs with
  | [] => none
  | r :: t => some (t.foldl (fun a b => if b.order < a.order then b else a) r)

/-- Room for one more record in a core: the oldest is drained and given up if there is none (R211). -/
def State.roomRec (s : State) (core : Nat) : State :=
  if (s.core core).recs.length < Config.maxRecords then s
  else match (s.core core).oldest with
    | some r => s.sendGiveUp core r
    | none => s

/-- Room in a core's L1 for the n lines of a record (R14, R211): clean lines make way, then the oldest record whose lines lie where they are
needed; none where only owned lines stand there, which have to leave first (R191). (Log 69: DESIGN CHOICE.) -/
def State.roomL1 (s : State) (core line n : Nat) : Nat → Option State
  | 0 => none
  | fuel + 1 =>
    let c := s.core core
    let all := c.l1.length + c.recLines (fun _ => true)
    let set := (c.l1.filter (fun y => sameL1Set y.line line)).length + c.recLines (sameL1Set line)
    if all + n ≤ Config.l1Lines ∧ set + n ≤ Config.l1Ways then some s
    else
      let near := fun (l : Nat) => decide (Config.l1Lines < all + n) || sameL1Set l line
      match firstOut L1Line.hint (c.l1.reverse.filter (fun y => !y.owned && near y.line)) with
      | some y => (s.modCore core (fun c => c.dropL1 y.line)).roomL1 core line n fuel
      | none => match ({ c with recs := c.recs.filter (fun r => near r.line) } : Core).oldest with
        | some r => (s.sendGiveUp core r).roomL1 core line n fuel
        | none => none

/-- GRANT_REPLY (R211): the entry that asked completes (R223), and the record is set up, unless no share came or the core's seat is not a
new one (R212); it stands in the core's L1, which has to have room for it. The share of a context that has ended is given up (R361). -/
def execGrantReply (msg : Nat) (s : State) : Out :=
  .next (match s.net? msg with
    | some ⟨_, core, .reply line bf share ctx region, ent⟩ =>
      let done := fun (s : State) => (ent.elim s (fun e => s.doneSent e.1 e.2.1)).taken msg
      match share with
      | none => done s
      | some sh =>
        if ((s.core core).rec? line).isSome || !(ent.elim true (fun e => e.2.2)) then done s
        else if ctx = noCtx then
          let r : DeltaRec := ⟨line, bf, [], 0#32, sh, false, 0, noCtx, region⟩
          (done s).sendGiveUp core r
        else match ((s.modCore core (fun c => c.dropL1 line)).roomRec core).roomL1 core line (if bf then 2 else 1) (2 * Config.l1Lines) with
          | none => s
          | some s =>
            let (n, s) := (done s).fresh
            s.modCore core (fun c => c.putRec ⟨line, bf, [], 0#32, sh, false, n, ctx, region⟩)
    | _ => s)

/-- FORCE_DRAIN (R212): the sharer replies with what it withholds, and deletes its record on a reclaim or revoke. -/
def execForceDrain (msg : Nat) (s : State) : Out :=
  .next (match s.net? msg with
    | some ⟨_, core, .force line gone req, _⟩ =>
      let s := s.taken msg
      match (s.core core).rec? line with
      | some r =>
        let (fn, part) := s.recOwner r
        let s := s.modCore core (fun c => if gone then c.dropRec line else c.putRec (r.empty r.draining))
        s.enterHw (coreReq core line r fn part (.reply r.bf r.carried gone req))
      | none =>
        let r : DeltaRec := ⟨line, false, [], 0#32, 0#32, false, 0, 0, 0⟩
        s.enterHw (coreReq core line r 0 0 (.reply false [] gone req))
    | _ => s)

/-- What a drain, give-up or reply carries, added at the home (R213), its line first made a plain one (R18); what it has passed on its way is
noted (R85). -/
def State.applyDrain (s : State) (r : Req) (bf : Bool) (d : List Add) : State :=
  ((((s.materialise r.line 0 r.id).settleSource r.line).addHome r.line bf d r.fn 0 r.id).modHome (fun h => { h with
    passed := (h.passed ++ s.overtaken r.core r.id).eraseDups })).served r

/-- A grant request of a line that waits for a sharer's place (R212). -/
def State.reclaiming (s : State) (line : Nat) : Bool :=
  s.home.reqs.any (fun r => r.tgt == .mem && r.line == line && r.adds && r.st != .fresh)

/-- A sharer gone; the entry is freed with its last one, unless a grant takes its place (R212). -/
def State.unshare (s : State) (line core : Nat) : State :=
  match s.budget? line with
  | some b =>
    let b : Budget := { b with sharers := b.sharers.filter (fun x => x.1 != core) }
    if s.reclaiming line then s.setBudget b else s.putBudget b
  | none => s

/-- Whether a drain, give-up or reply can be applied now. -/
def State.settleReady (s : State) (r : Req) : Bool := (s.owner? r.line).isNone && s.ripe r.line
  && (s.joinedDependents r.line).all s.ripe && s.settleTurn r

/-- DRAIN (R212, R213): the delta is applied and acknowledged; the sharer stays. -/
def execDrain (req : Nat) (s : State) : Out :=
  .next (match s.req? req with
    | some r => match r.msg with
      | .drain bf d =>
        if s.settleReady r then
          let s := s.applyDrain r bf d
          let (id, s) := s.fresh
          s.modHome (fun h => { h with net := h.net ++ [⟨id, r.core, .ack r.line, none⟩] })
        else s
      | _ => s
    | none => s)

/-- No request of a line waits for a core's reply any more: its record is gone. -/
def State.unwait (s : State) (line core : Nat) : State :=
  s.modHome (fun h => { h with reqs := h.reqs.map (fun w => match w.st with
    | .drains cs => if w.tgt = .mem ∧ w.line = line then { w with st := .drains (cs.filter (fun c => c != core)) } else w
    | _ => w) })

/-- GIVE_UP (R212): the delta is applied, the sharer removed; a request that waits for that sharer has what it waited for. -/
def execGiveUp (req : Nat) (s : State) : Out :=
  .next (match s.req? req with
    | some r => match r.msg with
      | .giveUp bf d => if s.settleReady r then ((s.applyDrain r bf d).unshare r.line r.core).unwait r.line r.core else s
      | _ => s
    | none => s)

/-- FORCE_DRAIN_REPLY (R213): a reply taken as part of the request that waits for it; one that nothing waits for any more leaves the seat
as it is. -/
def execForceDrainReply (req : Nat) (s : State) : Out :=
  .next (match s.req? req with
    | some r => match r.msg with
      | .reply bf d gone dest =>
        if s.settleReady r then
          let s := s.applyDrain r bf d
          match s.req? dest with
          | some w => match w.st with
            | .drains cs =>
              if cs.contains r.core then
                (if gone then s.unshare r.line r.core else s).setReq { w with st := .drains (cs.filter (fun c => c != r.core)) }
              else s
            | _ => s
          | none => s
        else s
      | _ => s
    | none => s)

/-- DRAIN_ACK (R213): the record holds again, and what waited for the drain goes on. -/
def execDrainAck (core line : Nat) (s : State) : Out :=
  .next (match s.home.net.find? (fun n => n.core == core && n.msg == .ack line) with
    | some n =>
      if (s.net? n.id).isNone then s
      else
        let s := (s.taken n.id).modCore core (fun c => match c.rec? line with
          | some r => c.putRec { r with draining := false }
          | none => c)
        s.mapSlats (fun t => if t.core = core then t.drained line else t)
    | none => s)

/-- SPONTANEOUS_DRAIN (R211): any record, at any step. -/
def execSpontaneousDrain (core line : Nat) (s : State) : Out :=
  .next (match (s.core core).rec? line with
    | some r => if r.draining then s else s.sendDrain core r
    | none => s)

/-- k shares, exactly. -/
def shares (k : Nat) (share : W32) : FVal := match f32 share with
  | .fin neg m e => .fin neg (k * m) e
  | v => v

/-- Sharers of an entry other than the requester that a tolerance does not cover: those drained, lowest sequence first (R212). -/
def Budget.toDrain (b : Budget) (core : Nat) (tol : W32) : List Nat :=
  let others := (b.bySeq.filter (fun x => x.1 != core)).map Prod.fst
  match (List.range (others.length + 1)).find? (fun j => fle (shares (others.length - j) b.share) (f32 tol)) with
  | some j => others.take j
  | none => others

/-- The format of the elements of a bounded read: the entry's, the record's, or that of the region that holds it, also where the home has no
budget entry of the line. (Log 93: DESIGN CHOICE.) -/
def State.readFmt (s : State) (r : Req) : Option Bool :=
  match s.budget? r.line, (s.core r.core).rec? r.line with
  | some b, _ => some b.bf
  | none, some d => some d.bf
  | none, none => (s.regionOf r.ctx (s.clampVa r.uid r.seq)).map Region.bf

/-- A line with each element that a lane covers formed with the core's own delta, in the region's format (R222). -/
def formed (bf : Bool) (own : List (Nat × W32)) (w : Nat) (lanes : List RLane) (v : LineVal) : LineVal :=
  let es := ((lanes.map (fun x => (addrs (x.2 % 128) w).map (fun a => a / elemBytes bf))).flatten).eraseDups
  es.foldl (fun v e => addElem bf v (e, sget 0#32 own e)) v

/-- An ldt lane's FP32 result (R215, R219): the home element plus the core's own delta, rounded once. -/
def ldtValue (bf : Bool) (own : List (Nat × W32)) (a h : Nat) : Nat :=
  let hv := if bf then b16 (h % 65536) else fdec fp32 (h % 2 ^ 32)
  (toF32 (fsum 0 hv (f32 (sget 0#32 own (a % 128 / elemBytes bf))))).toNat

/-- A tolerant read answered (R215, R219, R222); bnd says that its core asked with a tolerance. An `ldt` that did not is an `ld` of its
width. The bytes that its core's hold window has for it stand over the home's, as for a load (R83). (Log 93: DESIGN CHOICE.) -/
def State.answerTol (s : State) (r : Req) (bnd : Bool) (w : Nat) (lanes : List RLane) (v : LineVal) : State :=
  let own := ((s.core r.core).rec? r.line).elim [] DeltaRec.delta
  match s.entOp r.uid r.seq, s.readFmt r with
  | some (.ldt bf _), some fmt =>
    if bnd then lanes.foldl (fun (s : State) x =>
      let (n, m) := laneBytes v x.2 w (s.ahead r w x)
      s.deliver r.uid r.seq x.1 (ldtValue bf own x.2 n) m) s
    else s.answer r w lanes (formed fmt own w lanes v)
  | some (.ldt bf _), none => lanes.foldl (fun (s : State) x =>
      let (n, m) := laneBytes v x.2 w (s.ahead r w x)
      s.deliver r.uid r.seq x.1 (ldtValue bf own x.2 n) m) s
  | some _, some bf => s.answer r w lanes (formed bf own w lanes v)
  | _, _ => s.answer r w lanes v

/-- TOLERANT_READ (R212): answered when the sharers it does not cover are drained; it fills no L1 (R83). -/
def execTolerantRead (req : Nat) (s : State) : Out :=
  .next (match s.req? req with
    | none => s
    | some r => match r.msg with
      | .read w lanes tol =>
        if r.mail || !(s.turn r) || s.drainHeld r || (tol.isNone && (s.budget? r.line).isNone) then s
        else match s.atHand r.line with
          | none => s
          | some v => match r.st, s.budget? r.line with
            | .fresh, some b =>
              let cs := b.toDrain r.core (tol.getD 0#32)
              if cs.isEmpty then (s.answerTol r tol.isSome w lanes v).served r else s.force r cs false
            | .drains (_ :: _), _ => s
            | _, _ => (s.answerTol r tol.isSome w lanes v).served r
      | _ => s)

end Sys2Proof.Machine
end

