-- ==== Sys2Proof/Machine/Control.lean ====
section
/-! DEFINITION. CLAUSE_ISSUE and the control-flow instructions (R53, R112 to R118). -/

namespace Sys2Proof.Machine

/-- CLAUSE_ISSUE (R53): the quadrant's next clause. -/
def execClauseIssue (core quad : Nat) (s : State) : Out := .next (s.clauseIssue core quad)

/-- The issuing fragment sent elsewhere. -/
def Slat.goto (t : Slat) (u : Issue) (pc : W64) : Slat := t.setEnt u.ent { t.ent u.ent with pc := pc }

/-- The target of an offset counted from the header of the clause (R50, R116). -/
def Issue.target (u : Issue) (o : IOp) : W64 := u.h + imm64 o

/-- The word after the clause (R113, R116). -/
def Issue.after (u : Issue) : W64 := u.h + BitVec.ofNat 64 (u.len + 1)

/-- BRA (R116): the whole fragment goes to h + imm. -/
def execBra (o : IOp) (s : State) : Out :=
  scaDo s o.h [] (fun t u => s.advance (t.goto u (u.target o)) u)

/-- The state of the split table after a divergent branch of both kinds (R113); none where neither two entries nor a record
is free. -/
def Slat.split_ (t : Slat) (e : Nat) (tk fl : W32) (tgt ft rv : W64) : Option Slat :=
  let x := t.ent e
  match upTo 8 (fun k => (t.ent k).st == .free) with
  | a :: b :: _ =>
    let run := fun (m : W32) (pc : W64) => { SplitEntry.free with st := .running, mask := m, pc := pc, rcv := some rv, join := .entry e }
    some (((t.setEnt e { x with st := .waiting, pc := rv, pend := x.mask }).setEnt a (run tk tgt)).setEnt b (run fl ft))
  | _ =>
    if t.recs.length < 32 then
      some (({ t with recs := t.recs ++ [⟨e, fl, ft, x.mask, x.rcv, x.join, 1⟩] } : Slat).setEnt e
        { x with mask := tk, pc := tgt, rcv := some rv, join := .deferred })
    else none

/-- The BOUNDS of a branch that cannot split: sub-reason 0x1A, the branch's word, %tepc at the header (R113, R332). -/
def Issue.splitFull (u : Issue) : Cause :=
  { boundsF u.cid u.ent 0x1A with raw := some (BitVec.ofNat 64 (0x1A * 2 ^ 32 + 0xF00 + u.len)), at_ := some u.h }

/-- BRA_DIVERGENT (R113): the fragment splits into its taken and fall-through lanes. -/
def execBraDivergent (o : IOp) (s : State) : Out :=
  onFrag s fun t u =>
    let m := (t.ent u.ent).mask
    let tk := laneMask (t.active u o.h)
    let fl := m &&& ~~~tk
    if tk = 0 then s.advance (t.goto u u.after) u
    else if fl = 0 then s.advance (t.goto u (u.target o)) u
    else match t.split_ u.ent tk fl (u.target o) u.after (u.h + o.rvOff.signExtend 64) with
      | some t' => s.advance t' u
      | none => match u.cls with
        | .alu => s.abortAlu t u u.splitFull
        | _ => s.advance (t.raise u.splitFull) u

/-- BRX (R116): to a word address held in a scalar register. -/
def execBrx (o : ROp) (s : State) : Out :=
  scaDo s o.h [o.a] (fun t u => s.advance (t.goto u (t.srcS o.a).1) u)

/-- CALL (R116): the return address to sD, then the branch; no stack is kept. -/
def execCall (o : IOp) (s : State) : Out :=
  scaDo s o.h [] (fun t u => s.advance ((t.sput o.dst.toNat u.after false).goto u (u.target o)) u)

/-- RET (R116): to a return address held in a scalar register. -/
def execRet (o : ROp) (s : State) : Out :=
  scaDo s o.h [o.a] (fun t u => s.advance (t.goto u (t.srcS o.a).1) u)

/-- EXIT (R115, R117): the fragment's lanes leave the slat; what is on its queues still takes effect. -/
def execExit (o : ZOp) (s : State) : Out :=
  scaDo s o.h [] (fun t u => s.advance (dropLanes t (t.ent u.ent).mask).settleSplit u)

/-- YIELD (R116): the branch, and the fragment is deferred. -/
def execYield (o : IOp) (s : State) : Out :=
  scaDo s o.h [] (fun t u => s.advance (t.goto u (u.target o)) { u with yld := true })

/-- NOP (R116): nothing. -/
def execNop (_o : ZOp) (s : State) : Out := onFrag s fun t u => s.advance t u

/-- PART (R118): %part of the whole slat. -/
def execPart (o : IOp) (s : State) : Out :=
  scaDo s o.h [] (fun t u => s.advance { t with width := o.imm.toNat } u)

end Sys2Proof.Machine
end

