-- ==== Sys2Proof/Machine/Copy.lean ====
section
/-! DEFINITION. Copy instructions: issue, checks, recording, source and destination steps (R231 to R244, R253 to R255, R397). -/

namespace Sys2Proof.Machine

/-- A copy instruction at issue (R54, R234, R236): guards, operands, its counter, a length of 0, the entry on cp, the continuation. -/
def copyIssue (o : XOp) (op : Nat) (srcs : List (BitVec 6)) (s : State) : Out :=
  scaCtr s o.h (ctrOf o.ctr) (srcs.map Src.s) (fun t u =>
    let to_ := u.h + o.c16.signExtend 64
    let n := t.sget o.sN.toNat
    if op ≠ 7 ∧ n = 0 then s.advance (if o.cont then t.goto u to_ else t) u
    else
      let c : CopyOps := ⟨op, t.sget o.sD.toNat, t.sget o.sS.toNat, n, t.sget o.sE.toNat, o.sD.toNat, o.h.hint.toNat⟩
      let t := if o.cont then t.setEnt u.ent { t.ent u.ent with pc := to_, cont := some (s.next + 1) } else t
      s.issueEnts t u (ctrOf o.ctr) [] [⟨[.cp], .copy c, []⟩] [])

/-- CPY (R239). -/
def execCpy (o : XOp) (s : State) : Out := copyIssue o 0 [o.sD, o.sS, o.sN] s
/-- CPYE (R239). -/
def execCpye (o : XOp) (s : State) : Out := copyIssue o 1 [o.sD, o.sS, o.sN] s
/-- REL (R239). -/
def execRel (o : XOp) (s : State) : Out := copyIssue o 2 [o.sD, o.sS, o.sN, o.sE] s
/-- CPYS (R240). -/
def execCpys (o : XOp) (s : State) : Out := copyIssue o 3 [o.sD, o.sS, o.sN] s
/-- CPYM (R241). -/
def execCpym (o : XOp) (s : State) : Out := copyIssue o 4 [o.sD, o.sS, o.sN, o.sE] s
/-- MAT (R242). -/
def execMat (o : XOp) (s : State) : Out := copyIssue o 5 [o.sD, o.sN] s
/-- VDROP (R243). -/
def execVdrop (o : XOp) (s : State) : Out := copyIssue o 6 [o.sD, o.sN] s
/-- VSTAT (R244). -/
def execVstat (o : XOp) (s : State) : Out := copyIssue o 7 [o.sS] s

/-- Why a whole entry stops: a synchronous fault with its lanes field (R238), or a page for the fault service. -/
inductive Stop where
  | sync (code reason : Nat) (lanes : W32)
  | served (lanes : W32) (kind why page size : Nat) (leaf va : W64)
  deriving DecidableEq, Repr

/-- The pages of a range checked in ascending order; its physical segments when all pass (R238). regen is the page after whose regeneration
the entry is replayed (R167). -/
def State.pagesOk (s : State) (t : Slat) (need : Need) (regen : Option Nat) (va : W64) (rng : W32) :
    List (Nat × Nat) → Except Stop (List (Nat × Nat × Nat)) × State
  | [] => (.ok [], s)
  | (off, len) :: rest =>
    let a := va + BitVec.ofNat 64 off
    let (f, s) := s.check t.core t.ctx t.part t.level need a
    match f.againAt regen a with
    | .sync code reason => (.error (.sync code reason rng), s)
    | .served kind why page size e => (.error (.served rng kind why page size e a), s)
    | .ok pa _ => match s.pagesOk t need regen va rng rest with
      | (.ok segs, s) => (.ok ((off, pa, len) :: segs), s)
      | (.error x, s) => (.error x, s)

/-- A range's segments. -/
def State.rangeOk (s : State) (t : Slat) (need : Need) (regen : Option Nat) (va : W64) (n : Nat) (rng : W32) :
    Except Stop (List (Nat × Nat × Nat)) × State :=
  s.pagesOk t need regen va rng (s.pagesOf t.ctx t.part va n)

/-- A transform descriptor; none where it is malformed (R229). -/
def xformOf (n : Nat) : Option Xform :=
  let f := natField n
  let x : Xform := ⟨f 1 0, f 3 2, f 5 4, f 7 6, f 11 8, f 15 12, f 95 64, f 127 96, BitVec.ofNat 32 (f 159 128)⟩
  let fmt := fun (c : Nat) => c == 8 || c == 10 || c == 11
  let one := fun (k : Nat) => decide (1 ≤ k) && decide (k ≤ 2 ^ 24)
  let ok := f 255 160 == 0 && f 63 16 == 0 && (match x.kind with
    | 0 => f 15 2 == 0 && x.rows == 0 && x.cols == 0 && x.scale == 0#32
    | 1 => x.ovf == 0 && x.rnd == 0 && x.sfmt == 0 && x.dfmt == 0 && x.scale == 0#32 && x.esz != 3 && one x.rows && one x.cols
    | 2 => x.esz == 0 && x.rows == 0 && x.cols == 0 && fmt x.sfmt && fmt x.dfmt && x.sfmt != x.dfmt
        && (decide (x.ovf < 2) || (x.ovf == 2 && x.dfmt == 11))
    | _ => false)
  if ok then some x else none

/-- What a page of a copy's source and descriptor, and of its destination, must grant (R238). -/
def Need.copySrc : Need := ⟨true, false, false, some 9⟩
/-- What a page of a copy's destination must grant (R238). -/
def Need.copyDst : Need := ⟨false, true, false, some 9⟩

/-- What a copy that passed its checks does. -/
structure CopyPlan where
  xf : Xform
  src : List (Nat × Nat × Nat)
  dst : List (Nat × Nat × Nat)
  banks : List (Nat × Nat × Nat)
  coff : Option Nat

/-- The descriptor of a rel (R238, second check). -/
def State.descOf (s : State) (t : Slat) (c : CopyOps) (regen : Option Nat) : Except Stop Xform × State :=
  if c.op ≠ 2 then (.ok Xform.ident, s)
  else if c.e.toNat % 32 ≠ 0 then (.error (.sync 4 1 4), s)
  else match s.rangeOk t Need.copySrc regen c.e 32 4 with
    | (.error x, s) => (.error x, s)
    | (.ok segs, s) => match xformOf (leNat ((List.range 32).map (fun i => s.coreByte t.core (segAddr segs i)))) with
      | some x => (.ok x, s)
      | none => (.error (.sync 7 7 4), s)

/-- Checks 1 and 3 to 6 of R238, with the transform known. -/
def State.copyForm (s : State) (t : Slat) (c : CopyOps) (x : Xform) : Except Stop (List (Nat × Nat × Nat) × Option Nat) :=
  let n := c.n.toNat
  let w := c.e.toNat
  let coff := natField w 49 32
  let spad := (s.team? t.team).elim 0 Team.spad
  if (x.kind = 1 ∧ n ≠ x.rows * x.cols * x.dz) ∨ (x.kind = 2 ∧ n % x.dz ≠ 0) then .error (.sync 7 6 0)
  else if c.op ≤ 2 ∧ c.s.toNat % x.sz ≠ 0 then .error (.sync 4 1 1)
  else if c.op ≤ 2 ∧ c.d.toNat % x.dz ≠ 0 then .error (.sync 4 1 2)
  else if c.op = 6 ∧ (c.d.toNat % 128 ≠ 0 ∨ n % 128 ≠ 0) then .error (.sync 4 1 2)
  else if c.op = 4 ∧ w.testBit 30 = false ∧ coff % 16 ≠ 0 then .error (.sync 4 1 8)
  else if c.op = 3 then
    if spad < c.d.toNat + n then .error (.sync 7 1 2) else .ok ([(t.team, s.rank t, c.d.toNat)], none)
  else if c.op = 4 then
    match s.peerSet t c.e with
    | none => .error (.sync 7 2 8)
    | some (m, ranks) =>
      if m.spad < c.d.toNat + n then .error (.sync 7 1 2)
      else if w.testBit 30 = false ∧ m.spad < coff + 16 then .error (.sync 7 1 8)
      else .ok (ranks.map (fun r => (m.uid, r, c.d.toNat)), if w.testBit 30 then none else some coff)
  else .ok ([], none)

/-- Every check of a copy in the order of R238. (Log 37: DEDUCED.) -/
def State.checkCopy (s : State) (t : Slat) (c : CopyOps) (regen : Option Nat) : Except Stop CopyPlan × State :=
  let n := c.n.toNat
  if (if c.op = 3 ∨ c.op = 4 then 2 ^ 18 else 2 ^ 32) < n then (.error (.sync 7 6 0), s)
  else match s.descOf t c regen with
    | (.error x, s) => (.error x, s)
    | (.ok x, s) => match s.copyForm t c x with
      | .error e => (.error e, s)
      | .ok (banks, coff) =>
        let src := if c.op ≤ 4 then s.rangeOk t Need.copySrc regen c.s (x.srcLen n) 1 else (.ok [], s)
        match src with
        | (.error e, s) => (.error e, s)
        | (.ok src, s) =>
          let dst := if c.op ≤ 2 ∨ 5 ≤ c.op then s.rangeOk t Need.copyDst regen c.d n 2 else (.ok [], s)
          match dst with
          | (.error e, s) => (.error e, s)
          | (.ok dst, s) => (.ok ⟨x, src, dst, banks, coff⟩, s)

/-- An entry that stands for a whole instruction has left its queue. (Log 20: DESIGN CHOICE.) -/
def State.leftQueue (s : State) (uid seq : Nat) : State :=
  s.modSlat uid (fun t => match t.qent? seq with
    | some e => t.setQent { e with lanes := [⟨0, .badSel 0, none, .sent⟩] }
    | none => t)

/-- A whole entry stopped by a check (R238, R304): abandoned with its cause, or waiting on the fault service. -/
def State.stopEnt (s : State) (t : Slat) (e : QEnt) (access : Nat) (x : Stop) : State :=
  match x with
  | .sync code reason lanes => s.modSlat t.uid (fun t => (t.raise (e.cause code reason lanes)).finish e)
  | .served lanes kind why page size leaf va =>
    match s.serve t kind access page size va 0#32 leaf 0 with
    | (some tok, s) => s.modSlat t.uid (fun t => t.setQent { e with tok := some (tok, why, lanes) })
    | (none, s) => s.modSlat t.uid (fun t => (t.raise (e.cause 5 why lanes)).finish e)

/-- A vstat leaves: its read goes to the home; what cannot be translated, a mailbox page and a host-owned page give 0 (R244). -/
def State.leaveVstat (s : State) (t : Slat) (e : QEnt) (c : CopyOps) : State :=
  match s.peekLeaf t c.s, s.peekPa t c.s with
  | some l, some (pa, _) =>
    if pteOwn l = 1 then (s.leftQueue t.uid e.seq).send (mkReq t e .cp .mem (lineOf pa) 0 false (.stat c.dst))
    else s.modSlat t.uid (fun t => (t.sput c.dst 0#64 false).finish e)
  | _, _ => s.modSlat t.uid (fun t => (t.sput c.dst 0#64 false).finish e)

/-- The bytes of the descriptor that a rel reads (R238). -/
def State.descAs (s : State) (t : Slat) (c : CopyOps) (regen : Option Nat) : List Nat :=
  if c.op ≠ 2 ∨ 2 ^ 32 < c.n.toNat ∨ c.e.toNat % 32 ≠ 0 then []
  else match (s.rangeOk t Need.copySrc regen c.e 32 4).1 with
    | .ok segs => (List.range 32).map (segAddr segs)
    | .error _ => []

/-- A copy's entry leaves cp (R233, R238), once its descriptor can be read: checks, its core's own records given up, one record message into
the hold window. -/
def State.leaveCopy (s : State) (t : Slat) (e : QEnt) (c : CopyOps) : State :=
  let as := s.descAs t c e.regen
  if c.op = 7 then s.leaveVstat t e c
  else if !(s.coreReady t.core as) then s.coreWant t as
  else match s.checkCopy t c e.regen with
    | (.error x, s) => (s.hubFree true (linesOf as)).stopEnt t e 3 x
    | (.ok p, s) =>
      let s := s.hubFree true (linesOf as)
      let s := (segLines p.src ++ (if c.op = 5 then [] else segLines p.dst)).foldl (fun (s : State) l => s.giveUpOwn t.core l) s
      let k : Copy :=
        { id := s.next, uid := t.uid, seq := e.seq, core := t.core, ctx := t.ctx, fn := t.fn, part := t.part, ops := c, xf := p.xf,
          src := p.src, dst := p.dst, out := false, banks := p.banks, coff := p.coff, pend := 0, srcTodo := [], dstTodo := [],
          snaps := [], via := [], perform := [] }
      let s := s.modHome (fun h => { h with copies := h.copies ++ [k] })
      (s.leftQueue t.uid e.seq).enterHw (mkReq t e .cp .mem 0 0 false (.copy k.id))

/-- A copy by its number. -/
def State.copy? (s : State) (id : Nat) : Option Copy := s.home.copies.find? (fun c => c.id == id)

/-- A copy changed. -/
def State.modCopy (s : State) (id : Nat) (f : Copy → Copy) : State :=
  s.modHome (fun h => { h with copies := h.copies.map (fun c => if c.id = id then f c else c) })

/-- The offsets in the destination range that a line covers: (offset of its first covered byte, its place in the line, bytes). -/
def Copy.cover (c : Copy) (m : Nat) : List (Nat × Nat × Nat) :=
  c.dst.filterMap (fun g =>
    let lo := max g.2.1 (m * 128)
    let hi := min (g.2.1 + g.2.2) (m * 128 + 128)
    if lo < hi then some (g.1 + (lo - g.2.1), lo - m * 128, hi - lo) else none)

/-- A line covered in full (R232). -/
def Copy.full (c : Copy) (m : Nat) : Bool := ((c.cover m).map (fun x => x.2.2)).foldl (· + ·) 0 == 128

/-- Source offsets that feed a destination offset's element. -/
def Copy.feeds (c : Copy) (off n : Nat) : List Nat :=
  ((List.range (n / c.xf.dz)).map (fun i => addrs (c.xf.srcOff (off / c.xf.dz + i)) c.xf.sz)).flatten

/-- A segment of a range that holds an offset. -/
def segOf (segs : List (Nat × Nat × Nat)) (off : Nat) : Nat :=
  ((segs.find? (fun g => decide (g.1 ≤ off) && decide (off < g.1 + g.2.2))).elim 0 (fun g => g.1))

/-- An interior line's piece: the pages of its destination and of its source (R232); none for a line that lies in no piece's
interior. -/
def Copy.pieceOf (c : Copy) (m : Nat) : Option (Nat × Nat) :=
  match c.cover m with
  | [(off, 0, 128)] =>
    let pages := ((c.feeds off 128).map (segOf c.src)).eraseDups
    match pages with
    | [p] => some (segOf c.dst off, p)
    | _ => none
  | _ => none

/-- A piece that R232 would record: its first interior line, their number, the offset of the first one's first byte; lo and hi bound the
offsets of the whole piece, with what it has of a head and of a tail line. -/
structure Piece where
  m : Nat
  n : Nat
  off : Nat
  lo : Nat
  hi : Nat
  deriving DecidableEq, Repr

/-- Whether destination offset i of a copy lies in a line covered only in part, on the pages of an interior line. -/
def Copy.edge (c : Copy) (key : Nat × Nat) (i : Nat) : Bool :=
  !(c.full (lineOf (segAddr c.dst i))) && segOf c.dst i == key.1 && (c.feeds (i / c.xf.dz * c.xf.dz) c.xf.dz).all (fun o => segOf c.src o == key.2)

/-- The piece of some interior lines, the first of them m at offset off. -/
def Copy.piece (c : Copy) (key : Nat × Nat) (m n off : Nat) : Piece :=
  let head := if 0 < off ∧ off < 128 then ((List.range off).takeWhile (fun i => c.edge key (off - 1 - i))).length else 0
  let rest := c.ops.n.toNat - (off + 128 * n)
  let tail := if 0 < rest ∧ rest < 128 then ((List.range rest).takeWhile (fun i => c.edge key (off + 128 * n + i))).length else 0
  ⟨m, n, off, off - head, off + 128 * n + tail⟩

/-- The pieces of a copy with interior lines (R232): runs of lines with the same pages. -/
def Copy.pieces (c : Copy) : List Piece :=
  if c.ops.op ≠ 0 ∧ c.ops.op ≠ 2 then []
  else if c.xf.kind = 1 ∧ (c.src.length ≠ 1 ∨ c.dst.length ≠ 1) then []
  else
    let ls := (segLines c.dst).filterMap (fun m => (c.pieceOf m).map (fun k => (m, k)))
    let keys := (ls.map Prod.snd).eraseDups
    keys.filterMap (fun k =>
      let ms := (ls.filter (fun x => x.2 == k)).map Prod.fst
      ms.head?.map (fun m => c.piece k m ms.length (((c.cover m).head?).elim 0 Prod.fst)))

/-- First byte and length of a piece's destination range. -/
def Copy.dstSpan (c : Copy) (p : Piece) : Nat × Nat := (segAddr c.dst p.lo, p.hi - p.lo)

/-- First byte and length of a piece's source range; a transpose is one piece. -/
def Copy.srcSpan (c : Copy) (p : Piece) : Nat × Nat :=
  if c.xf.kind = 1 then (segAddr c.src 0, c.xf.srcLen c.ops.n.toNat) else (segAddr c.src (p.lo / c.xf.dz * c.xf.sz), c.xf.srcLen (p.hi - p.lo))

/-- The lines of a range of bytes. -/
def spanLines (r : Nat × Nat) : List Nat := (List.range ((r.1 + r.2 + 127) / 128 - r.1 / 128)).map (fun i => r.1 / 128 + i)

/-- The entry a piece would be (R227). -/
def Copy.entry (c : Copy) (p : Piece) : Veneer :=
  let e := p.off / c.xf.dz
  let v : Veneer :=
    { idx := 0, promoting := false, since := 0, fn := c.fn, ctx := c.ctx, part := c.part, dpa := p.m, nlines := p.n, spa := segAddr c.src (c.xf.srcOff e),
      xf := c.xf, elem := e, heat := 0, hint := c.ops.hint, todo := [], unread := [], copy := c.id }
  { v with todo := v.lines }

/-- The source lines of an entry. -/
def Veneer.sources (v : Veneer) : List Nat := ((v.lines.map v.deps).flatten).eraseDups

/-- The collapse of an entry's source through another entry (R254); none where they do not compose. src and dst are the addresses of the
piece's source and destination ranges. -/
def Veneer.through (v e : Veneer) (src dst : Nat) : Option Veneer :=
  let a := v.spa
  let k := e.elemAt (lineOf a) (a % 128)
  match e.xf.kind, v.xf.kind with
  | 0, 0 => some { v with spa := e.srcAddr k }
  | 0, 2 => if e.srcAddr k % v.xf.sz = 0 then some { v with spa := e.srcAddr k } else none
  | 2, 0 => if (src - e.dpa * 128) % e.xf.dz = 0 ∧ dst % e.xf.dz = 0 then some { v with spa := e.srcAddr k, xf := e.xf, elem := k } else none
  | _, _ => none

/-- The entry of a piece read through the one entry that its whole source range lies in (R254); none where it does not collapse. (Log 36:
DEDUCED.) -/
def State.composed (s : State) (c : Copy) (p : Piece) : Option Veneer :=
  let src := spanLines (c.srcSpan p)
  match (src.head?).bind s.dstOf with
  | some e => if src.all (fun l => e.isDst l) then (c.entry p).through e (c.srcSpan p).1 (c.dstSpan p).1 else none
  | none => none

/-- The veneered source lines of a piece that does not collapse: they are materialised (R254). -/
def State.pieceReal (s : State) (c : Copy) (p : Piece) : List Nat :=
  if (s.composed c p).isSome then [] else (spanLines (c.srcSpan p)).filter (fun l => (s.dstOf l).isSome)

/-- The lines that a copy that begins makes real. -/
def State.collapseLines (s : State) (c : Copy) : List Nat := ((c.pieces.map (s.pieceReal c)).flatten).eraseDups

/-- The collapse check (R254): the resolved entry, whether it collapsed, which is counted; otherwise veneered source lines are
materialised. -/
def State.collapse (s : State) (c : Copy) (p : Piece) : Veneer × Bool × State :=
  match s.composed c p with
  | some w => (w, true, s.modFn c.fn (fun f => { f with vcoll := (f.vcoll + 1) % 2 ^ 64 }))
  | none => (c.entry p, false, (s.pieceReal c p).foldl (fun (s : State) l => s.materialise l) s)

/-- Source bytes of the elements that n destination bytes at an end of a piece touch, whole or in part (R230). -/
def Xform.srcUp (x : Xform) (n : Nat) : Nat := (n + x.dz - 1) / x.dz * x.sz

/-- A byte shared by a piece's destination range and its resolved source, which its entry would read (R255). -/
def Copy.overlaps (c : Copy) (p : Piece) (v : Veneer) : Bool :=
  let d := c.dstSpan p
  let r := if v.xf.kind = 1 then c.srcSpan p
    else (v.spa - v.xf.srcUp (p.off - p.lo), v.xf.srcUp (p.off - p.lo) + v.xf.srcUp (p.hi - p.off))
  decide (d.1 < r.1 + r.2) && decide (r.1 < d.1 + d.2)

/-- A piece recorded, or left to be performed (R253); with the source lines that a collapse reads through their entry. -/
def State.recordPiece (s : State) (c : Copy) (p : Piece) : List (Nat × Veneer) × State :=
  let via := (spanLines (c.srcSpan p)).filterMap (fun l => (s.dstOf l).map (fun e => (l, e)))
  let (v, col, s) := s.collapse c p
  let eager := fun (s : State) => s.modFn c.fn (fun f => { f with veag := (f.veag + 1) % 2 ^ 64 })
  (if col then via else [],
    if c.overlaps p v then eager s
    else match s.freeVeneer c.fn with
      | none => eager s
      | some i =>
        let v := { v with idx := i, unread := v.sources }
        (s.modHome (fun h => { h with veneers := v :: h.veneers })).modFn c.fn (fun f => { f with vrec := (f.vrec + 1) % 2 ^ 64 }))

/-- Source lines that feed what lies outside the pieces: they are read as they stand. -/
def Copy.plainLines (c : Copy) (ps : List Piece) : List Nat :=
  let out := (((segLines c.dst).map c.cover).flatten).filter (fun x => !(ps.any (fun p => decide (p.lo ≤ x.1) && decide (x.1 + x.2.2 ≤ p.hi))))
  ((out.map (fun x => (c.feeds x.1 x.2.2).map (fun o => lineOf (segAddr c.src o)))).flatten).eraseDups

/-- A copy with nothing left to do completes (R233). -/
def State.copyDone (s : State) (id : Nat) : State :=
  match s.copy? id with
  | some c =>
    if c.srcTodo.isEmpty && c.dstTodo.isEmpty && c.banks.isEmpty && c.pend == 0 then
      (s.finishEnt c.uid c.seq).modHome (fun h => { h with copies := h.copies.filter (fun x => x.id != id), passed := h.passed.filter (fun i => i != id) })
    else s
  | none => s

/-- A copy exits the hold window (R233, R253): its pieces are recorded, its steps are to be taken; every line of a collapsed piece's
resolved source has its own source step (R397). -/
def State.exitCopy (s : State) (id : Nat) : State :=
  match s.copy? id with
  | none => s
  | some c =>
    let (via, s) := c.pieces.foldl (fun (x : List (Nat × Veneer) × State) p =>
      let (v, s) := x.2.recordPiece c p
      (x.1 ++ v, s)) ([], s)
    let ds := segLines c.dst
    let resolved := ((via.map (fun x => x.2.deps x.1)).flatten).eraseDups
    let plain := if via.isEmpty then [] else c.plainLines c.pieces
    let via := via.filter (fun x => !(plain.contains x.1))
    let src := (segLines c.src).filter (fun l => !(via.any (fun x => x.1 == l)))
    let through := resolved.filter (fun l => !(src.contains l))
    (s.modCopy id (fun c => { c with
      out := true
      via := via
      srcTodo := if c.ops.op ≤ 4 then src ++ through else []
      dstTodo := if c.ops.op = 5 then ds.filter (fun m => (s.dstOf m).isSome) else ds })).copyDone id

/-- A copy's wait at a line: its number there, if it has begun. -/
def State.copyReq? (s : State) (id line : Nat) : Option Req :=
  s.home.reqs.find? (fun r => r.msg == .copy id && r.line == line)

/-- A copy's request at a line, made when the home has to wait within it. -/
def State.copyReq (s : State) (c : Copy) (line : Nat) : Req × State :=
  let (n, s) := s.fresh
  let r : Req :=
    { id := n, uid := c.uid, seq := c.seq, path := .cp, core := c.core, ctx := c.ctx, fn := c.fn, part := c.part, tgt := .mem, line := line,
      hint := c.ops.hint, mail := false, msg := .copy c.id, st := .fresh }
  (r, s.modHome (fun h => { h with reqs := h.reqs ++ [r] }))

/-- A copy's step at a line made ready: deps says that the line's dependents must be materialised first. False while it waits. -/
def State.copyReady (s : State) (c : Copy) (line : Nat) (deps : Bool) : Bool × State :=
  match s.copyReq? c.id line with
  | some r => match r.st with
    | .drains [] => (true, s.modHome (fun h => { h with reqs := h.reqs.filter (fun o => o.id != r.id) }))
    | _ => (false, s)
  | none =>
    let s := if deps then s.markDeps line else s
    if deps && s.depsLeft line true then
      let (r, s) := s.copyReq c line
      (false, s.setReq { r with st := .mat })
    else match s.budget? line with
      | none => (true, s)
      | some b =>
        let (r, s) := s.copyReq c line
        (false, s.force r (b.bySeq.map Prod.fst) true)

/-- A source line still resolves as it did when its copy collapsed through its entry. -/
def State.stillVia (s : State) (l : Nat) (e : Veneer) : Bool :=
  (s.dstOf l).elim false (fun d => d.xf == e.xf && d.srcAddr (d.elemAt l 0) == e.srcAddr (e.elemAt l 0))

/-- Source lines of a collapsed piece that have been materialised before their resolved source was read are read themselves. -/
def State.unvia (s : State) (copy : Nat) : State :=
  s.modCopy copy (fun c =>
    let gone := c.via.filter (fun x => (x.2.deps x.1).any (fun l => c.srcTodo.contains l) && !(s.stillVia x.1 x.2))
    { c with via := c.via.filter (fun x => !(gone.contains x))
             srcTodo := c.srcTodo ++ (gone.map Prod.fst) })

/-- A source line's value can be taken (R231, R248): it is at hand as for a read, or, where it feeds an entry of the copy, it can be
materialised (R254). -/
def State.srcReady (s : State) (line : Nat) (feeds : Bool) : Bool :=
  if feeds && (s.dstOf line).isSome then s.present line else (s.atHand line).isSome

/-- COPY_SOURCE_STEP (R231, R397): the snapshot of one source line. -/
def execCopySourceStep (copy line : Nat) (s : State) : Out :=
  let s := s.unvia copy
  .next (match s.copy? copy with
    | none => s
    | some c =>
      let begun := (s.copyReq? copy line).isSome
      let feeds := fun (v : Veneer) => v.copy == copy && v.unread.contains line
      if !(c.srcTodo.contains line) || s.owed c.core c.id || (s.owner? line).isSome || !(begun || s.readable line)
          || !(s.srcReady line (s.home.veneers.any feeds)) then s
      else match s.copyReady c line false with
        | (false, s) => s
        | (true, s) =>
          let s := if s.home.veneers.any feeds then s.materialise line else s
          let s := s.modHome (fun h => { h with
            veneers := h.veneers.map (fun v => if feeds v then { v with unread := v.unread.filter (fun l => l != line) } else v) })
          let x := (s.atHand line).getD (s.readVal line)
          (((s.usedUp line).unlast line).modCopy copy (fun c => { c with srcTodo := c.srcTodo.filter (fun l => l != line), snaps := sput c.snaps line x })).copyDone copy)

/-- A source line as the copy's steps found it: its snapshot, or what those of its resolved source give (R254). -/
def Copy.snap (c : Copy) (line : Nat) : LineVal :=
  match c.snaps.find? (fun x => x.1 == line), c.via.find? (fun x => x.1 == line) with
  | some x, _ => x.2
  | none, some (_, e) => e.resolve line (fun a => (sget LineVal.zero c.snaps (lineOf a)).get (a % 128))
      (fun a => (sget LineVal.zero c.snaps (lineOf a)).marked (a % 128) 1)
  | none, none => LineVal.zero

/-- A byte of a copy's destination range (R230), from its snapshots. -/
def Copy.byte (c : Copy) (off : Nat) : Byte :=
  c.xf.outByte (fun k => c.xf.srcOff k) (fun o =>
    let a := segAddr c.src o
    (c.snap (lineOf a)).get (a % 128)) (off / c.xf.dz) (off % c.xf.dz)

/-- Whether a destination byte is formed from a marked word (R175, R238). -/
def Copy.byteMark (c : Copy) (off : Nat) : Bool :=
  (addrs (c.xf.srcOff (off / c.xf.dz)) c.xf.sz).any (fun o =>
    let a := segAddr c.src o
    (c.snap (lineOf a)).marked (a % 128) 1)

/-- The bytes a copy gives a line, as (place, value), and the places formed from marked words. -/
def Copy.lineBytes (c : Copy) (m : Nat) : List (Nat × Byte) × List Nat :=
  let xs := ((c.cover m).map (fun x => (List.range x.2.2).map (fun i => (x.2.1 + i, x.1 + i)))).flatten
  (xs.map (fun x => (x.1, c.byte x.2)), (xs.filter (fun x => c.byteMark x.2)).map Prod.fst)

/-- A line's value after a copy's bytes: a word formed from a marked one is marked (R175). -/
def LineVal.putMarked (v : LineVal) (bs : List (Nat × Byte)) (marked : List Nat) : LineVal :=
  let v := v.put bs
  { v with marks := v.marks ||| laneMask ((marked.map (fun i => i / 4)).eraseDups) }

/-- The entry a copy recorded for a line that has still to join it. -/
def State.joining (s : State) (c : Copy) (m : Nat) : Option Veneer :=
  s.home.veneers.find? (fun v => v.copy == c.id && v.covers m && v.todo.contains m)

/-- A destination line of a copy after its veneer and bounded-region steps: it joins its entry, or is performed (R231, R232,
R397). It joins only where its entry resolves to the snapshot's bytes; where it no longer does, the line is performed, leaves its entry and is
counted. (Log 72: DESIGN CHOICE.) -/
def State.copyLine (s : State) (c : Copy) (m : Nat) : State :=
  let (bs, marked) := c.lineBytes m
  let put := fun (s : State) => s.putHome m ((s.homeVal m).putMarked bs marked) bs c.fn c.ops.hint c.uid c.seq
  let s := s.dropFill m
  let s := match s.joining c m with
    | none => put s
    | some v =>
      if !(c.perform.contains m) && bs.all (fun b => (s.resolved v m).get b.1 == b.2) then
        s.modHome (fun h => { h with
          veneers := h.veneers.map (fun (w : Veneer) => if w.idx = v.idx then ({ w with todo := w.todo.filter (fun x => x != m) } : Veneer) else w) })
      else (put (s.leave v m c.uid c.seq)).modFn v.fn (fun f => { f with vmln := (f.vmln + 1) % 2 ^ 64 })
  s.dropClean m

/-- The step of a copy class at one line of its range. -/
def State.copyStep (s : State) (c : Copy) (m : Nat) : State :=
  match c.ops.op with
  | 5 => s.materialise m c.uid c.seq
  | 6 => (s.dropLine m).dropClean m
  | _ => s.copyLine c m

/-- A chunk of a cpys or cpym written to a rank's share; a counting clamp is owed its bytes (R240, R241). -/
def State.copyBank (s : State) (c : Copy) (rank : Nat) : State :=
  match c.banks.find? (fun b => b.2.1 == rank) with
  | none => s
  | some b =>
    let bytes : List (Nat × Byte × Bool) := (List.range c.ops.n.toNat).map (fun i => (i, c.byte i, c.byteMark i))
    let s : State := match s.spadByte b.1 b.2.1 b.2.2 with
      | some (core, a) => s.bankWriteMarked core (bytes.map (fun x => (a + x.1, x.2)))
      | none => s
    let s : State := s.modCopy c.id (fun k => { k with banks := k.banks.filter (fun x => x.2.1 != rank), pend := k.pend + (if k.coff.isSome then 1 else 0) })
    match c.coff with
    | none => s.copyDone c.id
    | some o =>
      let (n, s) := s.fresh
      s.modHome (fun h => { h with counts := h.counts ++ [⟨n, .spad b.1 b.2.1 o, bytes.length, false, c.fn, c.id⟩] })

/-- What a destination step at a line has to have at hand (R182, R250): a line that is updated in part or made real, with its sources; and those
of the lines that are made real because it leaves an entry. -/
def State.stepDeps (s : State) (c : Copy) (line : Nat) : List Nat :=
  (if c.ops.op = 6 ∨ (c.ops.op ≠ 5 ∧ c.full line) then s.leaveDeps line
    else if c.ops.op = 5 ∧ (s.dstOf line).isNone then [] else s.realDeps line)
    ++ (s.joining c line).elim [] (fun v => v.depsOf (s.splitReal v line))

/-- COPY_DESTINATION_STEP (R231): after every source step, one destination line at its home; for cpys and cpym, one rank. -/
def execCopyDestinationStep (copy line : Nat) (s : State) : Out :=
  .next (match s.copy? copy with
    | none => s
    | some c =>
      if !c.out || !c.srcTodo.isEmpty || s.owed c.core c.id then s
      else if !c.banks.isEmpty then s.copyBank c line
      else
        let begun := (s.copyReq? copy line).isSome
        if !(c.dstTodo.contains line) || (s.owner? line).isSome || (!begun && (s.waiting line || !((s.stepDeps c line).all s.near))) then s
        else
          let s := if begun || c.ops.op = 6 then s else if c.full line && c.ops.op != 5 then s.dropLine line else s.materialise line c.uid c.seq
          match (if c.ops.op = 5 then (true, s) else s.copyReady c line (c.ops.op != 6)) with
          | (false, s) => s
          | (true, s) =>
            (((s.copyStep c line).unlast line).modCopy copy (fun k => { k with dstTodo := k.dstTodo.filter (fun l => l != line) })).copyDone copy)

/-- The lines of a clamp step that a transfer owes. -/
def ClampLoc.lines (loc : ClampLoc) : List Nat :=
  match loc with
  | .mem pa => [lineOf pa]
  | _ => []

/-- A clamp step that a transfer owes taken at its clamp, as a write-class request (R18, R200). -/
def State.countStep (s : State) (k : Count) (op : ClampOp) : State :=
  s.hubStep false k.fn (s.linePart (k.loc.lines.headD 0)) k.loc.lines (fun s =>
    ((s.clampDo k.loc op k.fn 0 0).modHome (fun h => { h with counts := h.counts.filter (fun x => x.id != k.id) })))

/-- CLAMP_BYTE_COUNT (R200): a transfer's bytes counted at a clamp. -/
def execClampByteCount (cnt : Nat) (s : State) : Out :=
  .next (match s.home.counts.find? (fun k => k.id == cnt) with
    | some k =>
      if k.err then s
      else
        let s1 := s.countStep k (.count k.n)
        if s1.home.counts.any (fun x => x.id == cnt) then s1
        else (s1.modCopy k.copy (fun c => { c with pend := c.pend - 1 })).copyDone k.copy
    | none => s)

/-- CLAMP_ERR_MARK (R200): a failed transfer marks err in place of its count. -/
def execClampErrMark (cnt : Nat) (s : State) : Out :=
  .next (match s.home.counts.find? (fun k => k.id == cnt) with
    | some k => if k.err then s.countStep k .mark else s
    | none => s)

end Sys2Proof.Machine
end

