-- ==== Sys2Proof/Machine/Markers.lean ====
section
/-! DEFINITION. Fence markers completing (R89 to R97, R205, R223, R302). -/

namespace Sys2Proof.Machine

/-- An entry of a marker's paths. -/
def QEnt.on (e : QEnt) (ps : List Path) : Bool := e.paths.any (fun p => ps.contains p)

/-- The work of the matrix engine or finish unit: its entry is at its point when it completes (R276, R288). -/
def EOp.isEngine : EOp → Bool
  | .engine _ => true
  | _ => false

/-- An entry that has left its queue whole (R89). -/
def QEnt.left (e : QEnt) : Bool := !e.lanes.isEmpty && e.lanes.all (fun x => !(e.waits x)) && e.tok.isNone && !e.op.isEngine

/-- What an older entry of a slat has put into a window and no home or bank has applied: of the given paths. -/
def State.unapplied (s : State) (t : Slat) (seq : Nat) (ps : List Path) (spadOnly : Bool) : Bool :=
  (s.window t.core).any (fun r => r.uid == t.uid && decide (r.seq < seq) && ps.contains r.path && !r.isCopy
    && (!spadOnly || r.tgt != .mem))

/-- A core's drains, give-ups and replies numbered below n that no home has applied. -/
def State.undrained (s : State) (core n : Nat) : Bool := (s.window core).any (fun r => r.settles && decide (r.id < n))

/-- Every older entry on a release's paths has reached its scope's coherence point (R89, R90); the system point also asks that what its
drains wrote has left the host port queue, where an entry of a drain carries the drain's number. -/
def State.reached (s : State) (t : Slat) (e : QEnt) (m : Marker) : Bool :=
  let old := (t.older e).filter (fun f => f.on e.paths)
  let gone := fun (f : QEnt) => f.paths == [Path.xf] || m.home
  old.all (fun f => if gone f then false else f.left)
    && !(s.unapplied t e.seq e.paths (!m.home))
    && (!m.sys || !(s.host.queue.any (fun q => (q.1 == t.uid && decide (q.2.1 < e.seq)) || (q.1 == 0 && q.2.1 != 0 && decide (q.2.1 < m.since)))))

/-- Drains of every line the slat has accumulated into issued before a release's test (R90). -/
def State.releaseDrains (s : State) (t : Slat) (e : QEnt) (m : Marker) : State :=
  let rs := (s.core t.core).recs.filter (fun r => t.accd.contains r.line && !r.draining)
  let s := rs.foldl (fun (s : State) r => s.sendDrain t.core r) s
  s.modSlat t.uid (fun t => { t.setQent { e with op := .marker { m with stage := 1, since := s.next } } with accd := [] })

/-- A marker gone; a status goes to the acquire half of its fence, or to %fst (R93). -/
def Slat.markerDone (t : Slat) (e : QEnt) (m : Marker) : Slat :=
  let t := t.dropQent e.seq
  if m.fst then { t with fst := BitVec.ofNat 64 m.status }
  else match t.qent? (e.seq + 1) with
    | some f => match f.op with
      | .marker k => if k.fst && !k.rel then t.setQent { f with op := .marker { k with status := m.status } } else t
      | _ => t
    | none => t

/-- What a completed release lets go on: the barrier's arrival (R205), a fabric fence (R302). -/
def State.released (s : State) (uid seq : Nat) : State :=
  match s.slat? uid with
  | none => s
  | some t =>
    if t.parkArg ≠ BitVec.ofNat 64 seq then s
    else match t.park with
      | .tbar => s.arriveBarrier t
      | .xfen => s.unpark uid
      | _ => s

/-- What a completed acquire lets go on: a slat whose barrier is complete (R205), which sees the team's part of %bst (R206). -/
def State.acquired (s : State) (uid seq : Nat) : State :=
  match s.slat? uid with
  | none => s
  | some t =>
    if t.park = .tbar ∧ t.parkArg = BitVec.ofNat 64 seq then (s.modSlat uid (fun t => { t with bst := s.newBst t none })).unpark uid else s

/-- RELEASE_MARKER_COMPLETE (R90): drains first, then the marker when everything older has reached its point. -/
def execReleaseMarkerComplete (uid seq : Nat) (s : State) : Out :=
  .next (match s.slat? uid with
    | none => s
    | some t => match t.qent? seq with
      | none => s
      | some e => match e.op with
        | .marker m =>
          let old := (t.older e).filter (fun f => f.on e.paths)
          if !m.rel || old.any (fun f => f.op.isMarker) then s
          else
            let drains := m.home && e.paths.contains .ac
            let accs := (t.older e).any (fun f => match f.op with
              | .acc _ _ => true
              | _ => false)
            if drains && m.stage == 0 then (if accs then s else s.releaseDrains t e m)
            else if (drains && s.undrained t.core m.since) || !(s.reached t e m) then s
            else (s.modSlat uid (fun t => t.markerDone e m)).released uid seq
        | _ => s)

/-- The clean copies of a core's L1 dropped (R91). -/
def Core.dropAllClean (c : Core) : Core := { c with l1 := c.l1.filter L1Line.owned }

/-- The cores that run a slat of the team an acquire promotes: a team of the same grid (R95). -/
def State.promoted (s : State) (t : Slat) (k : W64) : List Nat :=
  match s.teams.find? (fun m => m.grid == t.grid && m.idx == k.toNat) with
  | some m => ((s.teamSlats m.uid).filter (fun x => !x.ended)).map Slat.core |>.eraseDups
  | none => []

/-- A promotion's next stage (R95): the windows' entries of this step waited for, then the cores' deltas drained. (Log 31: DEDUCED.) -/
def State.promote (s : State) (t : Slat) (e : QEnt) (m : Marker) (cores : List Nat) : State :=
  let set := fun (s : State) (stage : Nat) =>
    s.modSlat t.uid (fun t => t.setQent { e with op := .marker { m with stage := stage, since := s.next } })
  if m.stage = 0 then set s 1
  else if m.stage = 1 then
    if cores.any (fun c => (s.window c).any (fun r => decide (r.id < m.since))
        || s.home.starts.any (fun r => r.core == c && decide (r.id < m.since))
        || s.home.copies.any (fun k => k.core == c && decide (k.id < m.since) && k.open_)) then s
    else set (cores.foldl (fun (s : State) c =>
      ((s.core c).recs.filter (fun r => r.ctx == t.ctx && !r.draining)).foldl (fun (s : State) r => s.sendDrain c r) s) s) 2
  else s

/-- ACQUIRE_MARKER_COMPLETE (R91, R95): everything older complete; clean copies dropped at home scope. -/
def execAcquireMarkerComplete (uid seq : Nat) (s : State) : Out :=
  .next (match s.slat? uid with
    | none => s
    | some t => match t.qent? seq with
      | none => s
      | some e => match e.op with
        | .marker m =>
          if m.rel || (t.older e).any (fun f => f.on e.paths) then s
          else
            let cores := m.promote.elim [] (s.promoted t)
            if !cores.isEmpty && decide (m.stage < 2) then s.promote t e m cores
            else if cores.any (fun c => s.undrained c m.since) then s
            else
              let s := cores.foldl (fun (s : State) c => s.modCore c Core.dropAllClean) s
              let s := if m.home then s.modCore t.core Core.dropAllClean else s
              (s.modSlat uid (fun t => t.markerDone e m)).acquired uid seq
        | _ => s)

end Sys2Proof.Machine
end

