-- ==== Sys2Proof/Machine/Matrix.lean ====
section
/-! DEFINITION. Matrix instructions and the finish unit: issue into the engine's queue, entries on mx, the engine's work (R75, R76,
R263 to R289). -/

namespace Sys2Proof.Machine

/-- Eight vector registers as read at issue (R264, R265), keyed 32r + lane. -/
def Slat.regs8 (t : Slat) (base : Nat) : List (Nat × W32) := (List.range 256).map (fun k => (k, t.vget (base + k / 32) (k % 32)))

/-- A word of eight registers is marked (R275). -/
def Slat.marks8 (t : Slat) (base : Nat) : Bool := (List.range 256).any (fun k => t.vmark (base + k / 32) (k % 32))

/-- A cause of an engine instruction (R275, R289, R398): word 0, lanes 0. -/
def EngJob.cause (j : EngJob) (code reason : Nat) : Cause :=
  { code := code, cid := j.cid, word := 0, back := j.len + 1, reason := reason, lanes := 0, raw := none, at_ := none, ent := j.ent,
    nested := false, place := j.pos }

/-- A matrix instruction at issue (R264): held while the queue is full, refused if it consumes a marked register (R275), else at
the tail of the queue, with its entry on mx if it has one (R276, R280, R288). ra and rb say which register groups it reads. -/
def mtxIssue (i : TOp → Instr) (o : TOp) (ra rb mx : Bool) (s : State) : Out :=
  scaDo s o.h [] (fun t u =>
    let c := s.core t.core
    let ctr := ctrOf o.ctr
    if Config.engineQueue ≤ c.eng.length || t.ctrFull ctr then s.hold t u
    else
      let sf := (match i o with
        | .mmaF8 _ => true
        | .fin _ => true
        | .fpl _ => true
        | _ => false)
      let bad := (ra && t.marks8 o.va.toNat) || (rb && t.marks8 o.vb.toNat) || (sf && t.marked (.s o.sF) 1 0)
      let j : EngJob :=
        { id := s.next + 2, uid := t.uid, team := t.team, ins := s.next, cid := u.cid, pos := u.pos, len := u.len, ent := u.ent, instr := i o,
          ra := if ra then t.regs8 o.va.toNat else [], rb := if rb then t.regs8 o.vb.toNat else [], sF := t.sget o.sF.toNat, poison := bad,
          share := none, words := [], bad := none }
      if bad then s.advance (t.raise (j.cause 0xA 1)) u
      else
        let s := s.modCore t.core (fun c => { c with eng := c.eng ++ [j] })
        if mx then { s.issueEnts t u ctr [] [⟨[.mx], .engine j.id, []⟩] [] with next := s.next + 3 }
        else { s.advance (t.openInst s.next ctr 1) u with next := s.next + 3 })

/-- MMA_F8 (R272). -/
def execMmaF8 (o : TOp) (s : State) : Out := mtxIssue .mmaF8 o true true true s
/-- MMA_BF (R272). -/
def execMmaBf (o : TOp) (s : State) : Out := mtxIssue .mmaBf o true true false s
/-- MMA_I8 (R272). -/
def execMmaI8 (o : TOp) (s : State) : Out := mtxIssue .mmaI8 o true true false s
/-- AZERO (R273). -/
def execAzero (o : TOp) (s : State) : Out := mtxIssue .azero o false false false s
/-- ARD (R273): its registers are a destination. -/
def execArd (o : TOp) (s : State) : Out := mtxIssue .ard o false false false s
/-- AWR (R273). -/
def execAwr (o : TOp) (s : State) : Out := mtxIssue .awr o true false false s
/-- FIN (R286, R287). -/
def execFin (o : TOp) (s : State) : Out := mtxIssue .fin o false false true s
/-- FPL (R280). -/
def execFpl (o : TOp) (s : State) : Out := mtxIssue .fpl o false false true s

/-- A core's share of a team's scratchpad as (offset, byte): what an entry on mx reads at the banks (R276, R288). -/
def State.shareOf (s : State) (team core : Nat) : List (Nat × Byte) :=
  match s.team? team with
  | none => []
  | some m => match m.cores.find? (fun c => c.1 == core) with
    | some (_, base, _) => ((s.core core).spad.filter (fun b => decide (base ≤ b.1) && decide (b.1 < base + m.spad))).map (fun b => (b.1 - base, b.2))
    | none => []

/-- Whether one of n bytes of a core's share of a team's scratchpad lies in a marked word. -/
def State.shareMarked (s : State) (team core o n : Nat) : Bool :=
  !(s.core core).spadMark.isEmpty && (((s.team? team).bind (fun m => m.cores.find? (fun c => c.1 == core))).elim false
    (fun c => (s.core core).bankMarked (c.2.1 + o) n))

/-- Whether a word of memory is marked as a core reads it. -/
def State.coreMarked (s : State) (core a : Nat) : Bool :=
  (((s.core core).l1? (lineOf a)).elim (s.readVal (lineOf a)) L1Line.val).marked (a % 128) 4

/-- A finish program read from memory (R280): its words through kend or 16 words, or the fault of the read, POISON for a marked word
(R175). -/
def State.readProg (s : State) (t : Slat) (va : W64) : Nat → Except (Nat × Nat) (List W32) × State
  | 0 => (.ok [], s)
  | n + 1 =>
    let (f, s) := s.check t.core t.ctx t.part t.level ⟨true, false, false, some 0xA⟩ va
    match f with
    | .sync code reason => (.error (code, reason), s)
    | .served _ _ _ _ _ => (.error (5, 1), s)
    | .ok pa _ =>
      let w := BitVec.ofNat 32 (leNat ((addrs pa 4).map (s.coreByte t.core)))
      if s.coreMarked t.core pa then (.error (0xA, 1), s)
      else if (parseFStep w).kop = 0x0A#5 then (.ok [w], s)
      else match s.readProg t (va + 4#64) n with
        | (.ok ws, s) => (.ok (w :: ws), s)
        | (.error e, s) => (.error e, s)

/-- The addresses of the words that such a read takes, up to the first that is not ready. -/
def State.progAs (s : State) (t : Slat) (va : W64) : Nat → List Nat
  | 0 => []
  | n + 1 =>
    match (s.check t.core t.ctx t.part t.level ⟨true, false, false, some 0xA⟩ va).1 with
    | .ok pa _ =>
      let as := addrs pa 4
      let w := BitVec.ofNat 32 (leNat (as.map (s.coreByte t.core)))
      if !(s.coreReady t.core as) ∨ (parseFStep w).kop = 0x0A#5 then as else as ++ s.progAs t (va + 4#64) n
    | _ => []

/-- A format block (R267). -/
def fblockOf (m : List (Nat × Byte)) (o : Nat) : Nat := leNat (Memory.readN m o 32)

/-- Whether a format block, or the scales of a promotion, that an engine job reads are marked. -/
def State.f8Marked (s : State) (core : Nat) (j : EngJob) (p : Bool) : Bool :=
  let o := j.sF.toNat
  let fb := fblockOf (s.shareOf j.team core) o
  s.shareMarked j.team core o 32
    || (p && (s.shareMarked j.team core (natField fb 63 32) 128 || s.shareMarked j.team core (natField fb 95 64) 4))

/-- The finish operand block (R282). -/
structure FinBlock where
  gaddr : W64
  soff : Nat
  pitch : Nat
  vbase : Nat
  aoff : Nat
  odesc : Nat
  zero : Bool
  deriving DecidableEq, Repr

/-- The fields of an operand block (R282). -/
def finBlock (n : Nat) : FinBlock :=
  ⟨BitVec.ofNat 64 (natField n 63 0), natField n 95 64, natField n 127 96, natField n 159 128, natField n 191 160, natField n 223 192,
   natField n 255 224 == 0⟩

/-- The vector words that a program names: the largest operand plus one; 0 where it names none (R283). -/
def finVecs (ws : List FStep) : Nat :=
  ((ws.filter (fun w => (w.bsel == 1#3 || w.bsel == 2#3) && w.kop != 0#5)).map (fun w => w.operand.toNat + 1)).foldl max 0

/-- A step is a kcvt with .out (R283). -/
def outStep (w : FStep) : Bool := w.kop == 8#5 && w.operand.toNat / 16 == 3

/-- Whether the operand block, a vector word or the outlier descriptor that a fin reads is marked. -/
def State.finMarked (s : State) (t : Slat) (j : EngJob) (prog : Nat) : Bool :=
  let b := finBlock (leNat (Memory.readN (s.shareOf j.team t.core) j.sF.toNat 32))
  let ws := ((s.core t.core).progs.find? (fun p => p.1 == prog)).elim [] (fun p => p.2.words.map parseFStep)
  s.shareMarked j.team t.core j.sF.toNat 32
    || (finVecs ws != 0 && s.shareMarked j.team t.core b.vbase (4 * (finVecs ws + 31)))
    || (ws.any outStep && s.shareMarked j.team t.core b.odesc 16)

/-- Whether an engine job reads a marked word of the scratchpad. (Log 71: DESIGN CHOICE.) -/
def State.readsMarked (s : State) (t : Slat) (j : EngJob) : Bool :=
  !(s.core t.core).spadMark.isEmpty && (match j.instr with
    | .mmaF8 o => s.f8Marked t.core j o.p
    | .fin o => s.finMarked t j o.prog.toNat
    | _ => false)

/-- What an engine job reads, as its mx entry leaves (R276, R280, R288). (Log 39: DEDUCED.) -/
def State.captureJob (s : State) (t : Slat) (j : EngJob) : EngJob × State :=
  match j.instr with
  | .fpl _ =>
    if j.sF.toNat % 4 ≠ 0 then ({ j with share := some [], bad := some (4, 1) }, s)
    else match s.readProg t j.sF 16 with
      | (.ok ws, s) => ({ j with share := some [], words := ws }, s)
      | (.error e, s) => ({ j with share := some [], bad := some e }, s)
  | _ => ({ j with share := some (s.shareOf j.team t.core), poison := s.readsMarked t j }, s)

/-- What an engine job reads of memory as its mx entry leaves. -/
def State.jobAs (s : State) (t : Slat) (j : EngJob) : List Nat :=
  match j.instr with
  | .fpl _ => if j.sF.toNat % 4 ≠ 0 then [] else s.progAs t j.sF 16
  | _ => []

/-- The addresses that an engine job of a core has translated as its mx entry leaves. -/
def State.jobVas (s : State) (t : Slat) (job : Nat) : List W64 :=
  match (s.core t.core).eng.find? (fun j => j.id == job) with
  | some j => match j.instr with
    | .fpl _ => if j.sF.toNat % 4 ≠ 0 then [] else [j.sF, j.sF + 60#64]
    | _ => []
  | none => []

/-- A core's engine job replaced. -/
def State.setJob (s : State) (core : Nat) (j : EngJob) : State := s.modCore core (fun c => { c with eng := replaceBy EngJob.id j c.eng })

/-- An engine instruction's entry leaves mx, once what it reads of memory is ready. -/
def State.leaveEngine (s : State) (t : Slat) (e : QEnt) (job : Nat) : State :=
  match (s.core t.core).eng.find? (fun j => j.id == job) with
  | none => s
  | some j =>
    let as := s.jobAs t j
    if !(s.coreReady t.core as) then s.coreWant t as
    else
      let (j, s) := s.captureJob t j
      ((s.setJob t.core j).leftQueue t.uid e.seq).hubFree true (linesOf as)

/-- A product of the engine (R76): a zero times anything is +0. -/
def eprod (a b : FVal) : FVal :=
  match a, b with
  | .fin _ 0 _, _ => .fin false 0 0
  | _, .fin _ 0 _ => .fin false 0 0
  | a, b => fprod a b

/-- A partial sum as an exact value (R76: a sum that is exactly zero is +0). -/
def Partial.val : Partial → FVal
  | .nan => .nan
  | .inf neg => .inf neg
  | .sum x => .fin (decide (x < 0)) x.natAbs (-32)

/-- An exact FP8 product as a partial sum, in units of 2^-32. -/
def Partial.of (v : FVal) : Partial :=
  match v with
  | .nan => .nan
  | .inf neg => .inf neg
  | .fin neg m e => .sum (FVal.units neg m e (-32))

/-- Partial sums added (R76). -/
def Partial.add (a b : Partial) : Partial :=
  match a, b with
  | .nan, _ => .nan
  | _, .nan => .nan
  | .inf x, .inf y => if x = y then .inf x else .nan
  | .inf x, .sum _ => .inf x
  | .sum _, .inf y => .inf y
  | .sum x, .sum y => .sum (x + y)

/-- An FP8 element of a fragment: row or column i, position k (R265). -/
def frag8 (r : List (Nat × W32)) (i k : Nat) : Nat := (sget 0#32 r (32 * (k / 4) + i)).toNat / 256 ^ (k % 4) % 256

/-- A BF16 element of a fragment (R265). -/
def frag16 (r : List (Nat × W32)) (i k : Nat) : Nat := (sget 0#32 r (32 * (k / 2) + i)).toNat / 65536 ^ (k % 2) % 65536

/-- Element numbers of a tile, row by row (R263). -/
def tileElems : List Nat := List.range 1024

/-- A tile that holds nothing. -/
def Tile.empty : Tile := ⟨[], [], 0, []⟩

/-- An element's bits. -/
def Tile.get (x : Tile) (k : Nat) : W32 := sget 0#32 x.acc k

/-- Elements rewritten, in order. -/
def Tile.mapAcc (x : Tile) (f : Nat → W32) : Tile := { x with acc := tileElems.map (fun k => (k, f k)) }

/-- The products of one mma.f8 added to a tile's partials (R75, R268). -/
def Tile.addF8 (x : Tile) (afmt bfmt : Nat) (ra rb : List (Nat × W32)) : Tile :=
  { x with
    n := x.n + 1
    parts := tileElems.map (fun k =>
      (k, (List.range 32).foldl (fun p q => p.add (Partial.of (eprod (fdec (ffmt afmt) (frag8 ra (k / 32) q)) (fdec (ffmt bfmt) (frag8 rb (k % 32) q)))))
        (sget (.sum 0) x.parts k))) }

/-- The block state cleared (R268). -/
def Tile.closed (x : Tile) : Tile := { x with n := 0, parts := [] }

/-- A promoted element (R75, R269): its new bits, and whether it is suspect. -/
def promoteElem (acc sa sb : W32) (p : Partial) : W32 × Bool :=
  let sc := f32mul sa sb
  let t := toF32 (fprod p.val (f32 sc))
  (f32add acc t, f32 t == .nan || flt (fprod (.fin false 25690112 0) (f32 sc).abs) (f32 t).abs)

/-- The FP32 word at an offset of captured bytes. -/
def shareWord (m : List (Nat × Byte)) (o : Nat) : W32 := BitVec.ofNat 32 (leNat (Memory.readN m o 4))

/-- mma.bf on a tile (R75, R272). -/
def Tile.addBf (x : Tile) (ra rb : List (Nat × W32)) : Tile :=
  x.mapAcc (fun k => toF32 (fsum 0 (f32 (x.get k))
    ((List.range 16).foldl (fun v q => fsum 0 v (eprod (b16 (frag16 ra (k / 32) q)) (b16 (frag16 rb (k % 32) q)))) (.fin false 0 0))))

/-- mma.i8 on a tile (R75, R272). -/
def Tile.addI8 (x : Tile) (ra rb : List (Nat × W32)) : Tile :=
  x.mapAcc (fun k => x.get k + BitVec.ofInt 32 ((List.range 32).foldl (fun (v : Int) q =>
    v + (BitVec.ofNat 8 (frag8 ra (k / 32) q)).toInt * (BitVec.ofNat 8 (frag8 rb (k % 32) q)).toInt) 0))

/-- A job done: its counter falls, its entry leaves (R264, R54). -/
def State.jobDone (s : State) (core : Nat) (j : EngJob) : State :=
  (s.modCore core (fun c => { c with eng := c.eng.filter (fun x => x.id != j.id) })).modSlat j.uid (fun t =>
    match t.queue.find? (fun e => e.op == .engine j.id) with
    | some e => t.finish e
    | none => t.doneInst j.ins)

/-- A job refused at run time (R275, R281, R289). -/
def State.refuseJob (s : State) (core : Nat) (j : EngJob) (c : Cause) : State :=
  (s.jobDone core j).modSlat j.uid (fun t => if t.ended then t else t.raise c)

/-- A tile of a team's window on a core: its place in accumulator memory (R263); none beyond the window. -/
def State.tileAt (s : State) (team core n : Nat) : Option Nat :=
  match s.team? team with
  | none => none
  | some m => match m.cores.find? (fun c => c.1 == core) with
    | some (_, _, base) => if n < m.tiles then some (base + n) else none
    | none => none

/-- A tile put back. -/
def State.putTile (s : State) (core k : Nat) (x : Tile) : State := s.modCore core (fun c => { c with tiles := sput c.tiles k x })

/-- An uncorrectable error in accumulator memory (R275): the element is marked, and what it holds is a free value. (Log 91: DESIGN
CHOICE.) -/
def State.tileError (s : State) (core tile elem : Nat) : State :=
  if Config.nCores ≤ core ∨ Config.nTiles ≤ tile ∨ 1024 ≤ elem then s
  else
    let x := sget Tile.empty (s.core core).tiles tile
    { s with free := s.free + 1 }.putTile core tile { x with acc := sput x.acc elem (Config.accGarbage s.free), mark := cput false x.mark elem true }

/-- The spad of a team. -/
def State.spadOf (s : State) (team : Nat) : Nat := (s.team? team).elim 0 Team.spad

/-- A format block is malformed (R267). -/
def fblockBad (n : Nat) : Bool :=
  let f := natField n
  f 255 225 != 0 || f 191 96 != 0 || f 31 25 != 0 || f 15 8 != 0 || f 23 16 != 128 || !(f 7 4 == 11 || f 7 4 == 12) || !(f 3 0 == 11 || f 3 0 == 12)

/-- The refusal of an mma.f8 after the tile window (R275), in its order. -/
def f8Refusal (m : List (Nat × Byte)) (o spad n : Nat) (p : Bool) : Option (Nat × Nat) :=
  let fb := fblockOf m o
  let sa := natField fb 63 32
  let sb := natField fb 95 64
  if o % 32 ≠ 0 then some (4, 1)
  else if spad < o + 32 then some (7, 1)
  else if fblockBad fb then some (7, 0xA)
  else if n = 4 then some (7, 9)
  else if p then
    if sa % 4 ≠ 0 ∨ sb % 4 ≠ 0 then some (4, 1) else if spad < sa + 128 ∨ spad < sb + 4 then some (7, 1) else none
  else none

/-- The step of R269 at the format block's bank: sflag, and scount saturating. -/
def State.suspects (s : State) (team core o m : Nat) : State :=
  match (s.team? team).bind (fun t => t.cores.find? (fun c => c.1 == core)) with
  | some (_, base, _) =>
    let n := leNat (s.spadRead core (base + o + 24) 4)
    let f := leNat (s.spadRead core (base + o + 28) 4)
    (s.spadWrite core (base + o + 24) (leBytes 4 (min (n + m) (2 ^ 32 - 1)))).spadWrite core (base + o + 28) (leBytes 4 (f ||| 1))
  | none => s

/-- The SUSPECT of R269, unless one is pending already. -/
def Slat.suspect (t : Slat) (j : EngJob) (tile : Nat) (rows : W32) : Slat :=
  if t.ended || t.pend.any (fun c => c.code == 0xB) then t
  else t.raise { j.cause 0xB 0 with raw := some (zext64 rows <<< 32 ||| BitVec.ofNat 64 (tile * 65536)) }

/-- An mma.f8 applied (R268, R269, R272). A marked word that its entry has read is consumed once every check passes. (Log 71: DESIGN
CHOICE.) -/
def State.applyF8 (s : State) (core : Nat) (j : EngJob) (o : TOp) (k : Nat) (m : List (Nat × Byte)) : State :=
  let x := sget Tile.empty (s.core core).tiles k
  match f8Refusal m j.sF.toNat (s.spadOf j.team) x.n o.p with
  | some (code, reason) => s.refuseJob core j (j.cause code reason)
  | none =>
    if j.poison then s.refuseJob core j (j.cause 0xA 1)
    else
    let fb := fblockOf m j.sF.toNat
    let x := x.addF8 (natField fb 3 0) (natField fb 7 4) j.ra j.rb
    if !o.p then (s.putTile core k x).jobDone core j
    else
      let sb := shareWord m (natField fb 95 64)
      let r := tileElems.map (fun i => promoteElem (x.get i) (shareWord m (natField fb 63 32 + 4 * (i / 32))) sb (sget (.sum 0) x.parts i))
      let sus := tileElems.filter (fun i => (r[i]?).elim false Prod.snd)
      let s := s.putTile core k ({ x with acc := (r.zipIdx).map (fun v => (v.2, v.1.1)) } : Tile).closed
      let s := if sus.isEmpty then s else s.suspects j.team core j.sF.toNat sus.length
      let s := s.jobDone core j
      if !sus.isEmpty && fb.testBit 24 then s.modSlat j.uid (fun t => t.suspect j o.tile.toNat (laneMask ((sus.map (fun i => i / 32)).eraseDups))) else s

/-- An ard's registers written (R266, R273), marks and all (R275). -/
def Slat.ardWrite (t : Slat) (x : Tile) (d q : Nat) : Slat :=
  if t.ended then t
  else (List.range 256).foldl (fun (t : Slat) k =>
    let e := 32 * (k % 32) + 8 * q + k / 32
    t.vput (d + k / 32) (k % 32) (x.get e) (Sys2Proof.sget false x.mark e)) t

/-- An awr's quarter written (R266, R273). -/
def Tile.awrWrite (x : Tile) (q : Nat) (ra : List (Nat × W32)) : Tile :=
  (List.range 256).foldl (fun (x : Tile) k =>
    let e := 32 * (k % 32) + 8 * q + k / 32
    { x with acc := sput x.acc e (sget 0#32 ra k), mark := cput false x.mark e false }) x

end Sys2Proof.Machine
end

