-- ==== Sys2Proof/Machine/Finish.lean ====
section
/-! DEFINITION. The engine at work: the finish unit's programs, and the head of a core's queue applied (R263 to R289). -/

namespace Sys2Proof.Machine

/-- The size of the largest element that a program writes to a destination; 0 where it writes none (R284). -/
def finSize (ws : List FStep) (dest : Nat) : Nat :=
  ((ws.filter (fun w => w.kop == 9#5 && w.operand.toNat / 262144 == dest)).map (fun w => fmtBytes (w.operand.toNat / 16384 % 16))).foldl max 0

/-- A program holds a kamax. -/
def finAmax (ws : List FStep) : Bool := ws.any (fun w => w.kop == 7#5)

/-- Conditions 1 to 5 of R289, in order. A va that is read and is no multiple of 8 is ILLEGAL_OP, as R52 has it, with the register
destination. (Log 78: DEDUCED.) -/
def State.finRefusal (s : State) (t : Slat) (j : EngJob) (o : TOp) (m : List (Nat × Byte)) : Option (Nat × Nat) :=
  let spad := s.spadOf j.team
  let sf := j.sF.toNat
  match s.tileAt j.team t.core o.tile.toNat, (s.core t.core).progs.find? (fun p => p.1 == o.prog.toNat && p.2.ctx == t.ctx) with
  | none, _ => some (7, 8)
  | _, none => some (7, 0xB)
  | some _, some (_, p) =>
    let ws := p.words.map parseFStep
    let b := finBlock (leNat (Memory.readN m sf 32))
    let z := finSize ws
    let out := ws.any outStep
    if z 2 ≠ 0 ∧ o.va.toNat % 8 ≠ 0 then some (1, 5)
    else if z 2 ≠ 0 ∧ 64 < o.va.toNat + 8 * z 2 then some (7, 0xC)
    else if sf % 32 ≠ 0 then some (4, 1)
    else if spad < sf + 32 then some (7, 1)
    else if !b.zero then some (7, 0xD)
    else if z 1 ≠ 0 ∧ b.gaddr.toNat % 4 ≠ 0 then some (4, 1)
    else if z 0 ≠ 0 ∧ b.soff % 4 ≠ 0 then some (4, 1)
    else if z 0 ≠ 0 ∧ spad < b.soff + 31 * b.pitch + 32 * z 0 then some (7, 1)
    else if (z 0 ≠ 0 ∨ z 1 ≠ 0) ∧ b.pitch % 4 ≠ 0 then some (4, 1)
    else if finVecs ws ≠ 0 ∧ b.vbase % 4 ≠ 0 then some (4, 1)
    else if finVecs ws ≠ 0 ∧ spad < b.vbase + 4 * (finVecs ws + 31) then some (7, 1)
    else if finAmax ws && b.aoff % 4 != 0 then some (4, 1)
    else if finAmax ws && decide (spad < b.aoff + 4) then some (7, 1)
    else if out && b.odesc % 16 != 0 then some (4, 2)
    else if out && decide (spad < b.odesc + 16) then some (7, 1)
    else none

/-- The pages of a fin's global rows checked in ascending order (R289): (row, offset, physical address, bytes). -/
def State.finPages (s : State) (t : Slat) (gaddr : W64) (pitch n : Nat) : List Nat → Except (Nat × Nat) (List (Nat × Nat × Nat × Nat)) × State
  | [] => (.ok [], s)
  | i :: rest =>
    let va := gaddr + BitVec.ofNat 64 (i * pitch)
    match s.pagesOk t ⟨false, true, false, some 0xA⟩ none va 0 (s.pagesOf t.ctx t.part va n) with
    | (.error (.sync code reason _), s) => (.error (code, reason), s)
    | (.error (.served _ _ _ _ _ _ _), s) => (.error (5, 1), s)
    | (.ok segs, s) => match s.finPages t gaddr pitch n rest with
      | (.ok more, s) => (.ok (segs.map (fun g => (i, g.1, g.2.1, g.2.2)) ++ more), s)
      | (.error e, s) => (.error e, s)

/-- What stays the same while a fin runs: its tile, operand block, captured bytes, descriptor, segments. -/
structure FinCtx where
  tile : Tile
  blk : FinBlock
  m : List (Nat × Byte)
  desc : Desc
  va : Nat

/-- What a fin has done so far: element registers, the absolute maximum, writes newest first, records, and what it raises. -/
structure FinSt where
  s : State
  f : List W32
  amax : W32
  spad : List (Nat × Byte)
  glob : List (Nat × Nat × Byte)
  regs : List (Nat × Byte)
  recs : List (W64 × Nat)
  skip : Bool
  full : Bool
  badBase : Bool

/-- An element register. -/
def FinSt.reg (x : FinSt) (k : Nat) : W32 := x.f.getD k 0#32

/-- An element register written. -/
def FinSt.put (x : FinSt) (k : Nat) (v : W32) : FinSt := { x with f := x.f.set k v }

/-- The second operand of a step (R283). -/
def FinCtx.opnd (c : FinCtx) (x : FinSt) (w : FStep) (i j : Nat) : W32 :=
  let n := w.operand.toNat
  match w.bsel.toNat with
  | 0 => x.reg (n % 4)
  | 1 => shareWord c.m (c.blk.vbase + 4 * (n + j))
  | 2 => shareWord c.m (c.blk.vbase + 4 * (n + i))
  | 3 => BitVec.ofNat 32 (n * 4096)
  | _ => c.tile.get (32 * i + j)

/-- kclp (R283). -/
def fclamp (a b : W32) : W32 :=
  match f32 a, f32 b with
  | .nan, _ => toF32 .nan
  | _, .nan => a
  | u, v => if flt v.abs u.abs then (if u.neg then toF32 v.abs.negate else toF32 v.abs) else a

/-- kamax (R283). -/
def amaxOf (m a : W32) : W32 :=
  match f32 m, f32 a with
  | .nan, _ => m
  | _, .nan => toF32 .nan
  | u, v => if flt u v.abs then toF32 v.abs else m

/-- An element of a kcvt with .out that overflowed (R74, R283): its E4M3 bits. -/
def FinSt.outlier (x : FinSt) (c : FinCtx) (a : W32) (idx : Nat) : Nat × FinSt :=
  let big := e4Max (a.getLsbD 31)
  match c.desc with
  | .bad _ _ => (big, { x with badBase := true })
  | .ok core d => match x.s.appendOne core d with
    | (some va, _, s) => (0, { x with s := s, recs := x.recs ++ [(va, outBytes (BitVec.ofNat 32 idx) a)] })
    | (none, full, s) => (big, { x with s := s, full := x.full || full })

/-- kcvt (R283). -/
def FinSt.kcvt (x : FinSt) (c : FinCtx) (w : FStep) (a : W32) (idx : Nat) : FinSt :=
  let code := w.operand.toNat % 16
  let d := w.fd.toNat
  if code = 8 then x.put d a
  else
    let r := fround (ffmt code) 0 (w.operand.toNat / 16) false (f32 a)
    if r.ov && outStep w then
      let (b, x) := x.outlier c a idx
      x.put d (toF32 (fdec (ffmt code) b))
    else x.put d (toF32 (fdec (ffmt code) r.bits))

/-- kst (R284): the element's bytes at its destination. -/
def FinSt.kst (x : FinSt) (c : FinCtx) (w : FStep) (a : W32) (i j : Nat) : FinSt :=
  let code := w.operand.toNat / 16384 % 16
  let z := fmtBytes code
  let bits := if code = 8 then a.toNat else (fround (ffmt code) 0 0 false (f32 a)).bits
  let bs := leBytes z bits
  match w.operand.toNat / 262144 with
  | 0 => { x with spad := (at_ (c.blk.soff + i * c.blk.pitch + j * z) bs).reverse ++ x.spad }
  | 1 => { x with glob := ((at_ (j * z) bs).map (fun b => (i, b.1, b.2))).reverse ++ x.glob }
  | _ => { x with regs := ((at_ (j * z) bs).map (fun b => (128 * (32 * (c.va + b.1 / 4) + i) + b.1 % 4, b.2))).reverse ++ x.regs }

/-- One step of a program for one element (R283). -/
def FinCtx.step (c : FinCtx) (i j : Nat) (x : FinSt) (w : FStep) : FinSt :=
  let a := x.reg w.fa.toNat
  let b := c.opnd x w i j
  let d := w.fd.toNat
  if x.skip then x
  else match w.kop.toNat with
  | 0x00 => x.put d (c.tile.get (32 * i + j))
  | 0x01 => x.put d (f32mul a b)
  | 0x02 => x.put d (f32add a b)
  | 0x03 => x.put d (BitVec.ofNat 32 (fpick fp32 true false a.toNat b.toNat))
  | 0x04 => x.put d (BitVec.ofNat 32 (fpick fp32 false false a.toNat b.toNat))
  | 0x05 => x.put d (toF32 (scaleBy (f32 a) (BitVec.ofNat 8 w.operand.toNat).toInt))
  | 0x06 => x.put d (fclamp a b)
  | 0x07 => { x with amax := amaxOf x.amax a }
  | 0x08 => x.kcvt c w a (32 * i + j)
  | 0x09 => x.kst c w a i j
  | _ => { x with skip := true }

/-- A program run over a tile (R287). -/
def FinCtx.run (c : FinCtx) (ws : List FStep) (s : State) : FinSt :=
  tileElems.foldl (fun (x : FinSt) k => ws.foldl (c.step (k / 32) (k % 32)) { x with f := [0, 0, 0, 0], skip := false })
    ⟨s, [0, 0, 0, 0], 0#32, [], [], [], [], false, false, false⟩

/-- A store of a line's bytes enters its core's hold window (R84, R213): the core's record given up, its clean copy updated. -/
def State.leaveWrite (s : State) (t : Slat) (e : QEnt) (path : Path) (line : Nat) (bs : List (Nat × Byte)) : State :=
  let s := s.giveUpOwn t.core line
  let s := s.modCore t.core (fun c => match c.l1? line with
    | some x => if x.owned then c else c.putL1 { x with val := x.val.put (bytesIn line bs) }
    | none => c)
  s.enterHw (mkReq t e path .mem line 0 false (.write bs))

/-- Register bytes of a fin written, in order (R284). -/
def Slat.putRegBytes (t : Slat) (bs : List (Nat × Byte)) : Slat :=
  bs.foldl (fun (t : Slat) b =>
    let n := b.1 / 128
    let k := b.1 % 128
    let old := (Sys2Proof.sget 0#32 t.v n).toNat
    let new := old - old / 256 ^ k % 256 * 256 ^ k + b.2.toNat * 256 ^ k
    t.vput (n / 32) (n % 32) (BitVec.ofNat 32 new) false) t

/-- The record stores of a fin, entries of ls (R74, R288). -/
def finRecords (j : EngJob) (recs : List (W64 × Nat)) (seq : Nat) : List QEnt :=
  let lanes := (recs.zipIdx).map (fun r => (⟨r.2, .glob r.1.1 none, some r.1.2, .queued⟩ : Lane))
  ((byLine lanes).zipIdx).map (fun g =>
    { seq := seq + g.2, ins := 0, paths := [.ls], op := .record true, lanes := (g.1.zipIdx).map (fun x => ({ x.1 with l := x.2 } : Lane)), word := 0,
      cid := j.cid, pos := j.pos, len := j.len, ent := j.ent, mail := false, tok := none, regen := none })

/-- A fin's global bytes by physical address, oldest first. -/
def globBytes (segs : List (Nat × Nat × Nat × Nat)) (bs : List (Nat × Nat × Byte)) : List (Nat × Byte) :=
  bs.filterMap (fun b => (segs.find? (fun g => g.1 == b.1 && decide (g.2.1 ≤ b.2.1) && decide (b.2.1 < g.2.1 + g.2.2.2))).map
    (fun g => (g.2.2.1 + (b.2.1 - g.2.1), b.2.2)))

/-- A fin that passed every check, run and its writes made (R287, R288). Of a killed slat's only the scratchpad writes stand. The outlier
descriptor is updated as the elements run, since kcvt's results need it, and the scratchpad output and the amax word are written over it where
they overlap it. (Log 94: DESIGN CHOICE.) -/
def State.runFin (s : State) (t : Slat) (j : EngJob) (o : TOp) (ws : List FStep) (k : Nat) (m : List (Nat × Byte))
    (segs : List (Nat × Nat × Nat × Nat)) : State :=
  let b := finBlock (leNat (Memory.readN m j.sF.toNat 32))
  let c : FinCtx := ⟨sget Tile.empty (s.core t.core).tiles k, b, m, s.desc t b.odesc, o.va.toNat⟩
  let x := c.run ws s
  let base := ((s.spadByte j.team (s.rank t) 0).map Prod.snd).getD 0
  let s := x.s.modCore t.core (fun c => c.bankPut (x.spad.reverse.map (fun p => (base + p.1, p.2))))
  let s := if finAmax ws then s.spadWrite t.core (base + b.aoff) (leBytes 4 x.amax.toNat) else s
  match t.queue.find? (fun e => e.op == .engine j.id) with
  | none => s.jobDone t.core j
  | some e =>
    let s := s.modSlat t.uid (fun t => t.putRegBytes x.regs.reverse)
    let gs := globBytes segs x.glob.reverse
    let s := (linesOf (gs.map Prod.fst)).foldl (fun (s : State) l => s.leaveWrite t e .mx l (gs.filter (fun p => p.1 / 128 == l))) s
    let es := finRecords j x.recs s.next
    let s : State := { s.modSlat t.uid (fun t => { t with queue := t.queue ++ es }) with next := s.next + es.length }
    let s := s.jobDone t.core j
    s.modSlat t.uid (fun t =>
      if t.ended then t
      else
        let t := if x.badBase then t.raise (j.cause 4 3) else t
        if x.full then t.raise (j.cause 0xC 1) else t)

/-- A fin at its turn (R287, R289). -/
def State.applyFin (s : State) (t : Slat) (j : EngJob) (o : TOp) (m : List (Nat × Byte)) : State :=
  match s.finRefusal t j o m, s.tileAt j.team t.core o.tile.toNat, (s.core t.core).progs.find? (fun p => p.1 == o.prog.toNat) with
  | some (code, reason), _, _ => s.refuseJob t.core j (j.cause code reason)
  | none, some k, some (_, p) =>
    let ws := p.words.map parseFStep
    let b := finBlock (leNat (Memory.readN m j.sF.toNat 32))
    let n := 32 * finSize ws 1
    match (if n = 0 then (.ok [], s) else s.finPages t b.gaddr b.pitch n (List.range 32)) with
    | (.error (code, reason), s) => s.refuseJob t.core j (j.cause code reason)
    | (.ok segs, s) =>
      if j.poison || (sget Tile.empty (s.core t.core).tiles k).mark.any Prod.snd then s.refuseJob t.core j (j.cause 0xA 1)
      else s.runFin t j o ws k m segs
  | none, _, _ => s

/-- The first step of a program that fpl refuses (R61): 15 where sixteen steps hold no kend. -/
def badStep (ws : List W32) : Option Nat :=
  match ws.findIdx? (fun w => !(parseFStep w).ok) with
  | some k => some k
  | none => if ws.any (fun w => (parseFStep w).kop == 0x0A#5) then none else some 15

/-- An fpl at its turn (R280, R281). -/
def State.applyFpl (s : State) (t : Slat) (j : EngJob) (o : TOp) : State :=
  match j.bad with
  | some (code, reason) => s.refuseJob t.core j (j.cause code reason)
  | none => match badStep j.words with
    | some k => s.refuseJob t.core j { j.cause 1 4 with word := k }
    | none => (s.modCore t.core (fun c => { c with progs := sput c.progs o.prog.toNat ⟨j.words, t.ctx⟩ })).jobDone t.core j

/-- An instruction on a tile of the team's window; beyond it BOUNDS (R275). -/
def State.onTile (s : State) (core : Nat) (j : EngJob) (o : TOp) (f : State → Nat → Tile → State) : State :=
  match s.tileAt j.team core o.tile.toNat with
  | none => s.refuseJob core j (j.cause 7 8)
  | some k => f s k (sget Tile.empty (s.core core).tiles k)

/-- A job applied (R264, R272, R273, R287). -/
def State.applyJob (s : State) (t : Slat) (core : Nat) (j : EngJob) : State :=
  let m := j.share.getD []
  let put := fun (o : TOp) (f : Tile → Tile) => s.onTile core j o (fun s k x => (s.putTile core k (f x)).jobDone core j)
  match j.instr with
  | .mmaF8 o => s.onTile core j o (fun s k _ => s.applyF8 core j o k m)
  | .mmaBf o => put o (fun x => x.addBf j.ra j.rb)
  | .mmaI8 o => put o (fun x => x.addI8 j.ra j.rb)
  | .azero o => put o (fun _ => Tile.empty)
  | .ard o => s.onTile core j o (fun s _ x => (s.modSlat j.uid (fun t => t.ardWrite x o.va.toNat o.qtr.toNat)).jobDone core j)
  | .awr o => put o (fun x => x.awrWrite o.qtr.toNat j.ra)
  | .fin o => s.applyFin t j o m
  | .fpl o => s.applyFpl t j o
  | _ => s.jobDone core j

/-- The addresses that a job at its turn has translated: the pages of a fin's global rows (R289). -/
def State.turnVas (s : State) (t : Slat) (j : EngJob) : List W64 :=
  match j.instr with
  | .fin o =>
    let m := j.share.getD []
    let b := finBlock (leNat (Memory.readN m j.sF.toNat 32))
    match s.finRefusal t j o m, (s.core t.core).progs.find? (fun p => p.1 == o.prog.toNat) with
    | none, some (_, p) =>
      let n := 32 * finSize (p.words.map parseFStep) 1
      if n = 0 then [] else ((List.range 32).map (fun i => s.pageVas t.ctx t.part (b.gaddr + BitVec.ofNat 64 (i * b.pitch)) n)).flatten
    | _, _ => []
  | _ => []

/-- A job applied once the lines that its walks read are ready (R158, R179). -/
def State.turnJob (s : State) (t : Slat) (core : Nat) (j : EngJob) : State :=
  let ws := s.walksFor core t.ctx t.part (s.turnVas t j)
  if s.hubOk true ws then (s.applyJob t core j).hubFree true ws else s.hubAsk true t.fn t.part ws

/-- The head of a core's engine queue applied (R264): once its mx entry has read what it needs (R276), at once where the slat
that issued it was killed (R277). -/
def State.engineStep (s : State) (core : Nat) : State :=
  match (s.core core).eng with
  | [] => s
  | j :: _ => match s.slat? j.uid with
    | none => s.jobDone core j
    | some t =>
      let mx := match j.instr with
        | .mmaF8 _ => true
        | .fin _ => true
        | .fpl _ => true
        | _ => false
      if mx && j.share.isNone then
        let as := s.jobAs t j
        if t.queue.any (fun e => e.op == .engine j.id) then s
        else if !(s.coreReady core as) then s.coreWant t as
        else
          let (j, s) := s.captureJob t j
          (s.hubFree true (linesOf as)).turnJob t core j
      else s.turnJob t core j

end Sys2Proof.Machine
end

