-- ==== Sys2Proof/Machine/Fabric.lean ====
section
/-! DEFINITION. Fabric transfers: issue, checks, sending, the fabric agent, reductions, acknowledgements and refusals (R292 to
R306). -/

namespace Sys2Proof.Machine

/-- A transfer at issue (R54, R296): a put or get of no bytes completes at once. -/
def xferIssue (o : XOp) (op : Nat) (s : State) : Out :=
  scaCtr s o.h (ctrOf o.ctr) [.s o.sD, .s o.sS, .s o.sN, .s o.sE] (fun t u =>
    let n := t.sget o.sN.toNat
    if op ≠ 1 ∧ n = 0 then s.advance t u
    else
      s.issueEnts t u (ctrOf o.ctr) []
        [⟨[.xf], .xfer ⟨op, t.sget o.sD.toNat, t.sget o.sS.toNat, n, t.sget o.sE.toNat, o.c16.toNat⟩, []⟩] [])

/-- XPUT (R298). -/
def execXput (o : XOp) (s : State) : Out := xferIssue o 0 s
/-- XRED (R300). -/
def execXred (o : XOp) (s : State) : Out := xferIssue o 1 s
/-- XGET (R299). -/
def execXget (o : XOp) (s : State) : Out := xferIssue o 2 s

/-- XFEN (R302): a release at `.sl` on all five paths; the slat parks until it completes. -/
def execXfen (o : XOp) (s : State) : Out :=
  scaDo s o.h [] (fun t u =>
    (s.markers t u [(allPaths, { relMark false with fst := true })]).parked t.uid .xfen (BitVec.ofNat 64 (s.next + 1)))

/-- A reduction group that counts as registered (R300, R364). -/
def Group.ok (g : Group) : Bool :=
  let csz := g.csz * 128
  g.v && decide (2 ≤ g.nm) && decide (g.nm ≤ 4095) && decide (1 ≤ g.nc) && decide (g.nc ≤ 65535) && decide (1 ≤ g.csz) && decide (g.csz ≤ 512)
    && g.glen % 4 == 0 && decide ((g.nc - 1) * csz + 4 ≤ g.glen) && decide (g.glen ≤ g.nc * csz)

/-- A function's group, where it counts as registered. -/
def State.groupOf (s : State) (fn k : Nat) : Option Group := ((s.fn fn).groups.find? (fun g => g.1 == k && g.2.ok)).map Prod.snd

/-- The length of chunk c of a group (R300). -/
def Group.chunk (g : Group) (c : Nat) : Nat := if c + 1 < g.nc then g.csz * 128 else g.glen - (g.nc - 1) * (g.csz * 128)

/-- What a page of a transfer's source, or of its destination, must grant (R304). -/
def Need.xferSrc : Need := ⟨true, false, false, some 0xB⟩
/-- What a page of a get's destination must grant (R304). -/
def Need.xferDst : Need := ⟨false, true, false, some 0xB⟩

/-- The checks of R304 before any page, in the order of its table. An offset in a peer's window that is no multiple of 4 meets no check, since the
table names local addresses alone. (Log 95: DESIGN CHOICE.) -/
def State.xferForm (s : State) (t : Slat) (x : XferOps) : Option Stop :=
  let n := x.n.toNat
  let w := x.e.toNat
  let ncl := w.testBit 39
  let coff := natField w 31 0
  if 65536 < n ∨ n % 4 ≠ 0 then some (.sync 7 6 0)
  else if x.op ≠ 1 then
    if natField w 38 32 ≠ 0 ∨ natField w 63 52 = 4095 ∨ (ncl ∧ coff ≠ 0) ∨ coff % 16 ≠ 0
        ∨ (x.op = 2 ∧ ncl = false ∧ (s.team? t.team).elim 0 Team.spad < coff + 16) then some (.sync 7 2 8)
    else if x.op = 0 ∧ x.s.toNat % 4 ≠ 0 then some (.sync 4 1 1)
    else if x.op = 2 ∧ x.d.toNat % 4 ≠ 0 then some (.sync 4 1 2)
    else none
  else match s.groupOf t.fn (natField w 9 0) with
    | none => some (.sync 7 0xE 16)
    | some g =>
      if natField w 63 32 ≠ 0 ∨ natField w 15 10 ≠ 0 ∨ g.nc ≤ x.d.toNat ∨ n ≠ g.chunk x.d.toNat then some (.sync 7 0xE 16) else none

/-- A transfer's entry leaves xf (R304): checks, then one message into the hold window. -/
def State.leaveXfer (s : State) (t : Slat) (e : QEnt) (x : XferOps) : State :=
  match s.xferForm t x with
  | some x => s.stopEnt t e 4 x
  | none =>
    match (if x.op = 2 then s.rangeOk t Need.xferDst e.regen x.d x.n.toNat 2 else s.rangeOk t Need.xferSrc e.regen x.s x.n.toNat 1) with
    | (.error y, s) => s.stopEnt t e 4 y
    | (.ok segs, s) =>
      let k : Xfer :=
        { id := s.next, uid := t.uid, seq := e.seq, core := t.core, ctx := t.ctx, fn := t.fn, part := t.part, ops := x,
          src := if x.op = 2 then [] else segs, dst := if x.op = 2 then segs else [], bytes := [], st := 0,
          todo := if x.op = 2 then 1 else (x.n.toNat + 3967) / 3968, link := 0,
          coff := if x.op = 2 ∧ x.e.toNat.testBit 39 = false then some (.spad t.team (s.rank t) (natField x.e.toNat 31 0)) else none,
          cid := e.cid, ent := e.ent }
      let s : State := { s with next := s.next + 1, fab := { s.fab with xfers := s.fab.xfers ++ [k] } }
      (s.leftQueue t.uid e.seq).enterHw (mkReq t e .xf .mem 0 0 false (.xfer k.id))

/-- A transfer by its number. -/
def State.xfer? (s : State) (id : Nat) : Option Xfer := s.fab.xfers.find? (fun x => x.id == id)

/-- A transfer changed in place. -/
def State.setXfer (s : State) (x : Xfer) : State := { s with fab := { s.fab with xfers := replaceBy Xfer.id x s.fab.xfers } }

/-- A transfer forgotten, with its answer. -/
def State.dropXfer (s : State) (id : Nat) : State :=
  { s with fab := { s.fab with xfers := s.fab.xfers.filter (fun x => x.id != id), replies := s.fab.replies.filter (fun r => r.own != some id) } }

/-- The lines a transfer reads as it exits. -/
def State.xferLines (s : State) (id : Nat) : List Nat := (s.xfer? id).elim [] (fun x => if x.ops.op = 2 then [] else segLines x.src)

/-- A transfer exits the hold window (R298 to R300): a put or contribution reads its source, whose lines are ready, and its counter falls; it
enters the tail of its peer queue. -/
def State.exitXfer (s : State) (id : Nat) : State :=
  match s.xfer? id with
  | none => s
  | some x =>
    let bytes := if x.ops.op = 2 then [] else (List.range x.ops.n.toNat).map (fun i => s.hubByte (segAddr x.src i))
    let s : State := { s with fab := { s.fab with xfers := s.fab.xfers.filter (fun y => y.id != id) ++ [{ x with st := 1, bytes := bytes }] } }
    if x.ops.op = 2 then s
    else s.modSlat x.uid (fun t => match t.qent? x.seq with
      | some e => (t.doneInst e.ins).setQent { e with ins := 0 }
      | none => t)

/-- A table's slot serves a function or partition: it is open, or owned by a class bound to one of them (R180, R182, R184). -/
def State.slotServes (s : State) (table : List Nat) (slot fn part : Nat) : Bool :=
  let e := table.getD (slot % Config.frameSlots) 31
  !(e.testBit 7) && (e % 32 == 31 || s.stc.classes.any (fun c => c.1 == e % 32 && (c.2 == .fn fn || c.2 == .part part)))

/-- The transfers that a slot of a link may carry, oldest first: heads of their peer queues (R182, R293, R303). -/
def State.fabricReady (s : State) (link slot : Nat) : List Xfer :=
  s.fab.xfers.filter (fun x => x.st == 1 && s.fabricRoute x == some link && s.slotServes (s.flink link).port slot x.fn x.part
    && (s.fab.xfers.takeWhile (fun y => y.id != x.id)).all (fun y => y.st != 1 || y.ops.key != x.ops.key))

/-- A fabric link reaches a slot: each slot before it, from where the link stands, has passed with nothing ready that it may carry, and with
no change of its table due (R185, R293). -/
def State.fabricReaches (s : State) (link slot : Nat) : Bool :=
  let l := s.flink link
  decide (l.slot ≤ slot) && l.st == .up && !(l.load.elim false (fun x => decide (x.2 ≤ slot)))
    && (List.range (min (slot - l.slot) 256)).all (fun i => (s.fabricReady link (l.slot + i)).isEmpty)

/-- FABRIC_OUT_SLOT (R293): one slot's payload of the oldest transfer that the slot may carry; sent whole with its last one. A slot with none
passes. -/
def execFabricOutSlot (link slot xfer : Nat) (s : State) : Out :=
  .next (if !(s.fabricReaches link slot) then s
    else match (s.fabricReady link slot).head? with
      | none => s.modFlink link (fun l => { l with slot := slot })
      | some x =>
        if x.id ≠ xfer then s
        else (s.setXfer (if x.todo ≤ 1 then { x with st := 2, todo := 0, link := link } else { x with todo := x.todo - 1, link := link })).modFlink link
          (fun l => { l with slot := slot + 1 }))

/-- Where the fabric agent finds a window's range: memory segments, or a core's banks. -/
inductive AgentAt where
  | mem (segs : List (Nat × Nat × Nat))
  | spad (core a : Nat)
  deriving DecidableEq, Repr

/-- A registered window of a function, or the reason of R305 why a transfer has none there: ctx is the context that the sender names, none
where a reduction's result comes through the function's group. (Log 79: DEDUCED.) -/
def State.windowOf (s : State) (fn win : Nat) (ctx : Option Nat) : Except Nat Window :=
  if (s.fn fn).busy then .error 5
  else match (s.fn fn).windows.find? (fun w => w.1 == win && w.2.v) with
    | none => .error 2
    | some (_, w) => if (s.context? w.ctx).elim false (fun c => c.fn == fn) && ctx.elim true (fun c => c == w.ctx) then .ok w else .error 2

/-- The team of a scratchpad window: of a persistent grid of its context (R295, R364). -/
def State.windowTeam (s : State) (w : Window) : Option Team :=
  s.teams.find? (fun m => m.grid == w.base.toNat && m.idx == w.len.toNat && m.ctx == w.ctx && (s.grid? m.grid).elim false (fun g => g.launch.persist))

/-- A range of a window: none beyond it, or where it has no translation. -/
def State.windowAt (s : State) (w : Window) (need : Need) (rank off n : Nat) : Option AgentAt :=
  if w.spad then
    match s.windowTeam w with
    | none => none
    | some m =>
      if m.spad < off + n then none
      else (m.rankCore rank).map (fun c => .spad c.1 (c.2.1 + off))
  else if w.len.toNat < off + n ∨ rank ≠ 0 then none
  else
    let va := w.base + BitVec.ofNat 64 off
    let part := s.ctxPart w.ctx
    match s.checkRange w.ctx part 1 need va (s.pagesOf w.ctx part va n) with
    | .ok segs => some (.mem segs)
    | .error _ => none

/-- A clamp of a window. -/
def State.windowClamp (s : State) (w : Window) (rank coff : Nat) : Option ClampLoc :=
  match s.windowAt w ⟨false, true, false, some 6⟩ rank coff 16 with
  | none => none
  | some (.mem segs) => some (.mem (segAddr segs 0))
  | some (.spad _ _) => (s.windowTeam w).map (fun m => .spad m.uid rank coff)

/-- Bytes written at a place of a window: write-class home steps, or the banks (R298). -/
def State.agentWrite (s : State) (fn : Nat) (p : AgentAt) (bs : List Byte) : State :=
  match p with
  | .mem segs => s.hubWrite fn ((at_ 0 bs).map (fun b => (segAddr segs b.1, b.2)))
  | .spad core a => s.bankWrite core (at_ a bs)

/-- Bytes read at a place of a window, as a put reads its source (R298, R299). -/
def State.agentRead (s : State) (p : AgentAt) (n : Nat) : List Byte :=
  match p with
  | .mem segs => (List.range n).map (fun i => s.hubByte (segAddr segs i))
  | .spad core a => s.spadRead core a n

/-- The lines of memory at a place of a window. -/
def AgentAt.lines (p : AgentAt) : List Nat :=
  match p with
  | .mem segs => segLines segs
  | .spad _ _ => []

/-- A step of the fabric agent at ranges (offset, bytes) of a window: taken once the lines of their walks, and those of the first range, are
ready to be read or written; what it waits for is asked for first (R18, R158, R298). -/
def State.agentStep (s : State) (fn : Nat) (w : Window) (need : Need) (rank : Nat) (at_ : List (Nat × Nat)) (f : State → State) : State :=
  let part := s.ctxPart w.ctx
  let walks := if w.spad then [] else (at_.map (fun x => s.hubWalks w.ctx part (w.base + BitVec.ofNat 64 x.1) x.2)).flatten.eraseDups
  s.hubStep true fn part walks (fun s =>
    let lines := (at_.head?.bind (fun x => s.windowAt w need rank x.1 x.2)).elim [] AgentAt.lines
    s.hubStep (!need.wr) fn part lines f)

/-- A clamp step owed for a transfer. (Log 38: DESIGN CHOICE.) -/
def State.owe (s : State) (loc : Option ClampLoc) (n : Nat) (err : Bool) (fn tag : Nat) : State :=
  match loc with
  | none => s
  | some l =>
    let (id, s) := s.fresh
    s.modHome (fun h => { h with counts := h.counts ++ [⟨id, l, n, err, fn, tag⟩] })

/-- Whether clamp steps with a tag are still owed. -/
def State.owes (s : State) (tag : Nat) : Bool := s.home.counts.any (fun c => c.copy == tag)

/-- An answer of the agent. -/
def State.reply (s : State) (r : Reply) : State := { s with fab := { s.fab with replies := s.fab.replies ++ [r] } }

/-- A transfer that loops back to this device (R295). (Log 61: DESIGN CHOICE.) -/
def Xfer.loops (x : Xfer) : Bool := x.ops.op != 1 && x.ops.key.2 == Config.fabricNumber

/-- A put that its own device's agent is to apply is the transfer it names. -/
def State.ownPut (s : State) (p : PeerPut) : Bool :=
  match p.own with
  | none => true
  | some id => match s.xfer? id with
    | none => false
    | some x =>
      let w := x.ops.e.toNat
      x.loops && x.ops.op == 0 && x.st == 2 && !(s.fab.replies.any (fun r => r.own == some id)) && p.fn == x.fn && p.win == natField w 51 44
        && p.rank == natField w 43 40 && p.off == x.ops.d.toNat && p.bytes == x.bytes && p.ncl == w.testBit 39 && p.coff == natField w 31 0
        && p.ctx == x.ctx && p.part == x.part && !p.lost

/-- A put applied at its window (R298, R305). -/
def State.putApply (s : State) (p : PeerPut) (w : Window) : State :=
  let (id, s) := s.fresh
  let no := fun (s : State) (k : Nat) => s.reply ⟨id, p.dev, p.own, k, []⟩
  let loc := if p.ncl then none else s.windowClamp w p.rank p.coff
  if p.lost then
    ((s.windowAt w Need.xferDst p.rank p.off p.bytes.length).elim s (fun a => s.agentWrite p.fn a p.bytes)).owe loc 0 true p.fn 0
  else if w.spad && (s.windowTeam w).isNone then no s 2
  else match s.windowAt w Need.xferDst p.rank p.off p.bytes.length with
    | none => no (s.owe loc 0 true p.fn id) 3
    | some a =>
      if !p.ncl && loc.isNone then no s 3
      else no ((s.agentWrite p.fn a p.bytes).owe loc p.bytes.length false p.fn id) 0

/-- PEER_PUT_APPLY (R298, R305): a put's bytes into a window, its count owed, its answer. Of a put that failed on its way from another
device (R306) the switch delivers what was applied, and an error mark in place of the count; nothing is answered. -/
def execPeerPutApply (p : PeerPut) (s : State) : Out :=
  .next (if !(s.ownPut p) then s
    else match s.windowOf p.fn p.win (some p.ctx) with
      | .error k => if p.lost then s else s.fresh.2.reply ⟨s.next, p.dev, p.own, k, []⟩
      | .ok w =>
        s.agentStep p.fn w Need.xferDst p.rank ((p.off, p.bytes.length) :: if p.ncl then [] else [(p.coff, 16)]) (fun s => s.putApply p w))

/-- A get that its own device's agent is to serve is the transfer it names. -/
def State.ownGet (s : State) (g : PeerGet) : Bool :=
  match g.own with
  | none => true
  | some id => match s.xfer? id with
    | none => false
    | some x =>
      let w := x.ops.e.toNat
      x.loops && x.ops.op == 2 && x.st == 2 && !(s.fab.replies.any (fun r => r.own == some id)) && g.fn == x.fn && g.win == natField w 51 44
        && g.rank == natField w 43 40 && g.off == x.ops.s.toNat && g.len == x.ops.n.toNat && g.ctx == x.ctx && g.part == x.part

/-- PEER_GET_SERVE (R299, R305): a window's bytes, or a refusal. -/
def execPeerGetServe (g : PeerGet) (s : State) : Out :=
  .next (if !(s.ownGet g) then s
    else
      let say := fun (s : State) (k : Nat) (bs : List Byte) => s.fresh.2.reply ⟨s.next, g.dev, g.own, k, bs⟩
      match s.windowOf g.fn g.win (some g.ctx) with
      | .error k => say s k []
      | .ok w =>
        if w.spad && (s.windowTeam w).isNone then say s 2 []
        else s.agentStep g.fn w Need.xferSrc g.rank [(g.off, g.len)] (fun s =>
          match s.windowAt w Need.xferSrc g.rank g.off g.len with
          | none => say s 3 []
          | some a => say s 0 (s.agentRead a g.len)))

/-- The answer of this device's own agent to a transfer agrees with a code and bytes, where the transfer loops back. -/
def State.answered (s : State) (x : Xfer) (code : Nat) (bytes : List Byte) : Bool :=
  !x.loops || s.fab.replies.any (fun r => r.own == some x.id && r.code == code && r.bytes == bytes && !(s.owes r.id))

/-- GET_RESPONSE (R299): a get's bytes written at its destination, whose lines are ready to be written, its count owed at the issuing core's own
share. -/
def execGetResponse (xfer : Nat) (bytes : List Byte) (s : State) : Out :=
  .next (match s.xfer? xfer with
    | none => s
    | some x =>
      if x.ops.op ≠ 2 ∨ x.st ≠ 2 ∨ bytes.length ≠ x.ops.n.toNat ∨ (s.flink x.link).st ≠ .up ∨ s.answered x 0 bytes = false then s
      else s.hubStep false x.fn x.part (segLines x.dst) (fun s =>
        ((s.hubWriteAs x.fn x.uid x.seq ((at_ 0 bytes).map (fun b => (segAddr x.dst b.1, b.2)))).owe x.coff bytes.length false x.fn x.id).setXfer
          { x with st := 3 }))

/-- FABRIC_ACK (R298 to R300): the transfer is complete for its slat. -/
def execFabricAck (xfer : Nat) (s : State) : Out :=
  .next (match s.xfer? xfer with
    | none => s
    | some x =>
      let done := match x.ops.op with
        | 0 => x.st == 2 && s.answered x 0 []
        | _ => x.st == 3 && !(s.owes x.id)
      if done && (s.flink x.link).st == .up then (s.finishEnt x.uid x.seq).dropXfer xfer else s)

/-- Releases over a refused transfer complete with its status (R93, R97, R305). -/
def Slat.markStatus (t : Slat) (seq code : Nat) : Slat :=
  { t with queue := t.queue.map (fun e => match e.op with
      | .marker m => if m.rel && e.paths.contains .xf && decide (seq < e.seq) then { e with op := .marker { m with status := code } } else e
      | _ => e) }

/-- The clamp of a refused transfer at this device: a get's, this member's clamp of a chunk, or that of a put that loops back, unless this
device's agent has refused it itself and has marked it then (R305, R306). -/
def State.refusedClamp (s : State) (x : Xfer) : Option ClampLoc :=
  if x.ops.op = 1 then
    match s.groupOf x.fn x.ops.key.2 with
    | none => none
    | some g => match s.windowOf x.fn g.win none with
      | .error _ => none
      | .ok w => s.windowClamp w 0 (g.cboff.toNat + 16 * x.ops.d.toNat)
  else if x.ops.op = 0 then
    let e := x.ops.e.toNat
    if !x.loops || e.testBit 39 || s.fab.replies.any (fun r => r.own == some x.id && r.code != 0) then none
    else match s.windowOf x.fn (natField e 51 44) (some x.ctx) with
      | .error _ => none
      | .ok w => s.windowClamp w (natField e 43 40) (natField e 31 0)
  else x.coff

/-- A transfer refused (R305, R306): its clamp is marked, its entry is over, the slat takes the cause at its next boundary, or
the context's error is set where the slat has ended. -/
def State.refuseXfer (s : State) (x : Xfer) (code reason : Nat) : State :=
  let s := s.owe (s.refusedClamp x) 0 true x.fn 0
  let alive := (s.slat? x.uid).elim false (fun t => !t.ended)
  let raw := BitVec.ofNat 64 (x.ops.key.2 * 2 ^ 32 + reason * 256)
  let c : Cause := { code := code, cid := x.cid, word := 0, back := 0, reason := reason, lanes := 0, raw := some raw, at_ := none, ent := x.ent, nested := false }
  let s := s.modSlat x.uid (fun t => t.markStatus x.seq code)
  let s := ((s.finishEnt x.uid x.seq).dropXfer x.id).note x.uid x.seq 8 [] (some c)
  if alive then s.modSlat x.uid (fun t => t.raise c) else s.modContext x.ctx (fun k => { k with error := some (k.error.getD code) })

/-- The FP32 sum of two elements, of a format (R301). -/
def redSum (bf : Bool) (a b : Nat) : Nat :=
  let f := if bf then bf16 else fp32
  let r := toF32 (fsum 0 (fdec f a) (fdec f b))
  if bf then toB16 (f32 r) else r.toNat

/-- A finite element that some second summand gives with a finite own one (R301): the sum grows with it, so that one of the two elements next
to the exact difference gives it, or none does. -/
def redPair (bf : Bool) (own r : Nat) : Bool :=
  let f := if bf then bf16 else fp32
  let d := fsum 0 (fdec f r) (fdec f own).negate
  [2, 3].any (fun mode => redSum bf own (fround f mode 0 false d).bits == r)

/-- Whether an element can be the combination of one element with those of nm - 1 others, which this device does not see (R301): a maximum or
minimum that the own element leaves as it is; a sum that is NaN, canonical, for a NaN, keeps an infinity or is NaN, is -0 only where the own
element is, and, of two, one that a second element gives. -/
def redElem (op : Nat) (bf : Bool) (nm own r : Nat) : Bool :=
  let f := if bf then bf16 else fp32
  if op = 0 then
    match fdec f own, fdec f r with
    | _, .nan => r == (if bf then toB16 .nan else (toF32 .nan).toNat)
    | .nan, _ => false
    | .inf a, v => v == .inf a
    | .fin _ _ _, .inf _ => true
    | .fin sg m _, .fin sg' m' _ => if m' = 0 then !sg' || (sg && m == 0) else nm != 2 || redPair bf own r
  else fpick f (op == 1) false r own == r

/-- Whether bytes can be the result of a reduction to which this member has contributed (R301). -/
def Xfer.redAllowed (x : Xfer) (nm : Nat) (bytes : List Byte) : Bool :=
  let bf := natField x.ops.c16 2 2 == 1
  let z := elemBytes bf
  let at_ := fun (l : List Byte) (i : Nat) => leNat ((l.drop (i * z)).take z)
  (List.range (bytes.length / z)).all (fun i => redElem (natField x.ops.c16 1 0) bf nm (at_ x.bytes i) (at_ bytes i))

/-- SWITCH_REDUCTION_RESULT (R300, R301): a combined chunk into this member's window, counted at the chunk's clamp. The switch holds
this member's contribution. A result of no bytes is the error mark that a refused chunk leaves at every member's clamp (R305). What reaches
a function that is being reset is refused (R367). -/
def execSwitchReductionResult (fn group epoch chunk : Nat) (bytes : List Byte) (s : State) : Out :=
  let own := s.fab.xfers.find? (fun x => x.fn == fn && x.ops.op == 1 && x.st == 2 && x.ops.key.2 == group
      && natField x.ops.e.toNat 31 16 == epoch && x.ops.d.toNat == chunk)
  .next (if (s.fn fn).busy then (match own with
      | some x => s.refuseXfer x 0x10 5
      | none => s)
    else match s.groupOf fn group with
    | none => s
    | some g => match s.windowOf fn g.win none with
      | .error _ => s
      | .ok w =>
        let off := g.boff.toNat + chunk * (g.csz * 128)
        let coff := g.cboff.toNat + 16 * chunk
        if bytes.isEmpty then s.agentStep fn w Need.xferDst 0 [(coff, 16)] (fun s => s.owe (s.windowClamp w 0 coff) 0 true fn 0)
        else match own with
          | none => s
          | some x =>
            if bytes.length ≠ g.chunk chunk ∨ (s.flink x.link).st ≠ .up ∨ x.redAllowed g.nm bytes = false then s
            else s.agentStep fn w Need.xferDst 0 [(off, bytes.length), (coff, 16)] (fun s =>
              match s.windowAt w Need.xferDst 0 off bytes.length, s.windowClamp w 0 coff with
              | some a, some loc => ((s.agentWrite fn a bytes).owe (some loc) bytes.length false fn x.id).setXfer { x with st := 3 }
              | _, _ => s))

/-- FABRIC_NACK (R305). -/
def execFabricNack (xfer reason : Nat) (s : State) : Out :=
  .next (match s.xfer? xfer with
    | none => s
    | some x =>
      if x.st < 2 ∨ reason = 0 ∨ 5 < reason ∨ (s.flink x.link).st ≠ .up ∨ s.answered x reason [] = false then s
      else s.refuseXfer x 0x10 reason)

end Sys2Proof.Machine
end

