-- ==== Sys2Proof/Machine/System.lean ====
section
/-! DEFINITION. System instructions: queues, child launches, traps and returns, TLB invalidation (R330 to R336). -/

namespace Sys2Proof.Machine

/-- A refusal at run time with a sub-reason (R332), or PRIV (R398): the instruction changes nothing. -/
def State.refuse (s : State) (t : Slat) (u : Issue) (c : Cause) : State := s.advance (t.raise c) u

/-- A refusal of R332. -/
def State.refuse15 (s : State) (t : Slat) (u : Issue) (sub : Nat) : State := s.refuse t u (boundsF u.cid u.ent sub)

/-- An instruction above the slat's level (R331, R398). -/
def State.refusePriv (s : State) (t : Slat) (u : Issue) : State := s.refuse t u (u.cause 3 2 0#32)

/-- A sys instruction that goes on as a job of the hub: its counter is held, and a device-scope release on ls, ac and cp may come
first (R96). The marker and the job have the two numbers after the instruction's. -/
def State.openJob (s : State) (t : Slat) (u : Issue) (ctr : Option Nat) (rel : Bool) (kind : JobKind) : State :=
  let n := s.next
  let t1 := if rel then { t with queue := t.queue ++ [markerEnt (n + 1) [.ls, .ac, .cp] (relMark true)] } else t
  let j : Job :=
    { id := n + 2, uid := t.uid, ins := n, cid := u.cid, pos := u.pos, len := u.len, ent := u.ent, at_ := s.now, after := n + 1, tok := none,
      regen := false, kind := kind }
  { (s.advance (t1.openInst n ctr 1) u).modHub (fun h => { h with jobs := h.jobs ++ [j] }) with next := n + 3 }

/-- A queue a slat may name (R332): of its context, and of a kind. -/
def State.queueFor (s : State) (t : Slat) (q : Nat) (kind : Nat → Bool) : Bool :=
  decide (q < 1024) && (s.queue q).ctx == t.ctx && kind (s.queue q).kind

/-- A slat parked on a queue, behind its waiters; it goes on at once where an item is there that the hub may give it (R333). -/
def State.parkDeq (s : State) (t : Slat) (q dst : Nat) : State :=
  let s := (s.modSlat t.uid (fun t => { t with parkDst := dst, parkAt := s.now + 1 })).parked t.uid .deq (BitVec.ofNat 64 q)
  let s := (s.modQueue q (fun x => { x with waiters := x.waiters ++ [t.uid] })).serveDeq q ((s.queue q).waiters.length + 1)
  if (s.slat? t.uid).elim false (fun t => t.park == .none) then { s with focus := some t.uid } else s

/-- DEQ (R333): an item into eight registers, or the slat parks until one comes. -/
def execDeq (o : YOp) (s : State) : Out :=
  scaDo s o.h [.s o.sA] (fun t u =>
    let q := (t.sget o.sA.toNat).toNat
    if q < 1024 ∧ (s.queue q).kind = 2 ∧ t.level = 0 then s.refusePriv t u
    else if !(s.queueFor t q (fun k => k == 1 || k == 2)) then s.refuse15 t u 0x12
    else (s.advance t u).parkDeq t q o.sD.toNat)

/-- The registers of an item. -/
def itemSrcs (b : Nat) : List Src := (List.range 8).map (fun j => .s (BitVec.ofNat 6 (b + j)))

/-- ENQ (R333): a release, then an item into a device-written work queue; sD says whether it had room. -/
def execEnq (o : YOp) (s : State) : Out :=
  scaCtr s o.h (ctrOf o.ctr) (.s o.sA :: itemSrcs o.sB.toNat) (fun t u =>
    let q := (t.sget o.sA.toNat).toNat
    if !(s.queueFor t q (fun k => k == 1)) || !(s.queue q).dev then s.refuse15 t u 0x12
    else s.openJob t u (ctrOf o.ctr) true (.enq q ((List.range 8).map (fun j => t.sget (o.sB.toNat + j))) o.sD.toNat))

/-- LNCH (R334): only slat 0's fragment with lane 0 may, and no deeper than depth 10. -/
def execLnch (o : YOp) (s : State) : Out :=
  scaCtr s o.h (ctrOf o.ctr) [.s o.sA] (fun t u =>
    if t.idx ≠ 0 ∨ (t.ent u.ent).mask.getLsbD 0 = false then s.refuse15 t u 0x10
    else if 10 ≤ (s.grid? t.grid).elim 0 Grid.depth then s.refuse15 t u 0x11
    else s.openJob t u (ctrOf o.ctr) true (.lnch (t.sget o.sA.toNat) o.sD.toNat))

/-- A child that a team launched is live; k = 0 asks for any (R334). -/
def State.childLive (s : State) (team k : Nat) : Bool :=
  s.hub.grids.any (fun g => g.parent.map Prod.snd == some team && (k == 0 || g.id == k))

/-- CWAIT (R334): until the named child, or every child of the team, has retired. -/
def execCwait (o : YOp) (s : State) : Out :=
  scaDo s o.h [.s o.sA] (fun t u =>
    let k := (t.sget o.sA.toNat).toNat
    if k ≠ 0 ∧ s.childLive t.team k = false ∧ s.hub.retired.contains (k, t.team) = false then s.refuse15 t u 0x13
    else if s.childLive t.team k then (s.advance t u).parked t.uid .cwait (BitVec.ofNat 64 k)
    else (s.advance t u).acqAll t.uid)

/-- Slats parked on cwait whose children have retired go on (R334). -/
def State.wakeCwait (s : State) : State :=
  s.slats.foldl (fun (s : State) t =>
    if t.park = .cwait ∧ s.childLive t.team t.parkArg.toNat = false then (s.unpark t.uid).acqAll t.uid else s) s

/-- A cause with a code of its own in %tinfo[16:0] (R335). -/
def codeCause (u : Issue) (code : Nat) (imm : BitVec 17) : Cause :=
  { code := code, cid := u.cid, word := 0, back := 0, reason := 0, lanes := 0, raw := some (zext64 imm), at_ := none, ent := u.ent, nested := false }

/-- TRAP (R335): taken at the next clause boundary. -/
def execTrap (o : YOp) (s : State) : Out := scaDo s o.h [] (fun t u => s.advance (t.raise (codeCause u 0xE o.imm)) u)

/-- BRK (R335): taken at the next clause boundary. -/
def execBrk (o : YOp) (s : State) : Out := scaDo s o.h [] (fun t u => s.advance (t.raise (codeCause u 0xD o.imm)) u)

/-- RTI (R335): inh falls, the held fragments are released, the issuing one continues at %tepc. -/
def execRti (o : YOp) (s : State) : Out :=
  scaDo s o.h [] (fun t u => if !t.inh then s.refuse15 t u 0x14 else s.advance (t.returnTrap u.ent s.now) u)

/-- A TLB entry that an invalidation names: of the partition, of a context, over the range; len 0 means every address. -/
def TlbEnt.hit (e : TlbEnt) (part : Nat) (ctxs : List Nat) (lo len : Nat) : Bool :=
  e.part == part && ctxs.contains e.ctx && (len == 0 || (decide (e.va < lo + len) && decide (lo < e.va + e.size)))

/-- A translation register whose page a range covers (R106). -/
def TReg.hit (b : TReg) (lo len : Nat) : Bool :=
  match b.res with
  | none => false
  | some r => len == 0 || (decide (r.page < lo + len) && decide (lo < r.page + r.size))

/-- A slat's translation registers made unresolved over a range (R106). -/
def Slat.unresolve (t : Slat) (lo len : Nat) : Slat :=
  { t with b := t.b.map (fun x => (x.1, if x.2.hit lo len then { x.2 with res := none } else x.2)) }

/-- Translations invalidated in every TLB of a partition, with the translation registers they filled (R336). -/
def State.shoot (s : State) (part : Nat) (ctxs : List Nat) (lo len : Nat) : State :=
  let s := s.mapCores (fun _ c => { c with tlb := c.tlb.filter (fun e => !(e.hit part ctxs lo len)) })
  let s := s.mapSlats (fun t => if ctxs.contains t.ctx then t.unresolve lo len else t)
  { s with dieTlb := s.dieTlb.map (fun d => (d.1, d.2.filter (fun e => !(e.hit part ctxs lo len)))) }

/-- The pages whose translations an invalidation clears, in TLBs and translation registers: context, address, size. -/
def State.cleared (s : State) (part : Nat) (ctxs : List Nat) (lo len : Nat) : List (Nat × Nat × Nat) :=
  let tlbs := (s.cores.map (fun c => c.2.tlb)).flatten ++ (s.dieTlb.map Prod.snd).flatten
  (tlbs.filter (fun e => e.hit part ctxs lo len)).map (fun e => (e.ctx, e.va, e.size))
    ++ ((s.slats.filter (fun t => ctxs.contains t.ctx)).map (fun t => (t.b.filter (fun x => x.2.hit lo len)).filterMap (fun x =>
      x.2.res.map (fun r => (t.ctx, r.page, r.size))))).flatten

/-- Entries formed through a translation that an invalidation clears and that have not left their path queue (R106, R336). -/
def State.formed (s : State) (part : Nat) (ctxs : List Nat) (lo len : Nat) : List (Nat × Nat) :=
  let pages := s.cleared part ctxs lo len
  ((s.slats.filter (fun t => ctxs.contains t.ctx)).map (fun t =>
    (t.queue.filter (fun e => e.lanes.any (fun x => x.st != .sent && (match x.loc with
      | .glob va (some _) => len == 0 || (decide (lo ≤ va.toNat) && decide (va.toNat < lo + len))
          || pages.any (fun p => p.1 == t.ctx && decide (p.2.1 ≤ va.toNat) && decide (va.toNat < p.2.1 + p.2.2))
      | _ => false)))).map (fun e => (t.uid, e.seq)))).flatten

/-- Entries that are still in their path queues. -/
def State.stillQueued (s : State) (es : List (Nat × Nat)) : List (Nat × Nat) :=
  es.filter (fun e => ((s.slat? e.1).bind (fun t => t.qent? e.2)).elim false (fun q => q.lanes.any (fun x => x.st != .sent)))

/-- The contexts that a tlbi or an MM command names (R336, R362), ended ones too, whose translations TLBs may still hold. -/
def State.ctxsNamed (s : State) (fn : Nat) (all : Bool) (ctx : Nat) : List Nat :=
  (s.hub.contexts.filter (fun c => c.fn == fn && (all || c.ctx == ctx))).map Context.ctx
    ++ (s.hub.ended.filter (fun c => c.2 == fn && (all || c.1 == ctx))).map Prod.fst

/-- TLBI (R336): supervisor level. -/
def execTlbi (o : YOp) (s : State) : Out :=
  scaCtr s o.h (ctrOf o.ctr) [.s o.sA, .s o.sB] (fun t u =>
    let all := o.imm.getLsbD 16
    let ctx := natField o.imm.toNat 15 0
    if t.level = 0 then s.refusePriv t u
    else if !all && (s.context? ctx).elim false (fun c => c.fn != t.fn) then s.refuse15 t u 0x15
    else
      let ctxs := s.ctxsNamed t.fn all ctx
      let lo := (t.sget o.sA.toNat).toNat
      let len := (t.sget o.sB.toNat).toNat
      let olds := s.formed t.part ctxs lo len
      let s1 := s.shoot t.part ctxs lo len
      match s1.slat? t.uid with
      | some t1 => s1.openJob t1 u (ctrOf o.ctr) false (.tlbi olds)
      | none => s1)

/-- A job with another kind. -/
def State.setJobKind (s : State) (j : Job) (k : JobKind) : State :=
  s.modHub (fun h => { h with jobs := replaceBy Job.id { j with kind := k } h.jobs })

/-- A job's result register written, and the job over. -/
def State.jobResult (s : State) (j : Job) (dst : Nat) (x : W64) : State :=
  (s.modSlat j.uid (fun t => t.sput dst x false)).closeJob j [(dst, x.toNat, 0#32)] none

/-- An item put into a queue, if it has room (R333); it waits for a slot that cannot be written. (Log 42: DEDUCED.) -/
def State.jobEnq (s : State) (j : Job) (q : Nat) (item : List W64) (dst : Nat) : State :=
  if !(s.queue q).room then s.jobResult j dst 0#64
  else s.enqueueOr q (recordBytes item) (fun s => s.jobResult j dst 1#64)

/-- A hub read that a slat's instruction makes, with the fates of a load (R334): its bytes, or the state in which its fault stands. -/
def State.jobRead (s : State) (j : Job) (t : Slat) (va : W64) (n : Nat) : Except State (List Byte × State) :=
  let ws := s.walksFor t.core t.ctx t.part [va]
  if !(s.hubOk true ws) then .error (s.hubAsk true t.fn t.part ws)
  else
    let (f, s) := s.check t.core t.ctx t.part t.level Need.load va
    let s := s.hubFree true ws
    let wait := fun (s : State) (kind why page size : Nat) (e : W64) (link : Nat) =>
      match s.serve t kind 0 page size va 0#32 e link with
      | (some tok, s) => s.modHub (fun h => { h with jobs := replaceBy Job.id { j with tok := some (tok, why) } h.jobs })
      | (none, s) => s.failJob j (j.cause 5 why)
    match f.again j.regen va with
    | .ok pa p =>
      let ls := linesOf (addrs pa n)
      if p.mail then .ok ((List.range n).map (fun i => s.agentByte (pa + i)), s)
      else match ls.findSome? s.stalled with
        | some (link, why) => let (page, size) := s.pageOf t.core t.ctx t.part va
                              .error (wait s 3 why page size 0 link)
        | none => if s.hubOk true ls then .ok (s.hubRead pa n, s.hubFree true ls) else .error (s.hubAsk true t.fn t.part ls)
    | .sync code reason => .error (s.failJob j (j.cause code reason))
    | .served kind why page size e => .error (wait s kind why page size e 0)

/-- A checked child record entered, or the slat parked while the table is full (R334). -/
def State.jobRoom (s : State) (j : Job) (t : Slat) (r : LaunchRec) (dst : Nat) : State :=
  if Config.maxGrids ≤ s.hub.grids.length then
    (s.setJobKind j (.room r dst)).modSlat t.uid (fun t => if t.park = .none then { t with park := .room } else t)
  else
    let (id, s) := s.fresh
    let g := s.grid? t.grid
    let s := s.enterGrid id ⟨t.ctx, t.fn, t.part, t.level == 1, true⟩ r none (some (t.grid, t.team)) (g.elim 0 Grid.prio) (g.elim 0 Grid.depth + 1) none
    let s := s.jobResult j dst (BitVec.ofNat 64 id)
    s.modSlat t.uid (fun t => if t.park = .room then { t with park := .none } else t)

/-- A child's record read, checked and entered (R334). -/
def State.jobLnch (s : State) (j : Job) (t : Slat) (addr : W64) (dst : Nat) : State :=
  if addr.toNat % 64 ≠ 0 then s.failJob j (j.cause 4 1)
  else match s.jobRead j t addr 64 with
    | .error s => s
    | .ok (b, s) =>
      let two := decide (1 < natField (dword b 0).toNat 59 56)
      match (if two then s.jobRead j t (addr + 64#64) 64 else .ok ([], s)) with
      | .error s => s
      | .ok (a, s) =>
        let r := LaunchRec.ofBytes b a
        let level := if r.sup then 1 else 0
        if !(s.recReady t.ctx t.part level r) then s.recWant t.fn t.ctx t.part level r
        else
          let looked := State.recOver s s t.ctx t.part level r
          match s.recordError ⟨t.ctx, t.fn, t.part, t.level == 1, true⟩ b a with
          | some k => looked.failJob j (boundsF j.cid j.ent k)
          | none => if s.depErr t.ctx t.part level r then looked.failJob j (boundsF j.cid j.ent 9) else looked.jobRoom j t r dst

/-- An invalidation complete: every entry formed through what it cleared has left its path queue (R336). -/
def State.jobTlbi (s : State) (j : Job) (olds : List (Nat × Nat)) : State :=
  let left := s.stillQueued olds
  if left.isEmpty then s.endJob j else s.setJobKind j (.tlbi left)

end Sys2Proof.Machine
end

