-- ==== Sys2Proof/Machine/Queues.lean ====
section
/-! DEFINITION. Hardware queues as their registers drive them, and held records (R308 to R311, R328). -/

namespace Sys2Proof.Machine

/-- The register space answers (R366, R391): the device is ready and no reset of the function runs. -/
def State.open_ (s : State) (fn : Nat) : Bool := s.boot.ready && !(s.fn fn).busy

/-- A queue's registers as a function's space reaches them (R308). -/
def State.queueReach (s : State) (fn q : Nat) : Bool := s.open_ fn && decide (q < 1024) && (fn == 0 || (s.queue q).fn == fn)

/-- The effective priority of a queue (R308). -/
def Queue.eff (q : Queue) : Nat := min q.prio q.cap

/-- The writable fields of QCTL (R308): phys says that the physical function writes. -/
def Queue.setCtl (q : Queue) (phys : Bool) (v : W64) : Queue :=
  let n := v.toNat
  let idle := q.st == 0
  { q with
    ctx := if phys then natField n 63 48 else q.ctx
    fn := if phys then natField n 47 43 else q.fn
    cap := if phys then natField n 42 40 else q.cap
    prio := natField n 39 37
    lsize := if idle then natField n 36 32 else q.lsize
    kind := if idle then natField n 31 30 else q.kind
    dev := if idle then n.testBit 29 else q.dev
    sup := if phys then n.testBit 28 else q.sup
    vec := natField n 27 18 }

/-- The configuration of a queue can be enabled (R309). -/
def Queue.valid (q : Queue) : Bool :=
  decide (4 ≤ q.lsize) && decide (q.lsize ≤ 16) && q.base.toNat % (64 * 2 ^ q.lsize) == 0 && q.kind != 3

/-- A queue's interrupt (R309, R360). -/
def State.queueIrq (s : State) (n : Nat) : State := s.irq (s.queue n).fn (s.queue n).vec

/-- Items of a queue handed to its waiters (R333). -/
def State.serveAll (s : State) (n : Nat) : State := s.serveDeq n (s.queue n).waiters.length

/-- Every queue whose waiters may be served: a slot that could not be read may have become readable (R311). -/
def State.serveQueues (s : State) : State := s.hub.queues.foldl (fun (s : State) q => s.serveAll q.1) s

/-- A queue's entry to Fault with a record's error code (R309, R314). -/
def State.queueFault (s : State) (n code : Nat) : State := (s.modQueue n (fun q => { q with st := 4, err := code })).queueIrq n

/-- QUEUE_ENABLE (R309): QCTL written with cmd 01. No queue of a function that is not enabled can be enabled (R360). -/
def execQueueEnable (fn q : Nat) (v : W64) (s : State) : Out :=
  .next (if !(s.queueReach fn q) then s
    else
      let s := s.modQueue q (fun x => x.setCtl (fn == 0) v)
      let x := s.queue q
      match x.st with
      | 0 =>
        if (s.fn x.fn).en && x.valid then (s.modQueue q (fun x => { x with st := 1, err := 0 })).serveAll q
        else
          let s := s.modQueue q (fun x => { x with err := 0xF })
          if (s.fn x.fn).en then s.queueIrq q else s
      | 3 => s
      | 1 => s
      | _ => if (s.fn x.fn).en then (s.modQueue q (fun x => { x with st := 1, err := 0, met := [] })).serveAll q else s)

/-- QUEUE_PAUSE (R309): QCTL written with cmd 10. -/
def execQueuePause (fn q : Nat) (v : W64) (s : State) : Out :=
  .next (if !(s.queueReach fn q) then s
    else s.modQueue q (fun x => let x := x.setCtl (fn == 0) v
                                if x.st = 1 then { x with st := 2 } else x))

/-- QUEUE_RESET (R309): QCTL written with cmd 11. -/
def execQueueReset (fn q : Nat) (v : W64) (s : State) : Out :=
  .next (if !(s.queueReach fn q) then s
    else s.modQueue q (fun x => { x.setCtl (fn == 0) v with st := 0, rp := 0, wp := 0, err := 0, met := [] }))

/-- QWP_WRITE (R310): slots published, or the queue enters Overrun and reads no slot. -/
def execQwpWrite (fn q : Nat) (v : W64) (s : State) : Out :=
  .next (if !(s.queueReach fn q) || ((s.queue q).dev && (s.queue q).kind == 1) then s
    else
      let x := s.queue q
      let wp := natField v.toNat 31 0
      let lap := decide (2 ^ x.lsize < (wp + 2 ^ 32 - x.rp) % 2 ^ 32)
      if lap && (x.st == 1 || x.st == 2 || x.st == 4) then (s.modQueue q (fun x => { x with wp := wp, st := 3, err := 0 })).queueIrq q
      else (s.modQueue q (fun x => { x with wp := wp })).serveAll q)

/-- A held record written once a queue can take it; then what it was held by forgets it. -/
def State.postHeld (s : State) (fn : Nat) (ds : List W64) (done : State → State) : State :=
  match (s.faultQueue fn).2 with
  | some q => s.enqueueOr q (recordBytes ds) done
  | none => s

/-- FAULT_RECORD_WRITE (R328): the function's oldest held record, a fault's before a kill's, written once a queue can take it. -/
def execFaultRecordWrite (fn : Nat) (s : State) : Out :=
  .next (match s.hub.faults.find? (fun f => f.fn == fn && f.held.isSome) with
    | some f => s.postHeld fn (f.held.getD []) (fun s =>
        s.modHub (fun h => { h with faults := h.faults.map (fun x => if x.token = f.token then { x with held := none } else x) }))
    | none => match s.hub.kills.find? (fun k => k.1 == fn) with
      | some k => s.postHeld fn k.2 (fun s => s.modHub (fun h => { h with kills := h.kills.erase k }))
      | none => s)

/-- FAULT_RESOLVE (R329): a settle write with action 1 at offset 0x40A0. -/
def execFaultResolve (fn token : Nat) (s : State) : Out :=
  .next (if s.open_ fn then (s.settleFault fn (token % 2 ^ 32) 1).serveQueues else s)

/-- FAULT_REFER_BACK (R329): a settle write with action 2. -/
def execFaultReferBack (fn token : Nat) (s : State) : Out :=
  .next (if s.open_ fn then s.settleFault fn (token % 2 ^ 32) 2 else s)

end Sys2Proof.Machine
end

