-- ==== Sys2Proof/Machine/Launch.lean ====
section
/-! DEFINITION. The launcher: records taken, teams placed, cores started, grids retired (R312 to R322). -/

namespace Sys2Proof.Machine

/-- Everything of a slat is over: it has ended and holds no entry (R117, R318). -/
def State.slatOver (s : State) (t : Slat) : Bool :=
  t.ended && t.queue.isEmpty && !((s.window t.core).any (fun r => r.uid == t.uid && !r.settles)) && !(s.home.copies.any (fun c => c.uid == t.uid))
    && !(s.home.starts.any (fun r => r.uid == t.uid))
    && !((s.core t.core).eng.any (fun j => j.uid == t.uid))

/-- A team is over: every slat is, and no image of it is outstanding (R318, R339). -/
def State.teamOver (s : State) (m : Team) : Bool := !m.saved && (s.teamSlats m.uid).all s.slatOver

/-- Ranges of a resource that a core's teams hold, as (base, size). -/
def usedBy (size : Team → Nat) (base : Nat × Nat × Nat → Nat) (core : Nat) (ms : List Team) : List (Nat × Nat) :=
  (ms.map (fun m => (m.cores.filter (fun c => c.1 == core)).map (fun c => (base c, size m)))).flatten

/-- The lowest base at which a size fits among used ranges. -/
def firstFit (used : List (Nat × Nat)) (size cap : Nat) : Option Nat :=
  let ok := fun (b : Nat) => decide (b + size ≤ cap) && used.all (fun u => decide (u.1 + u.2 ≤ b) || decide (b + size ≤ u.1))
  if size = 0 then some 0
  else ((0 :: used.map (fun u => u.1 + u.2)).filter ok).foldl (fun (a : Option Nat) b => some (a.elim b (fun x => min x b))) none

/-- Scratchpad bytes as they are allocated: units of 1024 (R319). -/
def spadUnits (n : Nat) : Nat := (n + 1023) / 1024 * 1024

/-- Slots of a core in rotation over the quadrants (R319). -/
def slotOrder : List Nat := (List.range 64).map (fun k => k % 4 * 16 + k / 4)

/-- Room on a core for some slats, a share and a window: the slots, the share's base, the window's base (R319); a slat that is over has
released its slot (R117). -/
def State.seatRoom (s : State) (core n spad tiles : Nat) : Option (List Nat × Nat × Nat) :=
  let ms := s.teams.filter (fun m => m.cores.any (fun c => c.1 == core) && !(s.teamOver m))
  let used := (s.slats.filter (fun t => t.core == core && ms.any (fun m => m.uid == t.team) && !(s.slatOver t))).map Slat.slot
  let slots := (slotOrder.filter (fun k => !(used.contains k))).take n
  if slots.length < n then none
  else match firstFit (usedBy (fun m => spadUnits m.spad) (fun c => c.2.1) core ms) (spadUnits spad) Config.spadBytes,
      firstFit (usedBy Team.tiles (fun c => c.2.2) core ms) tiles Config.nTiles with
    | some a, some b => some (slots, a, b)
    | _, _ => none

/-- A run of c adjacent cores of one row of an enabled die of a partition (R15, R319). -/
def State.runOk (s : State) (part first c : Nat) : Bool :=
  decide (first < Config.nCores) && decide (first % 16 + c ≤ 16) && decide (0 < c) && s.boot.dies.testBit (first / 160)
    && partOfDie s.trust.layout (first / 160) == part

/-- The seats of a team of n slats on the run, by rank: none where a core has no room. -/
def State.seats (s : State) (part first c n spad tiles : Nat) : Option (List (List Nat × Nat × Nat)) :=
  if !(s.runOk part first c) then none
  else
    let xs := (List.range c).map (fun r => s.seatRoom (first + r) (rankSlats n c r) spad tiles)
    if xs.any Option.isNone then none else some (xs.filterMap id)

/-- A core made ready for a team's rank: its share holds the image's bytes and zeros, its tiles are zero (R39, R101); of an image longer than
the share, the bytes that fit. (Log 81: DESIGN CHOICE.) -/
def Core.prepare (c : Core) (base spad tbase tiles : Nat) (img : List Byte) : Core :=
  { c with
    spad := Memory.writeAll (c.spad.filter (fun b => decide (b.1 < base) || decide (base + spadUnits spad ≤ b.1))) base (img.take spad)
    spadMark := c.spadMark.filter (fun m => decide (4 * m.1 < base) || decide (base + spadUnits spad ≤ 4 * m.1))
    tiles := c.tiles.filter (fun t => decide (t.1 < tbase) || decide (tbase + tiles ≤ t.1)) }

/-- The scratchpad image of an entry that a loaded image records, empty for any other (R39, R381); of several loaded images that record it, the
first's. (Log 81: DESIGN CHOICE.) -/
def State.sdataFor (s : State) (ctx : Nat) (entry : W64) : List Byte :=
  (((s.context? ctx).bind (fun c => c.images.find? (fun i => i.entries.contains entry.toNat))).map Image.sdata).getD []

/-- The base that a grid's program counters count from, the bytes of its text segment where an image's holds the entry, and the entry's word
address (R38). (Log 82: DESIGN CHOICE.) -/
def State.textOf (s : State) (ctx : Nat) (entry : W64) : W64 × Option Nat × W64 :=
  let texts := (s.context? ctx).elim [] (fun c => (c.images.map Image.texts).flatten)
  match texts.find? (fun x => decide (x.1 ≤ entry.toNat) && decide (entry.toNat < x.1 + x.2)) with
  | some (a, n) => (BitVec.ofNat 64 a, some n, BitVec.ofNat 64 ((entry.toNat - a) / 8))
  | none => (entry, none, 0#64)

/-- What a placement adds: a team's shape and place. -/
structure TeamSeat where
  idx : Nat
  first : Nat
  c : Nat
  deriving DecidableEq, Repr

/-- A team placed on a run that has room (R319); none where it has none. -/
def State.placeTeam (s : State) (g : Grid) (w : TeamSeat) : Option State :=
  let r := g.launch
  match s.seats g.part w.first w.c r.slats r.spad r.tiles with
  | none => none
  | some seats =>
    let (uid, s) := s.fresh
    let (text, tlen, pc) := s.textOf g.ctx r.entry
    let img := s.sdataFor g.ctx r.entry
    let cores := (seats.zipIdx).map (fun x => (w.first + x.2, x.1.2.1, x.1.2.2))
    let slots := (seats.map (fun x => x.1)).flatten
    let m : Team :=
      { uid := uid, grid := g.id, idx := w.idx, fn := g.fn, ctx := g.ctx, part := g.part, level := g.level, slats := r.slats, spad := r.spad,
        tiles := r.tiles, cores := cores, gang := r.gang, grank := if r.gang = 0 then 0 else w.idx % r.gang, arrived := [], bars := 0, aband := false,
        kslat := 0, kcause := 0, killedAt := none, saved := false }
    let ts := (slots.zipIdx).map (fun k =>
      Slat.start ⟨s.next + k.2, w.first + slatRank r.slats w.c k.2, k.1, uid, k.2⟩ g text tlen pc)
    let s := cores.foldl (fun (s : State) c => s.modCore c.1 (fun k => k.prepare c.2.1 r.spad c.2.2 r.tiles img)) s
    some { s with next := s.next + ts.length, teams := s.teams ++ [m], slats := s.slats ++ ts }

/-- The teams of a grid that its next placement step places (R317, R320, R321). -/
def Grid.unit (g : Grid) : List Nat :=
  let n := if g.launch.persist then g.launch.teams - g.nextTeam else if g.launch.gang = 0 then 1 else g.launch.gang
  (List.range n).map (fun i => g.nextTeam + i)

/-- Consecutive core numbers of one die for each gang of a step (R320). -/
def gangOk (g : Nat) (ws : List TeamSeat) : Bool :=
  g == 0 || ws.all (fun w => w.idx % g == 0 || ws.any (fun x => x.idx + 1 == w.idx && x.first + x.c == w.first && x.first / 160 == w.first / 160))

/-- The core count of a grid's next team (R319): of those it may have, the least for which some run has room. -/
def State.coresFor (s : State) (g : Grid) : Option Nat :=
  g.launch.counts.find? (fun c => (List.range Config.nCores).any (fun f => (s.seats g.part f c g.launch.slats g.launch.spad g.launch.tiles).isSome))

/-- Teams placed one after another at given cores, each of its own core count: every team or none (R317, R319). The state, and where they
stand. -/
def State.placeAll (s : State) (g : Grid) : List (Nat × Nat) → Option (State × List TeamSeat)
  | [] => some (s, [])
  | w :: ws => match s.coresFor g with
    | none => none
    | some c => match s.placeTeam g ⟨w.1, w.2, c⟩ with
      | none => none
      | some s => (s.placeAll g ws).map (fun x => (x.1, ⟨w.1, w.2, c⟩ :: x.2))

/-- Teams placed one after another on consecutive cores of one die (R320). -/
def State.placeGang (s : State) (g : Grid) (die : Nat) : Nat → List Nat → Option State
  | _, [] => some s
  | f, i :: is => match s.coresFor g with
    | none => none
    | some c => if f / Config.coresPerDie ≠ die then none
      else match s.placeTeam g ⟨i, f, c⟩ with
        | none => none
        | some s => s.placeGang g die (f + c) is

/-- Teams placed one gang after another at the lowest core that has room for each: a step that exists, where this search finds one. (Log 41:
DEDUCED.) -/
def State.search (s : State) (g : Grid) : Nat → List Nat → Option State
  | _, [] => some s
  | 0, _ => none
  | fuel + 1, is =>
    match (List.range Config.nCores).findSome? (fun f => s.placeGang g (f / Config.coresPerDie) f (is.take (max g.launch.gang 1))) with
    | none => none
    | some s => s.search g fuel (is.drop (max g.launch.gang 1))

/-- The step that a grid's placement takes next exists. -/
def State.fits (s : State) (g : Grid) : Bool := (s.search g g.unit.length g.unit).isSome

/-- A grid of which teams are still to be placed, its dependences met; one that no queue's record became is refused where a clamp of them has
err set (R316, R317). -/
def State.placeable (s : State) (g : Grid) : Bool :=
  !g.dead && decide (g.nextTeam < g.launch.teams)
    && (g.queue.isSome || (!(g.nextTeam == 0 && s.depErr g.ctx g.part g.level g.launch) && s.depsMet g.ctx g.part g.level g.launch g.met))

/-- The order of placement between grids (R317). -/
def Grid.ahead (a b : Grid) : Bool := decide (b.prio < a.prio) || (a.prio == b.prio && (decide (a.since < b.since) || (a.since == b.since && decide (a.id < b.id))))

/-- Whether another grid of the partition holds back a grid's placement: it is ahead and fits (R317), or it is persistent, of this one's
priority or above, and waits for room (R321); a persistent one that this one is ahead of does not hold it back where it fits or this one is
persistent too. (Log 83: DEDUCED.) -/
def State.holdsBack (s : State) (g h : Grid) : Bool :=
  (h.ahead g && s.fits h) || (h.launch.persist && decide (g.prio ≤ h.prio) && !(g.ahead h && (g.launch.persist || s.fits h)))

/-- A grid that may be placed now as far as the others go. -/
def State.mayPlace (s : State) (g : Grid) : Bool :=
  s.hub.grids.all (fun h => h.id == g.id || h.part != g.part || !(s.placeable h) || !(s.holdsBack g h))

/-- The cores that a placement step starts begin 4 cycles apart, in ascending number (R322). -/
def State.startCores (s : State) (old : State) (cores : List Nat) : State :=
  let idle := (cores.eraseDups.filter (fun c => !(old.slats.any (fun t => t.core == c && !t.ended)))).mergeSort (fun a b => decide (a ≤ b))
  (idle.zipIdx).foldl (fun (s : State) c => s.modCore c.1 (fun k => { k with startAt := s.now + 4 * c.2, started := c.2 == 0 })) s

/-- A step that looks at the clamps of a grid which no queue's record became: taken once they can be looked at. -/
def State.gridLook (s : State) (g : Grid) (f : State → State) : State :=
  if g.queue.isSome ∨ g.nextTeam ≠ 0 ∨ g.launch.deps.isEmpty then f s
  else if s.recReady g.ctx g.part g.level g.launch then State.recOver s (f s) g.ctx g.part g.level g.launch
  else s.recWant g.fn g.ctx g.part g.level g.launch

/-- The next team, gang or persistent grid placed on runs that begin at the given cores. -/
def State.placeStep (s : State) (g : Grid) (firsts : List Nat) : State :=
  if !(s.placeable g) || !(s.mayPlace g) || firsts.length != g.unit.length then s
  else match s.placeAll g (g.unit.zip firsts) with
    | none => s
    | some (s1, ws) =>
      if !(gangOk g.launch.gang ws) then s
      else
        let cores := (ws.map (fun w => (List.range w.c).map (fun i => w.first + i))).flatten
        let s1 := if g.launch.deps.isEmpty then s1 else cores.foldl (fun (s : State) c => s.modCore c Core.dropAllClean) s1
        (s1.startCores s cores).modGrid g.id (fun g => { g with nextTeam := g.nextTeam + firsts.length })

/-- TEAM_PLACEMENT (R317 to R322). -/
def execTeamPlacement (grid : Nat) (firsts : List Nat) (s : State) : Out :=
  .next (match s.grid? grid with
    | none => s
    | some g => s.gridLook g (fun s => s.placeStep g firsts))

/-- CORE_START (R322). -/
def execCoreStart (core : Nat) (s : State) : Out :=
  .next (if (s.core core).started = false ∧ (s.core core).startAt ≤ s.now then s.modCore core (fun c => { c with started := true }) else s)

/-- Where a launch queue stands in the rotation of its priority (R315). (Log 41: DEDUCED.) -/
def State.turnOf (s : State) (n prio : Nat) : Nat :=
  match s.hub.served.find? (fun x => x.1 == prio) with
  | some (_, last) => (n + 1024 - (last + 1)) % 1024
  | none => n

/-- What the launcher finds at a queue's head: nothing that can be taken yet, an error, or a record with its number of slots. -/
inductive Head where
  | wait
  | bad (code : Nat)
  | ready (r : LaunchRec) (slots : Nat)
  deriving DecidableEq, Repr

/-- The record at a queue's head (R311, R314 to R316). -/
def State.headOf (s : State) (q : Queue) : Head :=
  match s.headSlots q with
  | none => .wait
  | some (b, a, k) => match s.slotsError (s.queueBy q) b a with
    | some c => .bad c
    | none =>
      let r := LaunchRec.ofBytes (b.getD []) (a.getD [])
      let level := if r.sup then 1 else 0
      let part := s.ctxPart q.ctx
      if s.depErr q.ctx part level r then .bad 9
      else if s.depsMet q.ctx part level r q.met && decide (s.hub.grids.length < Config.maxGrids) then .ready r k
      else .wait

/-- The places that a launch queue's head stands at: nothing where no whole record can be published (R311). -/
def State.headAt (s : State) (q : Queue) : List HubAt :=
  let n := (q.wp + 2 ^ 32 - q.rp) % 2 ^ 32
  if q.st ≠ 1 ∨ q.kind ≠ 0 ∨ n = 0 then []
  else s.slotAt q q.rp false :: if n < 2 then [] else [s.slotAt q (q.rp + 1) false]

/-- The record at a queue's head, as far as it can be read. -/
def State.headRec (s : State) (q : Queue) : Option LaunchRec :=
  match s.headSlots q with
  | some (some b, a, _) => some (LaunchRec.ofBytes b (a.getD []))
  | _ => none

/-- A launch queue's head and the clamps of its record can be looked at (R18, R316). -/
def State.headReady (s : State) (q : Queue) : Bool :=
  s.hubReady (s.headAt q) && (s.headRec q).elim true (fun r => s.recReady q.ctx (s.ctxPart q.ctx) (if r.sup then 1 else 0) r)

/-- What they wait for asked for. -/
def State.headWant (s : State) (q : Queue) : State :=
  if !(s.hubReady (s.headAt q)) then s.hubWant q.fn (s.headAt q)
  else (s.headRec q).elim s (fun r => s.recWant q.fn q.ctx (s.ctxPart q.ctx) (if r.sup then 1 else 0) r)

/-- The look at every queue's head is over. -/
def State.headsOver (s0 s : State) : State :=
  s0.hub.queues.foldl (fun (s : State) q =>
    let s := State.hubOver s0 s (s0.headAt q.2)
    (s0.headRec q.2).elim s (fun r => State.recOver s0 s q.2.ctx (s0.ctxPart q.2.ctx) (if r.sup then 1 else 0) r)) s

/-- A record taken, the heads at hand (R315). -/
def State.takeRecord (s : State) : State :=
  let heads := (s.hub.queues.map (fun q => (q.1, q.2, s.headOf q.2))).filter (fun x => x.2.2 != .wait)
  let first := fun (a b : Nat × Queue × Head) =>
    decide (b.2.1.eff < a.2.1.eff) || (a.2.1.eff == b.2.1.eff && decide (s.turnOf a.1 a.2.1.eff ≤ s.turnOf b.1 b.2.1.eff))
  match (heads.mergeSort first).head? with
  | none => s
  | some (n, q, h) => match h with
    | .wait => s
    | .bad k => s.queueFault n k
    | .ready r k =>
      let (id, s) := s.fresh
      let s := s.enterGrid id (s.queueBy q) r (some n) none q.eff 0 none
      (s.modQueue n (fun q => { q with rp := (q.rp + k) % 2 ^ 32, met := [] })).modHub (fun h => { h with served := sput h.served q.eff n })

/-- LAUNCH_RECORD_TAKE (R315): of the queues whose head is not waiting, the one of highest priority, in rotation. A refused record
puts its queue into Fault. A head that cannot be looked at yet is asked for. -/
def execLaunchRecordTake (s : State) : Out :=
  .next (match s.hub.queues.find? (fun q => !(s.headReady q.2)) with
    | some (_, q) => s.headWant q
    | none => State.headsOver s s.takeRecord)

/-- The slats of a grid. -/
def State.gridSlats (s : State) (g : Nat) : List Slat := s.slats.filter (fun t => t.grid == g)

/-- Records of a grid's accumulated lines that its last release still has to drain (R96, R318). -/
def State.gridRecs (s : State) (g : Nat) : List (Nat × DeltaRec) :=
  ((s.gridSlats g).map (fun t => ((s.core t.core).recs.filter (fun r => t.accd.contains r.line && (r.draining || !r.delta.isEmpty || r.gauge != 0#32))).map
    (fun r => (t.core, r)))).flatten

/-- Every team of a grid is placed and over, or the grid is dead and what was placed is; its children have retired (R318). -/
def State.gridOver (s : State) (g : Grid) : Bool :=
  (g.dead || decide (g.launch.teams ≤ g.nextTeam)) && (s.teams.filter (fun m => m.grid == g.id)).all s.teamOver
    && !(s.hub.grids.any (fun h => h.parent.map Prod.fst == some g.id))

/-- A grid gone with its teams and slats. -/
def State.freeGrid (s : State) (g : Grid) : State :=
  let s : State := { s with teams := s.teams.filter (fun m => m.grid != g.id), slats := s.slats.filter (fun t => t.grid != g.id) }
  (s.modHub (fun h => { h with
    grids := h.grids.filter (fun x => x.id != g.id)
    retired := match g.parent with
      | some (_, team) => h.retired ++ [(g.id, team)]
      | none => h.retired })).wakeCwait

/-- A grid's done arrival, then what follows it (R318), once the lines of its walk, and the clamp's, are ready; a clamp that cannot be reached
any more gets none. -/
def State.gridDone (s : State) (g : Grid) (f : State → State) : State :=
  if g.launch.done = 0 ∨ g.dead then f s
  else s.hubStep true g.fn g.part (s.hubWalks g.ctx g.part g.launch.done 16) (fun s =>
    match s.hubCheck g.ctx g.part g.level ⟨false, true, false, some 8⟩ g.launch.done with
    | .ok pa _ => s.hubStep false g.fn g.part [lineOf pa] (fun s => f (s.clampDo (.mem pa) .arrive g.fn 0 0))
    | _ => f s)

/-- A grid's vector raised where it asks for it, its entry freed; a regeneration's fault is resolved (R167, R318). -/
def State.gridFree (s : State) (g : Grid) : State :=
  let s := match g.queue with
    | some q => if g.launch.irq then s.queueIrq q else s
    | none => s
  let s := s.freeGrid g
  (match g.token with
  | some k => s.resolve k
  | none => s).regenWaiting

/-- A grid whose dependence clamp has err set given up (R316, code 9 of R314). -/
def State.gridRefused (s : State) (g : Grid) : State :=
  let s := s.freeGrid g
  (match g.token with
  | some k => s.referBack k
  | none => s).regenWaiting

/-- GRID_RETIRE (R318): the release's drains, the done arrival, the vector, the entry freed. A grid whose dependence clamp has failed is given
up. -/
def execGridRetire (grid : Nat) (s : State) : Out :=
  .next (match s.grid? grid with
    | none => s
    | some g => s.gridLook g (fun s =>
      if g.queue.isNone && g.nextTeam == 0 && s.depErr g.ctx g.part g.level g.launch then s.gridRefused g
      else if !(s.gridOver g) then s
      else
        let rs := s.gridRecs grid
        if !rs.isEmpty then (rs.filter (fun r => !r.2.draining)).foldl (fun (s : State) r => s.sendDrain r.1 r.2) s
        else s.gridDone g (fun s => s.gridFree g)))

end Sys2Proof.Machine
end

