-- ==== Sys2Proof/Machine/Paths.lean ====
section
/-! DEFINITION. Entries leaving their path queues, and the hold window's head exiting (R82, R85). -/

namespace Sys2Proof.Machine

/-- The addresses that an entry that leaves has translated: of its lanes, its ranges' pages, its descriptor, its words. -/
def State.entVas (s : State) (t : Slat) (e : QEnt) : List W64 :=
  e.lanes.filterMap (fun x => if x.st == .queued then (match x.loc with
    | .glob va none => some va
    | _ => none) else none)
    ++ (e.op.ranges.map (fun r => s.pageVas t.ctx t.part r.1 r.2)).flatten
    ++ (match e.op with
      | .bnd addr _ => [addr]
      | .engine j => s.jobVas t j
      | _ => [])

/-- What an entry does as it leaves. -/
def State.leaveEnt (s : State) (t : Slat) (e : QEnt) : State :=
  match e.op with
  | .drn mode arg => s.leaveDrn t e mode arg
  | .grd dst => s.leaveGrd t e dst
  | .bnd addr num => s.leaveBnd t e addr num
  | .copy c => s.leaveCopy t e c
  | .engine j => s.leaveEngine t e j
  | .xfer x => s.leaveXfer t e x
  | .marker _ => s
  | _ => s.leaveLanes t e

/-- PATH_ENTRY_LEAVE (R82): an entry that may leave does what its operation says, once the lines that its walks read are ready (R158, R179). -/
def execPathEntryLeave (uid seq : Nat) (s : State) : Out :=
  .next (match s.slat? uid with
    | none => s
    | some t => match t.qent? seq with
      | none => s
      | some e =>
        let ws := s.walksFor t.core t.ctx t.part (s.entVas t e)
        if !(s.mayLeave t e) then s
        else if s.hubOk true ws then (s.leaveEnt t e).hubFree true ws
        else s.hubAsk true t.fn t.part ws)

/-- The lines that have to be fetched before a line is present at its home: itself, or for a destination line the sources that its home has
not (R17, R248). -/
def State.missing (s : State) (line : Nat) : List Nat :=
  if s.near line then []
  else match s.dstOf line with
    | some v => (v.deps line).filter (fun l => !(s.near l))
    | none => [line]

/-- Lanes that a request at its home has to read its line for, or to update it in place. -/
def State.reqLanes (s : State) (r : Req) : List Nat :=
  match r.msg with
  | .read _ ls _ => ls.map Prod.fst
  | .atomic _ _ _ _ ls => ls.map ALane.l
  | .own _ _ _ _ ls => ls.map ALane.l
  | .clamp _ _ => [0]
  | .prefetch => []
  | .write _ => []
  | _ => ((s.slat? r.uid).bind (fun t => t.qent? r.seq)).elim [] (fun e => (e.lanes.filter (fun x => x.st == .sent)).map Lane.l)

/-- A request at its home whose line a link in Swap or Retrain would have to bring: its lanes are logged where they are, and a record tells
of it (R187). (Log 58: DEDUCED.) -/
def State.logStall (s : State) (r : Req) : State :=
  if r.tgt ≠ .mem ∨ r.mail ∨ r.st ≠ .fresh then s
  else match s.stalled r.line, s.slat? r.uid with
    | some (n, why), some t => match t.qent? r.seq with
      | none => s
      | some e =>
        let ls := (s.reqLanes r).filter (fun l => !(t.log.any (fun x => x.seq == e.seq && x.lanes.getLsbD l)))
        let rs := (e.lanes.filter (fun x => x.st == .sent && ls.contains x.l)).map (fun x =>
          let va := match x.loc with
            | .glob va _ => va
            | _ => 0#64
          let (page, size) := s.pageOf t.core t.ctx t.part va
          (⟨x, 3, why, page, size, 0, n⟩ : Routed))
        if t.logFull then s else s.logLanes t.uid e e.op.ask.access rs
    | _, _ => s

/-- What has left a window begins, once what its core sent before is applied (R85): a copy when what it makes real is at hand (R254), a put or
contribution when its source lines are ready to be read (R298), which it asks for. The state, and whether it has begun. (Log 26: DEDUCED.) -/
def State.start (s : State) (r : Req) : State × Bool :=
  let gone := s.modHome (fun h => { h with starts := h.starts.filter (fun o => o.id != r.id) })
  if s.owed r.core r.id then (s, false)
  else match r.msg with
    | .copy id => if ((s.copy? id).elim [] s.collapseLines).all s.ripe then (gone.exitCopy id, true) else (s, false)
    | .xfer id =>
      if s.hubOk true (s.xferLines id) then ((gone.exitXfer id).hubFree true (s.xferLines id), true)
      else (s.hubAsk true r.fn r.part (s.xferLines id), false)
    | _ => (gone, true)

/-- What a message does as it exits (R85): a copy and a transfer begin, or wait to; a store to a peer's scratchpad is applied at its bank at
once where nothing older of the core is still to be applied; everything else reaches its home. -/
def State.exitMsg (s : State) (r : Req) : State :=
  let begin_ := (s.modHome (fun h => { h with starts := h.starts ++ [r] })).start r
  match r.msg, r.tgt with
  | .copy _, _ => begin_.1
  | .xfer _, _ => begin_.1
  | .write [], .spad _ => s
  | .write bs, .spad c =>
    if s.owed r.core r.id then s.modHome (fun h => { h with reqs := h.reqs ++ [r] })
    else s.bankWrite c bs
  | _, _ => s.modHome (fun h => { h with reqs := h.reqs ++ [r] })

/-- The head of a core's hold window exits, once 256 cycles have passed since it entered (R85). -/
def State.exitHead (s : State) (core : Nat) : State :=
  match (s.core core).hw with
  | [] => s
  | e :: rest => if s.now < e.since + Config.holdAge then s else (s.modCore core (fun c => { c with hw := rest })).exitMsg e.req

/-- HOLD_WINDOW_EXIT (R85): what has exited and waits to begin begins; where nothing can, the head exits. -/
def execHoldWindowExit (core : Nat) (s : State) : Out :=
  .next (match s.home.starts.find? (fun r => r.core == core) with
    | none => s.exitHead core
    | some r =>
      let (s, begun) := s.start r
      if begun then s else s.exitHead core)

end Sys2Proof.Machine
end

