-- ==== Sys2Proof/Machine/Image.lean ====
section
/-! DEFINITION. Context images: their layout, their protection, and what a body must satisfy (R342 to R345, R349). -/

namespace Sys2Proof.Machine

/-- Multiplication in GCM's field. -/
def gfMul (x y : W128) : W128 :=
  ((List.range 128).foldl (fun (a : W128 × W128) i =>
    (if x.getLsbD (127 - i) then a.1 ^^^ a.2 else a.1,
     if a.2.getLsbD 0 then (a.2 >>> 1) ^^^ (0xE1#128 <<< 120) else a.2 >>> 1)) (0#128, y)).1

/-- A string of bytes in blocks, the last padded with zeros; fuel bounds their number. -/
def blocks : Nat → List Byte → List W128
  | 0, _ => []
  | fuel + 1, bs => if bs.isEmpty then [] else beBlock bs :: blocks fuel (bs.drop 16)

/-- The hash of GCM over additional data and ciphertext. -/
def ghash (h : W128) (aad ct : List Byte) : W128 :=
  let len := BitVec.ofNat 128 (8 * aad.length * 2 ^ 64 + 8 * ct.length)
  (blocks aad.length aad ++ blocks ct.length ct ++ [len]).foldl (fun y x => gfMul (y ^^^ x) h) 0#128

/-- The counter block i of a 96-bit IV. -/
def gcmCtr (iv : List Byte) (i : Nat) : W128 := beBlock (iv.take 12 ++ [0#8, 0#8, 0#8, 0#8]) ||| BitVec.ofNat 128 (i % 2 ^ 32)

/-- The key stream over a text, from counter 2 on. -/
def gcmCrypt (key iv text : List Byte) : List Byte :=
  (((blocks text.length text).zipIdx).map (fun b => blockBytes (b.1 ^^^ aesBlock key (gcmCtr iv (b.2 + 2))))).flatten.take text.length

/-- The tag over additional data and ciphertext (R345). -/
def gcmTag (key iv aad ct : List Byte) : List Byte :=
  blockBytes (ghash (aesBlock key 0#128) aad ct ^^^ aesBlock key (gcmCtr iv 1))

/-- A list of bytes brought to a length: cut, or filled with zeros. -/
def padTo (n : Nat) (bs : List Byte) : List Byte := bs.take n ++ List.replicate (n - bs.length) 0#8

/-- Rounded up to 128. -/
def up128 (n : Nat) : Nat := (n + 127) / 128 * 128

/-- Dwords as bytes. -/
def dwords (ds : List Nat) : List Byte := (ds.map (leBytes 8)).flatten

/-- A join as the image codes it (R344). -/
def Join.code : Join → Nat
  | .entry n => n % 8
  | .deferred => 8
  | .none => 15

/-- The join of a code. -/
def Join.ofCode (n : Nat) : Join := if n < 8 then .entry n else if n = 8 then .deferred else .none

/-- A reconvergence address as the image codes it. -/
def rcvWord (r : Option W64) : Nat := (r.getD (-1#64)).toNat

/-- A park as the image codes it; a slat parked for room is never saved. -/
def Park.code : Park → Nat
  | .none => 0
  | .tbar => 1
  | .clmw => 2
  | .deq => 3
  | .cwait => 4
  | .xfen => 5
  | .room => 0

/-- The park of a code. -/
def Park.ofCode : Nat → Park
  | 1 => .tbar
  | 2 => .clmw
  | 3 => .deq
  | 4 => .cwait
  | 5 => .xfen
  | _ => .none

/-- The position at which a slat parked inside its clause goes on, with its entry (R344); 0 at a boundary. -/
def Slat.rpos (t : Slat) : Nat := t.issue.elim 0 (fun u => if u.pos < u.len then u.pos else 0)

/-- The lowest-numbered running entry. -/
def Slat.firstRun (t : Slat) : Nat := ((List.range 8).find? (fun k => (t.ent k).st == .running)).getD 0

/-- The entry that the state word names (R344). -/
def Slat.entNo (t : Slat) : Nat :=
  match t.issue with
  | some u => if t.rpos = 0 then t.firstRun else u.ent
  | none => t.firstRun

/-- An entry's pc in the image: the header of the clause that it is parked inside of. -/
def Slat.imagePc (t : Slat) (k : Nat) : W64 :=
  match t.issue with
  | some u => if u.ent = k ∧ t.rpos ≠ 0 then u.h else (t.ent k).pc
  | none => (t.ent k).pc

/-- The state code of a split entry. -/
def SplitSt.code : SplitSt → Nat
  | .free => 0
  | .running => 1
  | .waiting => 2

/-- A split entry's 32 bytes (R344). -/
def Slat.entBytes (t : Slat) (k : Nat) : List Byte :=
  let x := t.ent k
  dwords [(t.imagePc k).toNat, rcvWord x.rcv, x.pend.toNat * 2 ^ 32 + x.mask.toNat, x.st.code + x.join.code * 16]

/-- A deferral record's 32 bytes (R344). -/
def DefRec.bytes (r : DefRec) : List Byte :=
  dwords [r.fpc.toNat, rcvWord r.rcv, r.mask.toNat * 2 ^ 32 + r.fmask.toNat, r.phase + r.owner % 8 * 16 + r.join.code * 256]

/-- The virtual address of a lane. -/
def Lane.va (x : Lane) : W64 :=
  match x.loc with
  | .glob va _ => va
  | _ => 0#64

/-- A lane's data as the image holds it: up to 16 bytes (R165); a compare value stands below its new value where both fit. -/
def imageData (op : EOp) (x : Lane) : Nat :=
  let d := x.data.getD 0
  match op with
  | .atomic 7 w _ _ _ _ => if w < 4 then d / 2 ^ 128 % 2 ^ (8 * 2 ^ w) + d % 2 ^ (8 * 2 ^ w) * 2 ^ (8 * 2 ^ w) else d % 2 ^ 128
  | .load _ _ _ _ => 0
  | .clamp _ _ _ => 0
  | _ => d % 2 ^ 128

/-- A log entry's 1024 bytes (R344). -/
def Slat.logBytes (t : Slat) (g : LogEntry) : List Byte :=
  match t.qent? g.seq with
  | none => List.replicate 1024 0#8
  | some e =>
    let of_ := fun (l : Nat) => e.lanes.find? (fun x => x.l == l && g.names x)
    padTo 1024 (dwords [g.word.toNat, g.lanes.toNat + (g.kind + 1) * 2 ^ 32]
      ++ ((List.range 32).map (fun l => leBytes 8 ((of_ l).elim 0 (fun x => x.va.toNat)))).flatten
      ++ ((List.range 32).map (fun l => leBytes 16 ((of_ l).elim 0 (imageData e.op)))).flatten)

/-- The base-two logarithm of a partition width. -/
def log2w (n : Nat) : Nat := ((List.range 6).find? (fun k => decide (n ≤ 2 ^ k))).getD 5

/-- The state word (R344). -/
def Slat.stateWord (t : Slat) : Nat :=
  t.entNo * 2 ^ 48 + t.rpos * 2 ^ 44 + t.park.code * 2 ^ 41 + (if t.ended then 2 ^ 40 else 0) + (if t.inh then 2 ^ 39 else 0)
    + log2w t.width * 2 ^ 36 + ((List.range 6).map (fun k => t.dget k % 64 * 2 ^ (6 * k))).sum

/-- A slat record: 20480 bytes (R344). -/
def Slat.image (t : Slat) : List Byte :=
  ((List.range 2048).map (fun k => leBytes 4 (Sys2Proof.sget 0#32 t.v k).toNat)).flatten
    ++ dwords ((List.range 64).map (fun n => (t.sget n).toNat))
    ++ ((List.range 7).map (fun n => leBytes 4 (t.pmask n).toNat)).flatten ++ leBytes 4 t.q.toNat
    ++ dwords [t.tvec.toNat, t.tepc.toNat, t.tcause + (if t.inh then 256 else 0), t.tinfo.toNat, t.slim.toNat, t.bst.toNat, t.fst.toNat,
               t.stateWord]
    ++ dwords ((List.range 16).map (fun n => (t.bget n).vbase.toNat))
    ++ padTo 32 (match t.watch with
        | some w => dwords [w.addr.toNat, (if w.space = 2 then w.sel.toNat % 65536 else 0) * 2 ^ 32 + w.space % 4 * 65536 + w.phase]
        | none => [])
    ++ ((List.range 8).map t.entBytes).flatten
    ++ padTo 1024 ((t.recs.take 32).map DefRec.bytes).flatten
    ++ padTo 8192 ((t.log.take 8).map t.logBytes).flatten
    ++ List.replicate 2048 0#8

/-- A partial of the image: 16 bytes (R343). -/
def Partial.bytes (p : Partial) : List Byte :=
  leBytes 16 (match p with
    | .nan => 2 ^ 127
    | .inf neg => (if neg then 2 else 1) * 2 ^ 125
    | .sum x => (BitVec.ofInt 125 x).toNat)

/-- A tile's block: 20608 bytes (R343). -/
def Tile.image (x : Tile) : List Byte :=
  ((List.range 1024).map (fun k => leBytes 4 (x.get ((k % 32) + 32 * (k / 32))).toNat)).flatten
    ++ padTo 128 (leBytes 1 x.n)
    ++ ((List.range 1024).map (fun k => (sget (.sum 0) x.parts k).bytes)).flatten

/-- A core's finish slots, those of a context: 2048 bytes (R343). -/
def Core.progImage (c : Core) (ctx : Nat) : List Byte :=
  ((List.range 16).map (fun k => match sget none (c.progs.map (fun p => (p.1, some p.2))) k with
    | some p => if p.ctx = ctx then padTo 64 [1#8] ++ padTo 64 ((p.words.map (fun w => leBytes 4 w.toNat)).flatten) else List.replicate 128 0#8
    | none => List.replicate 128 0#8)).flatten

/-- What one rank adds to a team section. -/
def State.rankImage (s : State) (m : Team) (c : Nat × Nat × Nat) : List Byte :=
  padTo (up128 m.spad) (s.spadRead c.1 c.2.1 m.spad)
    ++ ((List.range m.tiles).map (fun i => (sget Tile.empty (s.core c.1).tiles (c.2.2 + i)).image)).flatten
    ++ (s.core c.1).progImage m.ctx

/-- A team header: 256 bytes (R343). -/
def State.teamHeader (s : State) (m : Team) : List Byte :=
  let g := s.grid? m.grid
  let bits := g.elim 0 Grid.prio * 2 ^ 22 + g.elim 0 Grid.depth * 2 ^ 18 + (if m.level = 1 then 2 ^ 17 else 0)
    + (if g.elim false (fun g => g.launch.persist) then 2 ^ 16 else 0) + m.grank * 16 + m.gang
  padTo 256 (dwords [m.grid, m.tiles * 2 ^ 35 + m.spad * 2 ^ 16 + m.cores.length * 2 ^ 11 + m.slats, m.idx * 2 ^ 32 + bits,
    (if m.aband then m.kslat * 65536 + m.kcause * 256 + 1 else 0), m.arrived.length])

/-- The length of a team section (R343). -/
def sectionLen (slats spad tiles cores : Nat) : Nat := 256 + 20480 * slats + cores * (up128 spad + 20608 * tiles + 2048)

/-- A team section (R343). -/
def State.teamImage (s : State) (m : Team) : List Byte :=
  let ts := (s.teamSlats m.uid).mergeSort (fun a b => decide (a.idx ≤ b.idx))
  s.teamHeader m ++ (ts.map Slat.image).flatten ++ (m.cores.map (s.rankImage m)).flatten

/-- Bytes 0x00 to 0x3F of an image's header (R342): the three dwords that software wrote, and the device's. -/
def imageHead (d0 d1 d2 : W64) (prot all : Bool) (fn nteams count blen ctx : Nat) : List Byte :=
  dwords [d0.toNat, d1.toNat, d2.toNat, 2 ^ 48 + (if prot then 2 ^ 47 else 0) + (if all then 2 ^ 46 else 0) + fn * 2 ^ 32 + nteams, count, blen,
    count, ctx % 65536]

/-- A whole image: protected under the key, or plain with a zero tag (R342, R345) -/
def sealImage (prot : Bool) (key head body : List Byte) : List Byte :=
  let iv := (head.drop 48).take 16
  let ct := if prot then gcmCrypt key iv body else body
  let tag := if prot then gcmTag key iv head ct else []
  padTo 128 (head ++ tag) ++ ct

/-- A team section as an image holds it: its shape, and where it begins. -/
structure ImgTeam where
  at_ : Nat
  grid : Nat
  idx : Nat
  slats : Nat
  cores : Nat
  spad : Nat
  tiles : Nat
  gang : Nat
  grank : Nat
  sup : Bool
  depth : Nat
  prio : Nat
  persist : Bool
  bst : Nat
  arrived : Nat
  deriving DecidableEq, Repr

/-- Part of a body. -/
def cut (b : List Byte) (a n : Nat) : List Byte := (b.drop a).take n

/-- The fields of a team header. -/
def ImgTeam.ofBytes (b : List Byte) (a : Nat) : ImgTeam :=
  let h := cut b a 256
  let d := fun j => (dword h j).toNat
  { at_ := a, grid := d 0, idx := natField (d 2) 63 32, slats := natField (d 1) 10 0, cores := natField (d 1) 15 11,
    spad := natField (d 1) 34 16, tiles := natField (d 1) 41 35, gang := natField (d 2) 3 0, grank := natField (d 2) 7 4,
    sup := (d 2).testBit 17, depth := natField (d 2) 21 18, prio := natField (d 2) 24 22, persist := (d 2).testBit 16, bst := d 3,
    arrived := natField (d 4) 15 0 }

/-- A team section's length. -/
def ImgTeam.len (x : ImgTeam) : Nat := sectionLen x.slats x.spad x.tiles x.cores

/-- The team sections of a body, one after another. -/
def imgTeams (b : List Byte) : Nat → Nat → List ImgTeam
  | 0, _ => []
  | n + 1, a => ImgTeam.ofBytes b a :: imgTeams b n (a + (ImgTeam.ofBytes b a).len)

/-- A team header's zero-fields, and the tests of codes 3 and 4 of R314 that its shape can fail. -/
def ImgTeam.ok (b : List Byte) (x : ImgTeam) : Bool :=
  let h := cut b x.at_ 256
  let d := fun j => (dword h j).toNat
  natField (d 1) 63 42 == 0 && natField (d 2) 31 25 == 0 && natField (d 2) 15 8 == 0 && natField (d 3) 63 32 == 0 && natField (d 3) 7 1 == 0
    && natField (d 4) 63 16 == 0 && (List.range 27).all (fun j => d (5 + j) == 0)
    && x.slats != 0 && decide (0 < x.cores) && decide (x.cores ≤ 16) && decide (x.cores ≤ x.slats) && decide (x.slats ≤ 64 * x.cores)
    && decide (x.spad ≤ 262144) && decide (x.tiles ≤ 64) && decide (x.gang * x.cores ≤ 160) && decide (x.gang ≤ 12)

/-- The slat record i of a team section. -/
def ImgTeam.rec_ (b : List Byte) (x : ImgTeam) (i : Nat) : List Byte := cut b (x.at_ + 256 + 20480 * i) 20480

/-- A number of n bytes of a record. -/
def fld (r : List Byte) (a n : Nat) : Nat := leNat (cut r a n)

/-- The split entries and deferral records of a record (R344). -/
def recSplit (r : List Byte) : List (Nat × SplitEntry) :=
  (List.range 8).map (fun k =>
    let a := 0x2300 + 32 * k
    let st := fld r (a + 24) 8
    let rcv := BitVec.ofNat 64 (fld r (a + 8) 8)
    (k, { SplitEntry.free with
          pc := BitVec.ofNat 64 (fld r a 8)
          rcv := if rcv = -1#64 then none else some rcv
          mask := BitVec.ofNat 32 (fld r (a + 16) 4)
          pend := BitVec.ofNat 32 (fld r (a + 20) 4)
          st := (match st % 4 with
            | 1 => .running
            | 2 => .waiting
            | _ => .free)
          join := Join.ofCode (natField st 7 4) }))

/-- The deferral records of a record, youngest last. -/
def recDefs (r : List Byte) : List DefRec :=
  ((List.range 32).filter (fun k => fld r (0x2400 + 32 * k + 24) 1 % 4 != 0)).map (fun k =>
    let a := 0x2400 + 32 * k
    let w := fld r (a + 24) 8
    let rcv := BitVec.ofNat 64 (fld r (a + 8) 8)
    { owner := natField w 6 4, fpc := BitVec.ofNat 64 (fld r a 8), rcv := if rcv = -1#64 then none else some rcv,
      fmask := BitVec.ofNat 32 (fld r (a + 16) 4), mask := BitVec.ofNat 32 (fld r (a + 20) 4), join := Join.ofCode (natField w 11 8),
      phase := w % 4 })

/-- The lanes m of a running entry lie in each waiting entry and record on its join chain (R112). -/
def chainOk (split : List (Nat × SplitEntry)) (recs : List DefRec) (m : W32) : Nat → Nat → Join → Bool
  | 0, _, _ => false
  | fuel + 1, e, j => match j with
    | .none => true
    | .entry k =>
      let y := sget SplitEntry.free split k
      y.st == .waiting && (m &&& ~~~y.mask) == 0#32 && chainOk split recs m fuel k y.join
    | .deferred => match lastRec recs e with
      | some (d, rest) => (m &&& ~~~d.mask) == 0#32 && chainOk split rest m fuel e d.join
      | none => false

/-- The lane invariant (R112): running entries hold no lane twice, and every chain holds its lanes. -/
def lanesOk (split : List (Nat × SplitEntry)) (recs : List DefRec) : Bool :=
  let run := split.filter (fun x => x.2.st == .running)
  run.all (fun x => run.all (fun y => x.1 == y.1 || (x.2.mask &&& y.2.mask) == 0#32) && chainOk split recs x.2.mask 48 x.1 x.2.join)

/-- A slat record is well formed (R349), as far as the record tells; rpos is tested against the text. -/
def recOk (r : List Byte) : Bool :=
  let w := fld r 0x2258 8
  let split := recSplit r
  natField w 63 51 == 0 && decide (natField w 43 41 < 6) && natField w 38 36 != 0 && decide (natField w 38 36 < 6)
    && (cut r 0x4800 2048).all (fun b => b == 0#8)
    && (List.range 8).all (fun k =>
      let x := fld r (0x2300 + 32 * k + 24) 8
      x % 4 != 3 && (decide (natField x 7 4 < 9) || natField x 7 4 == 15))
    && (List.range 32).all (fun k =>
      let x := fld r (0x2400 + 32 * k + 24) 8
      x % 4 != 3 && (decide (natField x 11 8 < 9) || natField x 11 8 == 15))
    && (List.range 8).all (fun k => decide (natField (fld r (0x2800 + 1024 * k + 8) 8) 35 32 ≤ 4))
    && ((w.testBit 40) || (sget SplitEntry.free split (natField w 50 48)).st == .running)
    && lanesOk split (recDefs r)

end Sys2Proof.Machine
end

