-- ==== Sys2Proof/Machine/Context.lean ====
section
/-! DEFINITION. Pre-emption: saving and restoring context images (R339 to R352). -/

namespace Sys2Proof.Machine

/-- CTXS (R347, R348): supervisor level; a device-scope release, then the save. -/
def execCtxs (o : YOp) (s : State) : Out :=
  scaCtr s o.h (ctrOf o.ctr) [.s o.sA, .s o.sB] (fun t u =>
    if t.level = 0 then s.refusePriv t u
    else s.openJob t u (ctrOf o.ctr) true (.save (t.sget o.sA.toNat) (t.sget o.sB.toNat) (o.imm.toNat % 2) o.sD.toNat []))

/-- CTXL (R347, R349): supervisor level; the same release, then the restore. -/
def execCtxl (o : YOp) (s : State) : Out :=
  scaCtr s o.h (ctrOf o.ctr) [.s o.sA] (fun t u =>
    if t.level = 0 then s.refusePriv t u
    else s.openJob t u (ctrOf o.ctr) true (.load (t.sget o.sA.toNat) o.sD.toNat))

/-- What an access of the context engine needs of its pages (R348 to R350): a mailbox page takes reason 0xC. -/
def imageNeed (wr : Bool) : Need := ⟨!wr, wr, false, some 0xC⟩

/-- The first page of a range that the context engine may not touch: cause and reason; no fault is posted (R348, R349). -/
def State.pageFate (s : State) (t : Slat) (wr : Bool) (va : W64) (n : Nat) : Option (Nat × Nat) :=
  match s.checkRange t.ctx t.part t.level (imageNeed wr) va (s.pagesOf t.ctx t.part va n) with
  | .ok _ => none
  | .error (.sync code reason) => some (code, reason)
  | .error _ => some (5, 1)

/-- A host-located line of which the device holds or has sent the bytes that count: one that a core owns, that is on its way to the host, or
that the device wrote there last. -/
def State.deviceWrote (s : State) (line : Nat) : Bool :=
  (s.owner? line).isSome || s.host.queue.any (fun q => q.2.2.any (fun b => lineOf b.1 == line)) || s.host.crypt.any (fun c => c.1 == untagLine line)

/-- A byte as the context engine reads it: images pass a protected partition's host port beside its XTS (R376), but for what the device has
written itself, which it reads as the device does. (Log 51: DESIGN CHOICE.) -/
def State.imageByte (s : State) (part a : Nat) : Byte :=
  if s.partProt part ∧ paRegion a = .host ∧ s.deviceWrote (lineOf a) = false then s.agentByte a else s.hubByte a

/-- Lines noted as written beside the XTS layer (R376). -/
def State.markBeside (s : State) (lines : List Nat) : State :=
  { s with host := { s.host with crypt := lines.foldl (fun c l => sput c (untagLine l) besideXts) s.host.crypt } }

/-- A segment of an image that the context engine reads or writes beside a protected partition's XTS (R376). -/
def State.besideSeg (s : State) (part : Nat) (g : Nat × Nat × Nat) : Bool := s.partProt part && paRegion g.2.1 == .host

/-- The lines at their homes that the context engine reads or writes at a range that pageFate lets through. -/
def State.imageLines (s : State) (t : Slat) (wr : Bool) (va : W64) (n : Nat) : List Nat :=
  match s.checkRange t.ctx t.part t.level (imageNeed wr) va (s.pagesOf t.ctx t.part va n) with
  | .ok segs => segLines (segs.filter (fun g => !(s.besideSeg t.part g)))
  | .error _ => []

/-- A step of the context engine at a range that it looks up, taken once the lines of the walks are ready (R158). -/
def State.imageWalk (s : State) (t : Slat) (va : W64) (n : Nat) (f : State → State) : State :=
  s.hubStep true t.fn t.part (s.hubWalks t.ctx t.part va n) f

/-- A step that reads or writes a range, taken once its lines are ready too (R18). -/
def State.imageStep (s : State) (t : Slat) (rd wr : Bool) (va : W64) (n : Nat) (f : State → State) : State :=
  s.imageWalk t va n (fun s => s.hubStep rd t.fn t.part (s.imageLines t wr va n) f)

/-- Bytes at a range that pageFate lets through. -/
def State.imageRead (s : State) (t : Slat) (wr : Bool) (va : W64) (n : Nat) : List Byte :=
  match s.checkRange t.ctx t.part t.level (imageNeed wr) va (s.pagesOf t.ctx t.part va n) with
  | .ok segs => (List.range n).map (fun i => s.imageByte t.part (segAddr segs i))
  | .error _ => []

/-- An image written at a range (R348): to the homes, or beside the XTS of a protected partition (R376), once nothing else is on its way to
those lines of the host; none while something is. -/
def State.imageWrite (s : State) (t : Slat) (va : W64) (bs : List Byte) : Except Fate (Option State) :=
  match s.checkRange t.ctx t.part 1 Need.store va (s.pagesOf t.ctx t.part va bs.length) with
  | .error f => .error f
  | .ok segs =>
    let direct := segs.filter (s.besideSeg t.part)
    let lines := segLines direct
    if s.host.queue.any (fun q => q.2.2.any (fun b => lines.contains (lineOf b.1))) then .ok none
    else .ok (some ((s.hubPut t.fn segs direct bs).markBeside lines))

/-- A refusal of a context instruction (R350). -/
def State.refuseImage (s : State) (j : Job) (sub : Nat) : State := s.failJob j (boundsF j.cid j.ent sub)

/-- STALE_IMAGE or INTEGRITY: %tinfo holds the reason alone (R350). -/
def State.failImage (s : State) (j : Job) (code reason : Nat) : State :=
  s.failJob j { j.cause code reason with raw := some (BitVec.ofNat 64 (reason * 256)) }

/-- The unit of pre-emption of a target (R339). -/
def State.saveUnit (s : State) (ctx : Nat) (all : Bool) (grid : W64) (idx : Nat) : List Team :=
  if all then s.teams.filter (fun m => m.ctx == ctx)
  else match s.teams.find? (fun m => m.ctx == ctx && m.grid == grid.toNat && m.idx == idx) with
    | none => []
    | some m => if (s.grid? m.grid).elim false (fun g => g.launch.persist) then s.teams.filter (fun x => x.grid == m.grid) else s.gang m

/-- A save of a context that has not taken its count (R352). -/
def State.savingCtx (s : State) (ctx : Nat) : Bool :=
  s.hub.jobs.any (fun j => match j.kind with
    | .save _ _ _ _ teams => teams.any (fun u => (s.team? u).elim false (fun m => m.ctx == ctx))
    | _ => false)

/-- Steps 2 and 3 of R348: the checks, then the unit's slats stop. -/
def State.saveCheck (s : State) (j : Job) (t : Slat) (base len : W64) (mode dst : Nat) : State :=
  match s.pageFate t true base 24 with
    | some (code, reason) => s.failJob j (j.cause code reason)
    | none =>
      let h := s.imageRead t true base 24
      let ctx := (dword h 0).toNat
      if natField ctx 63 16 ≠ 0 ∨ natField (dword h 2).toNat 63 32 ≠ 0 then s.refuseImage j 0x19
      else match s.context? ctx with
        | none => s.refuseImage j 0x16
        | some c =>
          if c.fn ≠ t.fn then s.refuseImage j 0x16
          else if ctx = t.ctx ∨ c.out then s.refuseImage j 0x17
          else match s.pageFate t true base len.toNat with
            | some (code, reason) => s.failJob j (j.cause code reason)
            | none =>
              if s.savingCtx ctx then s
              else
                let ms := (s.saveUnit ctx (mode == 1) (dword h 1) (dword h 2).toNat).filter (fun m => !m.saved && !(s.teamOver m))
                if ms.isEmpty then s.jobResult j dst 0#64
                else
                  let us := ms.map Team.uid
                  let s : State := { s with teams := s.teams.map (fun m => if us.contains m.uid then { m with saved := true } else m) }
                  s.setJobKind j (.save base len mode dst us)

/-- The same, once the header can be read and the range looked up. -/
def State.saveStart (s : State) (j : Job) (t : Slat) (base len : W64) (mode dst : Nat) : State :=
  if base.toNat % 128 ≠ 0 then s.failJob j (j.cause 4 1)
  else s.imageStep t true true base 24 (fun s => s.imageWalk t base len.toNat (fun s => s.saveCheck j t base len mode dst))

/-- A slat that has stopped where its image can be taken: ended, at a clause boundary, or parked, and after a rollback no earlier than where it
had stopped (R340). -/
def Slat.stopped (t : Slat) : Bool :=
  t.ended || (decide (t.redo ≤ t.begun) && ((t.park == .none && t.issue.isNone) || (t.park != .none && t.park != .room)))

/-- An entry whose lanes are all held in the operand log, be it at their home (R187, R340). -/
def Slat.allLogged (t : Slat) (e : QEnt) : Bool :=
  !e.lanes.isEmpty && e.tok.isNone
    && e.lanes.all (fun x => x.st == .logged || (x.st == .sent && t.log.any (fun l => l.seq == e.seq && l.lanes.getLsbD x.l)))

/-- Nothing of a slat is on its way but lanes in its operand log (R340). -/
def State.quiet (s : State) (t : Slat) : Bool :=
  t.stopped && t.queue.all t.allLogged
    && (s.home.reqs.filter (fun r => r.uid == t.uid)).all (fun r => r.st == .fresh && t.queue.any (fun e => e.seq == r.seq))
    && !((s.core t.core).hw.any (fun e => e.req.uid == t.uid))
    && !(s.home.copies.any (fun c => c.uid == t.uid)) && !(s.home.starts.any (fun r => r.uid == t.uid)) && !((s.core t.core).eng.any (fun j => j.uid == t.uid))
    && !(s.hub.jobs.any (fun j => j.uid == t.uid)) && !(s.fab.xfers.any (fun x => x.uid == t.uid))

/-- A slat of the unit that takes a pending cause at its boundary before it is saved (R340). -/
def Slat.owesTrap (t : Slat) : Bool := !t.ended && decide (t.redo ≤ t.begun) && t.park == .none && t.issue.isNone && t.pend.any t.mayTake

/-- Teams in the order of an image (R342). -/
def imageOrder (ms : List Team) : List Team :=
  ms.mergeSort (fun a b => decide (a.grid < b.grid) || (a.grid == b.grid && decide (a.idx ≤ b.idx)))

/-- The image of some teams, with the save counter it carries (R342 to R346). (Log 47: DEDUCED.) -/
def State.imageOf (s : State) (c : Context) (d0 d1 d2 : W64) (all : Bool) (ms : List Team) : List Byte :=
  let body := ((imageOrder ms).map s.teamImage).flatten
  sealImage c.prot c.imgKey (imageHead d0 d1 d2 c.prot all c.fn ms.length (c.count + 1) body.length c.ctx) body

/-- The slats of some teams taken out of the machine, with what of their logged entries stands at a home: nothing waits for them any more, and a
fault on which nothing else waits is void (R341). -/
def State.takeOut (s : State) (teams : List Nat) : State :=
  let out := s.slats.filter (fun t => teams.contains t.team)
  let left := s.slats.filter (fun t => !(teams.contains t.team))
  let void := fun (f : FaultRec) => out.any (fun t => t.awaits f.token) && !(left.any (fun t => t.awaits f.token))
    && !(s.hub.jobs.any (fun j => j.tok.map Prod.fst == some f.token))
  let s := s.modHome (fun h => { h with reqs := h.reqs.filter (fun r => !(out.any (fun t => t.uid == r.uid))) })
  { s.modHub (fun h => { h with
      queues := h.queues.map (fun q => (q.1, { q.2 with waiters := q.2.waiters.filter (fun w => !(out.any (fun t => t.uid == w))) }))
      faults := h.faults.filter (fun f => !(void f)) }) with
    slats := left }

/-- The image written and the unit taken out, once the range can be looked up and written (R348 step 5). -/
def State.saveWrite (s : State) (j : Job) (t : Slat) (base : W64) (n mode dst : Nat) (c : Context) (ms : List Team) : State :=
  let teams := ms.map Team.uid
  s.imageStep t false true base n (fun s =>
    let h := s.imageRead t true base 24
    match s.imageWrite t base (s.imageOf c (dword h 0) (dword h 1) (dword h 2) (mode == 1) ms) with
    | .error _ => (s.resume teams).failJob j (j.cause 5 1)
    | .ok none => s
    | .ok (some s) =>
      let s : State := { s with host := { s.host with queue := s.host.queue ++ [(0, j.id, [])] } }
      ((s.takeOut teams).modContext c.ctx (fun c => { c with count := c.count + 1, out := true })).setJobKind j (.wrote c.ctx n dst teams))

/-- Steps 4 and 5 of R348: quiescence, the context's records given up, the length and count, the image, and behind it a mark in
the host port queue. -/
def State.saveGo (s : State) (j : Job) (t : Slat) (base len : W64) (mode dst : Nat) (teams : List Nat) : State :=
  let ms := teams.filterMap s.team?
  let ts := s.slats.filter (fun x => teams.contains x.team)
  let cores := ((ms.map (fun m => m.cores.map Prod.fst)).flatten).eraseDups
  match ts.find? Slat.owesTrap with
  | some x => s.takeAt x
  | none =>
    if !(ts.all s.quiet) then s
    else match (ms.head?).bind (fun m => s.context? m.ctx) with
      | none => s.endJob j
      | some c =>
        let rs := (cores.map (fun k => ((s.core k).recs.filter (fun r => r.ctx == c.ctx && !r.draining)).map (fun r => (k, r)))).flatten
        if !rs.isEmpty then rs.foldl (fun (s : State) r => s.sendGiveUp r.1 r.2) s
        else if cores.any (fun k => (s.core k).recs.any (fun r => r.ctx == c.ctx) || (s.window k).any (fun r => r.settles && r.ctx == c.ctx)) then s
        else
          let n := 128 + (ms.map (fun m => sectionLen m.slats m.spad m.tiles m.cores.length)).sum
          if len.toNat < n then (s.resume teams).refuseImage j 0x18
          else if c.out then (s.resume teams).refuseImage j 0x17
          else s.saveWrite j t base n mode dst c ms

/-- A save at the next of its steps (R348). -/
def State.jobSave (s : State) (j : Job) (base len : W64) (mode dst : Nat) (teams : List Nat) : State :=
  match s.slat? j.uid with
  | none => s.endJob j
  | some t => if teams.isEmpty then s.saveStart j t base len mode dst else s.saveGo j t base len mode dst teams

/-- Step 6 of R348: when every byte has reached the host, the cores are free and the length is written. -/
def State.jobWrote (s : State) (j : Job) (len dst : Nat) (teams : List Nat) : State :=
  if s.host.queue.any (fun q => q.1 == 0 && q.2.1 == j.id) then s
  else
    let s : State := { s with teams := s.teams.map (fun m => if teams.contains m.uid then { m with cores := [], arrived := [] } else m) }
    s.jobResult j dst (BitVec.ofNat 64 len)

/-- The word of a slat's text at a word address, as far as it can be fetched. -/
def State.textWord (s : State) (ctx part level : Nat) (text pc : W64) : Option W64 :=
  match s.hubCheck ctx part level Need.fetch_ (text + pc * 8#64) with
  | .ok pa p => some (if p.mail then BitVec.ofNat 64 (leNat ((addrs pa 8).map s.agentByte)) else BitVec.ofNat 64 ((s.readVal (lineOf pa)).num (pa % 128) 8))
  | _ => none

/-- The place of a word of a slat's text. -/
def textAt (ctx part level : Nat) (text pc : W64) : HubAt := ⟨ctx, part, level, Need.fetch_, text + pc * 8#64, 8⟩

/-- The places of the words of a clause, as far as its header can be read. -/
def State.clauseAts (s : State) (ctx part level : Nat) (text pc : W64) : List HubAt :=
  let h := textAt ctx part level text pc
  if !(s.hubReady [h]) then [h]
  else match (s.textWord ctx part level text pc).map decodeHeader with
    | some (.ok x) => h :: (List.range x.words).map (fun i => textAt ctx part level text (pc + BitVec.ofNat 64 (i + 1)))
    | _ => [h]

/-- The clause whose header stands at a word address. -/
def State.clauseAt (s : State) (ctx part level : Nat) (text pc : W64) : Option (Header × List W64) :=
  match (s.textWord ctx part level text pc).map decodeHeader with
  | some (.ok h) =>
    let ws := (List.range h.words).map (fun i => s.textWord ctx part level text (pc + BitVec.ofNat 64 (i + 1)))
    if ws.any Option.isNone then none else some (h, ws.filterMap id)
  | _ => none

/-- The text base of a grid's slats and the bytes of their text segment; where the grid is gone, nothing states the base: a free value. -/
def State.gridText (s : State) (ctx grid : Nat) : W64 × Option Nat × State :=
  match s.grid? grid with
  | some g => ((s.textOf ctx g.launch.entry).1, (s.textOf ctx g.launch.entry).2.1, s)
  | none => let (x, s) := s.freeVal
            (x, none, s)

/-- The places of the text that a record's slat is looked up in: the clause of each running entry, and the word before it. -/
def State.recAts (s : State) (c : Context) (level : Nat) (text : W64) (r : List Byte) : List HubAt :=
  ((recSplit r).filter (fun e => e.2.st == .running)).flatMap (fun e =>
    textAt c.ctx c.part level text (e.2.pc - 1#64) :: s.clauseAts c.ctx c.part level text e.2.pc)

/-- The places of the text that the slats of a body are looked up in. -/
def State.bodyAts (s : State) (c : Context) (b : List Byte) (n : Nat) : List HubAt :=
  (imgTeams b n 0).flatMap (fun x => (List.range x.slats).flatMap (fun i =>
    s.recAts c (if x.sup then 1 else 0) (s.gridText c.ctx x.grid).1 (x.rec_ b i)))

/-- A step at some places, taken once they are ready. -/
def State.hubAtStep (s : State) (fn : Nat) (xs : List HubAt) (f : State → State) : State :=
  if s.hubReady xs then State.hubOver s (f s) xs else s.hubWant fn xs

/-- rpos of a record names an instruction of the clause at its entry's pc (R349). -/
def State.rposOk (s : State) (c : Context) (level : Nat) (text : W64) (r : List Byte) : Bool :=
  let w := fld r 0x2258 8
  let p := natField w 47 44
  p == 0 || (match s.clauseAt c.ctx c.part level text (sget SplitEntry.free (recSplit r) (natField w 50 48)).pc with
    | some (_, ws) => decide (p < ws.length)
    | none => false)

/-- A body is well formed (R349). -/
def State.bodyOk (s : State) (c : Context) (b : List Byte) (n : Nat) : Bool :=
  let xs := imgTeams b n 0
  xs.all (fun x => x.ok b) && (xs.map ImgTeam.len).sum == b.length
    && xs.all (fun x => (List.range x.slats).all (fun i =>
      recOk (x.rec_ b i) && s.rposOk c (if x.sup then 1 else 0) (s.gridText c.ctx x.grid).1 (x.rec_ b i)))

/-- A header is well formed (R342, R349). -/
def headOk (h : List Byte) : Bool :=
  let d := fun j => (dword h j).toNat
  let n := natField (d 3) 15 0
  natField (d 0) 63 16 == 0 && natField (d 2) 63 32 == 0 && natField (d 3) 63 48 == 1 && natField (d 3) 45 37 == 0 && natField (d 3) 31 16 == 0
    && decide (1 ≤ n) && d 5 % 128 == 0 && decide (d 5 ≤ n * 2 ^ 26) && natField (d 7) 63 16 == 0
    && (List.range 6).all (fun j => d (10 + j) == 0) && ((d 3).testBit 47 || (d 8 == 0 && d 9 == 0))

/-- The checks of R349 on the body of an image whose header h has passed, then the count. -/
def State.loadBody (s : State) (j : Job) (t : Slat) (base : W64) (dst : Nat) (c : Context) (h : List Byte) : State :=
  let d := fun j => (dword h j).toNat
  match s.pageFate t false (base + 128#64) (d 5) with
  | some (code, reason) => s.failJob j (j.cause code reason)
  | none =>
    if d 4 < c.count then s.failImage j 0x12 1
    else if d 4 = c.count ∧ !c.out then s.failImage j 0x12 2
    else if c.count < d 4 then s.failImage j 0x11 2
    else
      let b := s.imageRead t false (base + 128#64) (d 5)
      let iv := cut h 48 16
      if c.prot ∧ gcmTag c.imgKey iv (cut h 0 64) b ≠ cut h 64 16 then s.failImage j 0x11 1
      else
        let body := if c.prot then gcmCrypt c.imgKey iv b else b
        let n := natField (d 3) 15 0
        s.hubAtStep t.fn (s.bodyAts c body n) (fun s =>
          if !(s.bodyOk c body n) then s.refuseImage j 0x19
          else (s.modContext c.ctx (fun c => { c with count := c.count + 1, out := false })).setJobKind j (.place c.ctx dst n body))

/-- The checks of R349 on an image's header, then those on its body, once that can be read. -/
def State.loadHead (s : State) (j : Job) (t : Slat) (base : W64) (dst : Nat) : State :=
  match s.pageFate t false base 128 with
  | some (code, reason) => s.failJob j (j.cause code reason)
  | none =>
    let h := s.imageRead t false base 128
    let d := fun j => (dword h j).toNat
    if !(headOk h) then s.refuseImage j 0x19
    else match (if natField (d 3) 36 32 = t.fn then s.context? (d 0) else none) with
      | none => s.refuseImage j 0x16
      | some c =>
        if c.fn ≠ t.fn then s.refuseImage j 0x16
        else if (d 3).testBit 47 ≠ c.prot then s.refuseImage j 0x19
        else s.imageStep t true false (base + 128#64) (d 5) (fun s => s.loadBody j t base dst c h)

/-- Steps 2 and 3 of R349: the checks in their order, then the count. -/
def State.jobLoad (s : State) (j : Job) (base : W64) (dst : Nat) : State :=
  match s.slat? j.uid with
  | none => s.endJob j
  | some t =>
    if base.toNat % 128 ≠ 0 then s.failJob j (j.cause 4 1)
    else s.imageStep t true false base 128 (fun s => s.loadHead j t base dst)

/-- The operand fields of a memory instruction. -/
def memOps (w : W64) : Option (Instr × MOp) :=
  match decodeWord w with
  | .ok i => match i with
    | .ld o => some (i, o)
    | .st o => some (i, o)
    | .sld o => some (i, o)
    | .sst o => some (i, o)
    | .acc o => some (i, o)
    | .ldt o => some (i, o)
    | .atmAdd o => some (i, o)
    | .atmMin o => some (i, o)
    | .atmMax o => some (i, o)
    | .atmAnd o => some (i, o)
    | .atmOr o => some (i, o)
    | .atmXor o => some (i, o)
    | .atmXchg o => some (i, o)
    | .atmCas o => some (i, o)
    | .atmFadd o => some (i, o)
    | .atmFmax o => some (i, o)
    | .clmi o => some (i, o)
    | .clmx o => some (i, o)
    | .clma o => some (i, o)
    | .clmw o => some (i, o)
    | .clmt o => some (i, o)
    | _ => none
  | .error _ => none

/-- What an atomic's entry does. -/
def atomicOp (n : Nat) (o : MOp) : EOp := .atomic n o.width.toNat (o.imm.getLsbD 5) (o.imm.getLsbD 4) o.dst.toNat o.data

/-- What a clamp's entry does. -/
def clampEntOp (t : Slat) (o : MOp) (k : ClampOp) : EOp := .clamp k (natField o.imm.toNat 10 9) (t.sget o.bn.toNat)

/-- What a logged entry does, from its word (R165, R344); a word that is no memory instruction stands for an outlier record. -/
def eopOf (t : Slat) (w : W64) : EOp :=
  match memOps w with
  | none => .record (decide (w = 0))
  | some (i, o) => match i with
    | .ld _ => .load o.width.toNat false o.dst.toNat o.h.hint.toNat
    | .st _ => .store o.width.toNat false o.data o.h.hint.toNat
    | .sld _ => .load o.width.toNat true o.dst.toNat o.h.hint.toNat
    | .sst _ => .store o.width.toNat true o.data o.h.hint.toNat
    | .acc _ => .acc (o.width == 1#3) o.data
    | .ldt _ => .ldt (o.width == 1#3) o.dst.toNat
    | .atmAdd _ => atomicOp 0 o
    | .atmMin _ => atomicOp 1 o
    | .atmMax _ => atomicOp 2 o
    | .atmAnd _ => atomicOp 3 o
    | .atmOr _ => atomicOp 4 o
    | .atmXor _ => atomicOp 5 o
    | .atmXchg _ => atomicOp 6 o
    | .atmCas _ => atomicOp 7 o
    | .atmFadd _ => atomicOp 8 o
    | .atmFmax _ => atomicOp 9 o
    | .clmi _ => clampEntOp t o (.init (natField (clampData t o) 31 0) (natField (clampData t o) 47 32))
    | .clmx _ => clampEntOp t o (.expect (natField (clampData t o) 31 0))
    | .clma _ => clampEntOp t o .arrive
    | .clmw _ => clampEntOp t o (.wait (natField (clampData t o) 15 0))
    | _ => clampEntOp t o (.test (o.dst.toNat % 8) (natField (clampData t o) 15 0))

/-- A lane's data from the image, where the image holds it. -/
def restoredData (op : EOp) (x : Nat) : Option Nat :=
  match op with
  | .store _ _ _ _ => some x
  | .record _ => some x
  | .acc _ _ => some x
  | .ldt _ _ => some x
  | .atomic 7 w _ _ _ _ => if w < 4 then some (x % 2 ^ (8 * 2 ^ w) * 2 ^ 128 + x / 2 ^ (8 * 2 ^ w) % 2 ^ (8 * 2 ^ w)) else none
  | .atomic _ _ _ _ _ _ => some x
  | _ => none

/-- The log entries of a record, each as (place, lanes, word). -/
def recLog (r : List Byte) : List (Nat × W32 × W64) :=
  ((List.range 8).map (fun k =>
    let a := 0x2800 + 1024 * k
    (a, (if natField (fld r (a + 8) 8) 35 32 = 0 then 0#32 else BitVec.ofNat 32 (fld r (a + 8) 4)), BitVec.ofNat 64 (fld r a 8)))).filter (fun x => x.2.1 != 0#32)

/-- A logged entry put back into its queue (R341, R344): seq its number, ins its instance, x a free value for its place in its
clause, which the image does not hold. -/
def restoredEnt (t : Slat) (r : List Byte) (g : Nat × W32 × W64) (seq ins : Nat) (x : W64) : QEnt :=
  let op := eopOf t g.2.2
  let path := match op with
    | .acc _ _ => Path.ac
    | .ldt _ _ => Path.ac
    | _ => Path.ls
  { seq := seq, ins := ins, paths := [path], op := op,
    lanes := (laneList g.2.1).map (fun l =>
      ⟨l, .glob (BitVec.ofNat 64 (fld r (g.1 + 16 + 8 * l) 8)) none, restoredData op (fld r (g.1 + 272 + 16 * l) 16), .queued⟩),
    word := g.2.2, cid := seq, pos := natField x.toNat 3 0, len := natField x.toNat 7 4, ent := t.entNo, mail := false, tok := none, regen := none }

/-- The instance of each restored entry (R54): counter k holds d_k instances, so the first d_k − 1 entries of k have one each and the
rest share the last; n is the first free number. -/
def restoredIns (t : Slat) (n : Nat) : List (Nat × Option Nat) → List Nat → List Inst → List Nat × List Inst
  | [], ids, is => (ids, is)
  | (i, c) :: rest, ids, is => match c with
    | none => restoredIns t n rest (ids ++ [0]) is
    | some k =>
      if t.dget k = 0 then restoredIns t n rest (ids ++ [0]) is
      else
        let id := n + 16 * k + min i (t.dget k - 1)
        let is := if is.any (fun x => x.id == id) then is.map (fun x => if x.id = id then { x with open_ := x.open_ + 1 } else x)
                  else is ++ [⟨id, some k, 1⟩]
        restoredIns t n rest (ids ++ [id]) is

/-- The counter of an entry's word. -/
def ctrOfWord (w : W64) : Option Nat := (memOps w).bind (fun x => ctrOf x.2.ctr)

/-- Each entry with how many entries of its counter stand before it. -/
def rankedCtrs (cs : List (Option Nat)) : List (Nat × Option Nat) :=
  (cs.zipIdx).map (fun c => (((cs.take c.2).filter (fun d => d == c.1)).length, c.1))

/-- The logged entries of a record back in the slat's queue, their instances and counters with them (R341). -/
def State.restoreLog (s : State) (t : Slat) (r : List Byte) : Slat × State :=
  let gs := recLog r
  let (ids, is) := restoredIns t s.next (rankedCtrs (gs.map (fun g => ctrOfWord g.2.2))) [] []
  let n := s.next + 128
  let (x, s) := s.freeVal
  ({ t with insts := is, queue := ((gs.zip ids).zipIdx).map (fun g => restoredEnt t r g.1.1 (n + g.2) g.1.2 (x >>> (8 * g.2))) },
   { s with next := n + 8 })

/-- The fragment that a handler's slat runs (R325): the one parked inside its clause, or the only running one; the image does not
say which of several it is, and a free value names it. -/
def State.handler (s : State) (t : Slat) (rpos ent : Nat) : Option Nat × State :=
  let run := (List.range 8).filter (fun k => (t.ent k).st == .running)
  if !t.inh then (none, s)
  else if rpos ≠ 0 then (some ent, s)
  else if run.length ≤ 1 then (run.head?, s)
  else
    let (x, s) := s.freeVal
    (some (run.getD (x.toNat % run.length) 0), s)

/-- The clause that a slat is parked inside of, fetched again (R344). -/
def State.restoreIssue (s : State) (t : Slat) (rpos ent : Nat) : Slat × State :=
  if rpos = 0 then (t, s)
  else match s.clauseAt t.ctx t.part t.level t.text (t.ent ent).pc with
    | some (h, ws) => match clsOf h.cls with
      | some c =>
        let (cid, s) := s.fresh
        let x := t.ent ent
        ({ t.setEnt ent { x with pc := x.pc + BitVec.ofNat 64 (ws.length + 1) } with
           issue := some { ent := ent, h := x.pc, cid := cid, cls := c, words := ws, pos := rpos, yld := h.yld, lat := [], outs := [], fres := [],
                           held := false } }, s)
      | none => (t, s)
    | none => (t, s)

/-- A record's registers and tables (R344). -/
def Slat.ofRecord (t : Slat) (r : List Byte) : Slat :=
  let w := fld r 0x2258 8
  { t with
    v := (List.range 2048).map (fun k => (k, BitVec.ofNat 32 (fld r (4 * k) 4)))
    s := (List.range 64).map (fun n => (n, BitVec.ofNat 64 (fld r (0x2000 + 8 * n) 8)))
    p := (List.range 7).map (fun n => (n, BitVec.ofNat 32 (fld r (0x2200 + 4 * n) 4)))
    q := BitVec.ofNat 7 (fld r 0x221C 1)
    tvec := BitVec.ofNat 64 (fld r 0x2220 8)
    tepc := BitVec.ofNat 64 (fld r 0x2228 8)
    tcause := fld r 0x2230 1
    tinfo := BitVec.ofNat 64 (fld r 0x2238 8)
    slim := BitVec.ofNat 64 (fld r 0x2240 8)
    bst := BitVec.ofNat 64 (fld r 0x2248 8)
    fst := BitVec.ofNat 64 (fld r 0x2250 8)
    inh := w.testBit 39
    ended := w.testBit 40
    width := 2 ^ natField w 38 36
    d := (List.range 6).map (fun k => (k, natField w (6 * k + 5) (6 * k)))
    b := (List.range 16).map (fun n => (n, ⟨BitVec.ofNat 64 (fld r (0x2260 + 8 * n) 8), none⟩))
    split := recSplit r
    recs := recDefs r
    park := Park.ofCode (natField w 43 41) }

/-- The word of the instruction that a restored slat is parked on: the one before rpos, or the last of a running entry's clause. -/
def State.parkWord (s : State) (t : Slat) (is : Instr → Bool) : Option Instr :=
  let words := match t.issue with
    | some u => if u.pos = 0 then [] else (u.words[u.pos - 1]?).toList
    | none => ((List.range 8).filter (fun k => (t.ent k).st == SplitSt.running)).filterMap (fun k => s.textWord t.ctx t.part t.level t.text ((t.ent k).pc - 1#64))
  words.findSome? (fun w => match decodeWord w with
    | .ok i => if is i then some i else none
    | .error _ => none)

/-- A deq. -/
def isDeq : Instr → Bool
  | .deq _ => true
  | _ => false

/-- A cwait. -/
def isCwait : Instr → Bool
  | .cwait _ => true
  | _ => false

/-- A watch of a record read again (R201, R341): the read of a clmw, unless the log holds it. -/
def State.rewatch (s : State) (t : Slat) (r : List Byte) : State :=
  let waits := t.queue.any (fun e => match e.op with
    | .clamp (.wait _) _ _ => true
    | _ => false)
  if waits then s
  else
    let w := fld r 0x22E8 8
    let a := BitVec.ofNat 64 (fld r 0x22E0 8)
    let sel := BitVec.ofNat 64 (natField w 47 32)
    let loc := match natField w 17 16 with
      | 0 => Loc.glob a none
      | 1 => .spad t.team (s.rank t) a.toNat
      | _ => match s.peer t sel with
        | some (team, rank) => .spad team rank a.toNat
        | none => .badSel a.toNat
    let (n, s) := s.fresh
    let e : QEnt :=
      { seq := n, ins := 0, paths := [.ls], op := .clamp (.wait (natField w 15 0)) (natField w 17 16) sel, lanes := [queuedLane 0 loc],
        word := 0, cid := n, pos := 0, len := 0, ent := t.entNo, mail := false, tok := none, regen := none }
    s.modSlat t.uid (fun t => { t with queue := t.queue ++ [e] })

/-- The wait of a restored slat taken up again (R341). -/
def State.rewait (s : State) (uid : Nat) (r : List Byte) : State :=
  match s.slat? uid with
  | none => s
  | some t =>
    if t.ended then s
    else match t.park with
      | .clmw => s.rewatch t r
      | .deq => match s.parkWord t isDeq with
        | some (.deq o) =>
          let q := (t.sget o.sA.toNat).toNat
          let s := s.modSlat uid (fun t => { t with parkDst := o.sD.toNat, parkArg := BitVec.ofNat 64 q, parkAt := s.now + 1 })
          (s.modQueue q (fun x => { x with waiters := x.waiters ++ [uid] })).serveDeq q ((s.queue q).waiters.length + 1)
        | _ => s
      | .cwait => match s.parkWord t isCwait with
        | some (.cwait o) =>
          let k := t.sget o.sA.toNat
          if s.childLive t.team k.toNat then s.modSlat uid (fun t => { t with parkArg := k }) else (s.unpark uid).acqAll uid
        | _ => s
      | .xfen =>
        let (n, s) := s.fresh
        s.modSlat uid (fun t => { t with parkArg := BitVec.ofNat 64 n, queue := t.queue ++ [markerEnt n allPaths { relMark false with fst := true }] })
      | _ => s

/-- A slat of an image on its new core (R341, R343, R344, R351). (Log 48: DESIGN CHOICE.) -/
def State.restoreSlat (s : State) (seat : SlatAt) (g : Grid) (r : List Byte) : State :=
  let (text, tlen, s) := s.gridText g.ctx g.id
  let w := fld r 0x2258 8
  let t := (Slat.start seat g text tlen 0#64).ofRecord r
  let (hand, s) := s.handler t (natField w 47 44) (natField w 50 48)
  let (t, s) := s.restoreIssue { t with hand := hand } (natField w 47 44) (natField w 50 48)
  let (t, s) := s.restoreLog t r
  { s with slats := s.slats ++ [t] }

/-- A partial of 16 bytes. -/
def Partial.ofNat (n : Nat) : Partial :=
  if n.testBit 127 then .nan
  else match natField n 126 125 with
    | 0 => .sum (BitVec.ofNat 125 n).toInt
    | 1 => .inf false
    | 2 => .inf true
    | _ => .nan

/-- A tile from its block. -/
def Tile.ofBytes (b : List Byte) : Tile :=
  { acc := (List.range 1024).map (fun k => (k, BitVec.ofNat 32 (fld b (4 * k) 4))), mark := [], n := fld b 4096 1 % 8,
    parts := (List.range 1024).map (fun k => (k, Partial.ofNat (fld b (4224 + 16 * k) 16))) }

/-- A core that takes a rank's part of a team section: share, tiles, finish slots (R343, R351). -/
def Core.restore (c : Core) (base spad tbase tiles ctx : Nat) (b : List Byte) : Core :=
  let c := c.prepare base spad tbase tiles (cut b 0 spad)
  let a := up128 spad
  let slots := a + 20608 * tiles
  { c with
    tiles := (List.range tiles).foldl (fun ts i => sput ts (tbase + i) (Tile.ofBytes (cut b (a + 20608 * i) 20608))) c.tiles
    progs := (List.range 16).foldl (fun ps k =>
      if fld b (slots + 128 * k) 1 % 2 = 1 then
        sput ps k ⟨(List.range 16).map (fun i => BitVec.ofNat 32 (fld b (slots + 128 * k + 64 + 4 * i) 4)), ctx⟩
      else ps) c.progs }

/-- The grid that a team section names, or, where the table holds it no longer, one of its shape. -/
def State.gridFor (s : State) (c : Context) (x : ImgTeam) : Grid :=
  let g := s.grid? x.grid
  let r : LaunchRec := { persist := x.persist, sup := x.sup, gang := x.gang, irq := false, deps := [], entry := 0, tiles := x.tiles, spad := x.spad,
                         cores := x.cores, slats := x.slats, gx := 0, gy := 0, gz := 0, done := 0, args := [] }
  { id := x.grid, queue := none, fn := c.fn, ctx := c.ctx, part := c.part, prio := x.prio, level := if x.sup then 1 else 0, depth := x.depth,
    parent := none, launch := (g.elim r (fun g => { g.launch with args := [] })), nextTeam := 0, since := 0, token := none, dead := false,
    met := [] }

/-- The active-grid table's entry of a team takes what the section's header holds, as it stands there (R349). -/
def State.gridAsSaved (s : State) (c : Context) (x : ImgTeam) : State :=
  s.modGrid x.grid (fun g => if g.ctx = c.ctx then
    { g with prio := x.prio, depth := x.depth, launch := { g.launch with persist := x.persist } } else g)

/-- A team of an image placed on a run that has room (R319, R349); none where it has none. The saved arrivals are those of the slats parked at
the barrier, as many as the header counts (R341, R349). (Log 48: DESIGN CHOICE.) The slats' waits are taken up after. -/
def State.restoreTeam (s : State) (c : Context) (b : List Byte) (x : ImgTeam) (first : Nat) : Option State :=
  match s.seats c.part first x.cores x.slats x.spad x.tiles with
  | none => none
  | some seats =>
    let old := s.teams.find? (fun m => m.ctx == c.ctx && m.grid == x.grid && m.idx == x.idx && m.saved)
    let (n, s) := s.fresh
    let uid := old.elim n Team.uid
    let cores := (seats.zipIdx).map (fun k => (first + k.2, k.1.2.1, k.1.2.2))
    let slots := (seats.map (fun k => k.1)).flatten
    let atBar := fun (i : Nat) =>
      let w := fld (x.rec_ b i) 0x2258 8
      natField w 43 41 == 1 && !(w.testBit 40)
    let at_ := ((List.range x.slats).filter atBar ++ (List.range x.slats).filter (fun i => !(atBar i))).take x.arrived
    let m : Team :=
      { uid := uid, grid := x.grid, idx := x.idx, fn := c.fn, ctx := c.ctx, part := c.part, level := if x.sup then 1 else 0, slats := x.slats,
        spad := x.spad, tiles := x.tiles, cores := cores, gang := x.gang, grank := x.grank, arrived := at_, bars := 0, aband := x.bst.testBit 0,
        kslat := natField x.bst 31 16, kcause := natField x.bst 15 8,
        killedAt := if x.bst.testBit 0 then some ((old.bind Team.killedAt).getD s.now) else none, saved := false }
    let g := s.gridFor c x
    let base := s.next
    let rank0 := x.at_ + 256 + 20480 * x.slats
    let rlen := up128 x.spad + 20608 * x.tiles + 2048
    let s : State := { s.gridAsSaved c x with next := base + x.slats, teams := s.teams.filter (fun y => y.uid != uid) ++ [m] }
    let s := (slots.zipIdx).foldl (fun (s : State) k =>
      s.restoreSlat ⟨base + k.2, first + slatRank x.slats x.cores k.2, k.1, uid, k.2⟩ g (x.rec_ b k.2)) s
    some ((cores.zipIdx).foldl (fun (s : State) k =>
      s.modCore k.1.1 (fun q => q.restore k.1.2.1 x.spad k.1.2.2 x.tiles c.ctx (cut b (rank0 + rlen * k.2) rlen))) s)

/-- Teams of an image placed on consecutive runs. -/
def State.restoreRun (s : State) (c : Context) (b : List Byte) : List ImgTeam → Nat → Option State
  | [], _ => some s
  | x :: xs, first => (s.restoreTeam c b x first).bind (fun s => s.restoreRun c b xs (first + x.cores))

/-- The teams that must stand with the first one: those of its gang (R320). -/
def gangHead : List ImgTeam → List ImgTeam
  | [] => []
  | x :: xs => if x.gang = 0 then [x] else x :: xs.takeWhile (fun y => y.grid == x.grid && y.gang == x.gang && y.idx / x.gang == x.idx / x.gang)

/-- Every team of an image placed in one step, each gang at the lowest core that leaves room for the rest; none where the partition lacks
room. -/
def State.restoreAll (s : State) (c : Context) (b : List Byte) : Nat → List ImgTeam → Option State
  | _, [] => some s
  | 0, _ => none
  | fuel + 1, xs =>
    let h := gangHead xs
    let n := (h.map ImgTeam.cores).sum
    (List.range Config.nCores).findSome? (fun f =>
      if f / 160 == (f + n - 1) / 160 then (s.restoreRun c b h f).bind (fun s => s.restoreAll c b fuel (xs.drop h.length)) else none)

/-- The slats of an image with their records. -/
def State.restored (s : State) (c : Context) (b : List Byte) (xs : List ImgTeam) : List (Nat × List Byte) :=
  (xs.map (fun x => match s.teams.find? (fun m => m.ctx == c.ctx && m.grid == x.grid && m.idx == x.idx) with
    | some m => (s.teamSlats m.uid).map (fun t => (t.uid, x.rec_ b t.idx))
    | none => [])).flatten

/-- Steps 4 to 6 of R349: parked until the partition has room, then placed, restored and resumed. -/
def State.placeImage (s : State) (j : Job) (c : Context) (dst n : Nat) (b : List Byte) : State :=
  let xs := imgTeams b n 0
  match s.restoreAll c b n xs with
  | none => s.modSlat j.uid (fun t => if t.park = .none && !t.ended then { t with park := .room } else t)
  | some s1 =>
    let ws := s1.restored c b xs
    let cores := (s1.slats.filter (fun t => ws.any (fun w => w.1 == t.uid))).map Slat.core
    let s1 := ws.foldl (fun (s : State) w => s.rewait w.1 w.2) (s1.startCores s cores)
    let s1 := (s1.teams.filter (fun m => xs.any (fun x => m.ctx == c.ctx && m.grid == x.grid && m.idx == x.idx))).foldl (fun (s : State) m => s.barrier m.uid) s1
    (s1.jobResult j dst (BitVec.ofNat 64 n)).modSlat j.uid (fun t => if t.park = .room then { t with park := .none } else t)

/-- The same, once the text that the slats are looked up in can be read. -/
def State.jobPlace (s : State) (j : Job) (ctx dst n : Nat) (b : List Byte) : State :=
  match s.context? ctx with
  | none => s.endJob j
  | some c => s.hubAtStep c.fn (s.bodyAts c b n) (fun s => s.placeImage j c dst n b)

end Sys2Proof.Machine
end

