-- ==== Sys2Proof/Machine/Links.lean ====
section
/-! DEFINITION. Slot tables and the states of links (R177 to R189, R292 to R294, R306, R392). -/

namespace Sys2Proof.Machine

/-- The error interrupt of the physical function (R360: vector 0). -/
def State.errIrq (s : State) : State := s.irq 0 0

/-- A drawer link or a fabric link. -/
def State.anyLink (s : State) (fab : Bool) (n : Nat) : Link := if fab then s.flink n else s.link n

/-- A link of either kind changed. -/
def State.modAny (s : State) (fab : Bool) (n : Nat) (f : Link → Link) : State := if fab then s.modFlink n f else s.modLink n f

/-- Whether a link of a kind has a number (R177, R292). -/
def linkNo (fab : Bool) (n : Nat) : Bool := if fab then decide (n < 16) else decide (n < 32)

/-- The C-die of a link (R177, R292). -/
def linkDie (fab : Bool) (n : Nat) : Nat := if fab then n / 4 else n / 8

/-- The table of a link's read fibres, derived from its write table (R181). -/
def readTable (t : List Nat) : List Nat := (List.range 128).map (fun k => t.getD ((k + 48) % 128) 31)

/-- The controller is busy (R184). -/
def Stc.busy (c : Stc) : Bool := !c.busyD.isEmpty || !c.busyF.isEmpty

/-- The slot-table controller changed. -/
def State.modStc (s : State) (f : Stc → Stc) : State := { s with stc := f s.stc }

/-- The staging table's 128 bytes (R184). -/
def Stc.table (c : Stc) : List Nat := (List.range 128).map (fun k => sget 0 c.stage k)

/-- A command refused (R184, R396). -/
def State.stcRefuse (s : State) : State := s.modStc (fun c => { c with err := true })

/-- The first slot 0 of a frame that begins at least one frame after the slot a link has reached (R185). -/
def Link.nextFrame (l : Link) : Nat := (l.slot + 255) / 128 * 128

/-- A change of a link's tables that is due by a slot and has not taken effect (R185). -/
def Link.due (l : Link) (slot : Nat) : Bool :=
  l.load.elim false (fun x => decide (x.2 ≤ slot))
    || (l.readSoon && (List.range 128).any (fun i => decide (l.slot + i ≤ slot) && (l.slot + i) % 128 == 80))

/-- A table given to a link (R185): the hub copy changes at once; a link that is Up takes it at the first slot 0 of a frame that begins
at least one frame later, and holds the command until then. -/
def State.giveTable (s : State) (fab : Bool) (n : Nat) (t : List Nat) : State :=
  let up := (s.anyLink fab n).st == .up
  let s := s.modAny fab n (fun l => { l with hub := t, load := if up then some (t, l.nextFrame) else none })
  if !up then s
  else s.modStc (fun c => if fab then { c with busyF := c.busyF ++ [n] } else { c with busyD := c.busyD ++ [n] })

/-- Every link, as (kind, number). -/
def allLinks : List (Bool × Nat) := (List.range 32).map (fun n => (false, n)) ++ (List.range 16).map (fun n => (true, n))

/-- A class owns a slot in a table. -/
def owns (t : List Nat) (c : Nat) : Bool := t.any (fun e => e == c)

/-- A staged table that may not be loaded into a link (R184). (Log 57: DEDUCED.) -/
def State.badTable (s : State) (fab : Bool) (n : Nat) (t : List Nat) : Bool :=
  t.any (fun e => (e.testBit 7 && e % 32 != 0)
      || (!(e.testBit 7) && e % 32 != 31 && !(s.stc.classes.any (fun c => c.1 == e % 32))))
    || (List.range 31).any (fun c => owns t c && allLinks.any (fun l =>
        (l.1 != fab || l.2 != n) && owns (s.anyLink l.1 l.2).hub c
          && partOfDie s.trust.layout (linkDie l.1 l.2) != partOfDie s.trust.layout (linkDie fab n)))

/-- STC_CMD's zero-fields (R184). -/
def stcZero (v : Nat) : Bool := natField v 63 32 == 0 && natField v 23 16 == 0 && natField v 14 13 == 0 && natField v 7 5 == 0

/-- A command of the controller is taken: go, the device ready, the controller not busy (R184, R391). -/
def State.stcTakes (s : State) (v op : Nat) : Bool := s.boot.ready && v.testBit 31 && !s.stc.busy && natField v 30 29 == op

/-- STC_LOAD_TABLE (R184, R185). -/
def execStcLoadTable (v : W64) (s : State) : Out :=
  let n := natField v.toNat 12 8
  .next (if !(s.stcTakes v.toNat 0) then s
    else if !(stcZero v.toNat) || s.badTable false n s.stc.table then s.stcRefuse
    else s.giveTable false n s.stc.table)

/-- FTC_LOAD_TABLE (R293): op 00, link 0 to 15. -/
def execFtcLoadTable (v : W64) (s : State) : Out :=
  let n := natField v.toNat 12 8
  .next (if !(s.boot.ready && v.toNat.testBit 31 && !s.stc.busy) then s
    else if natField v.toNat 30 29 ≠ 0 ∨ !(stcZero v.toNat) ∨ 16 ≤ n ∨ s.badTable true n s.stc.table then s.stcRefuse
    else s.giveTable true n s.stc.table)

/-- The owner that a bind names (R184). -/
def stcOwner (v : Nat) : Owner := if v.testBit 15 then .part (v % 32) else .fn (v % 32)

/-- STC_BIND_CLASS (R184). -/
def execStcBindClass (v : W64) (s : State) : Out :=
  let c := natField v.toNat 28 24
  let o := stcOwner v.toNat
  .next (if !(s.stcTakes v.toNat 1) then s
    else if !(stcZero v.toNat) || c == 31 || s.stc.classes.any (fun x => x.1 == c && x.2 != o) then s.stcRefuse
    else if s.stc.classes.any (fun x => x.1 == c) then s
    else s.modStc (fun k => { k with classes := k.classes ++ [(c, o)] }))

/-- A class released (R184): its entries are open on every link, and it is bound no more. -/
def State.releaseClass (s : State) (c : Nat) : State :=
  let s := allLinks.foldl (fun (s : State) l =>
    let t := (s.anyLink l.1 l.2).hub
    if owns t c then s.giveTable l.1 l.2 (t.map (fun e => if e = c then 31 else e)) else s) s
  s.modStc (fun k => { k with classes := k.classes.filter (fun x => x.1 != c) })

/-- STC_RELEASE_CLASS (R184). -/
def execStcReleaseClass (v : W64) (s : State) : Out :=
  let c := natField v.toNat 28 24
  .next (if !(s.stcTakes v.toNat 2) then s
    else if !(stcZero v.toNat) || c == 31 then s.stcRefuse
    else if s.stc.classes.any (fun x => x.1 == c) then s.releaseClass c else s)

/-- A link's command complete. -/
def State.tableDone (s : State) (fab : Bool) (n : Nat) : State :=
  s.modStc (fun c => if fab then { c with busyF := c.busyF.filter (fun x => x != n) } else { c with busyD := c.busyD.filter (fun x => x != n) })

/-- A link that leaves Up for a state in which it carries nothing (R186): a table on its way takes effect from the hub copy when the link
returns; drawer accesses sent on it and not yet answered are to be sent again (R185, R187). -/
def State.leaveUp (s : State) (fab : Bool) (n : Nat) (st : LinkSt) : State :=
  let s := (s.modAny fab n (fun l => { l with st := st, load := none, readSoon := false })).tableDone fab n
  if fab then s
  else s.modHome (fun h => { h with drawer := h.drawer.map (fun d => if d.sent.map Prod.fst = some n then { d with again := true } else d) })

/-- The requests at their homes that wait for a link in Swap or Retrain have their lanes logged where they are (R187). (Log 58: DEDUCED.) -/
def State.logStalls (s : State) : State :=
  if s.links.any (fun l => l.2.st == .swap || l.2.st == .retrain) then s.home.reqs.foldl State.logStall s else s

/-- Cycles pass, and what waits for a link is logged before they do. -/
def State.tick (s : State) (dt : Nat) : State := if dt = 0 then s else s.logStalls.pass dt

/-- The link that a logged lane waits for, with the reason of R188; none where its line can be had. -/
def State.laneStall (s : State) (t : Slat) (l : LogEntry) : Option (Nat × Nat) :=
  match t.qent? l.seq with
  | none => none
  | some e => (e.lanes.filter (fun x => l.lanes.getLsbD x.l)).findSome? (fun x => (s.lanePa t x.loc).bind (fun p => s.stalled (lineOf p.1)))

/-- Log entries of a slat whose line is stalled no more, by its own link or because it is routed over another: their lanes are ready again, or go
on where they are (R187, R189). -/
def Slat.unstall (s : State) (t : Slat) : Slat :=
  let ended := t.log.filter (fun l => l.kind == 3 && (s.laneStall t l).isNone)
  if ended.isEmpty then t
  else { t with
    queue := t.queue.map (fun e => { e with
      lanes := e.lanes.map (fun x => if ended.any (fun l => l.seq == e.seq && l.names x) then { x with st := .queued, loc := x.loc.anew } else x) })
    log := t.log.filter (fun l => !(ended.contains l)) }

/-- Stalls that are over: the faults of a link resolved, then what another link's fault had been joined to; the jobs that wait look again, and a
fault that nothing awaits is forgotten (R187, R328). -/
def State.unstall (s : State) (n : Nat) : State :=
  let s := (s.hub.faults.filter (fun f => f.kind == 3 && f.link == n)).foldl (fun (s : State) f => s.resolve f.token) s
  let s := s.mapSlats (Slat.unstall s)
  let stall := fun (tok : Nat) => s.hub.faults.any (fun f => f.kind == 3 && f.token == tok)
  let s := s.modHub (fun h => { h with jobs := h.jobs.map (fun j => if (j.tok.map Prod.fst).elim false stall then { j with tok := none } else j) })
  s.modHub (fun h => { h with faults := h.faults.filter (fun f => f.kind != 3 || s.slats.any (fun t => t.awaits f.token)) })

/-- A link back in Up (R185, R187): its tables from the hub copy, what was sent on it sent again, its stalls resolved. (Log 57: DEDUCED.) -/
def State.backUp (s : State) (fab : Bool) (n : Nat) : State :=
  let s := s.modAny fab n (fun l => { l with st := .up, port := l.hub, read := readTable l.hub, load := none, readSoon := false })
  if fab then s
  else
    let s := s.modHome (fun h => { h with drawer := h.drawer.map (fun d => if d.again && d.sent.map Prod.fst == some n then { d with sent := none, again := false } else d) })
    s.unstall n

/-- LINK_SWAP_START (R186): the failing wavelength's fibre is a free choice among those with a spare left, of which it has one fewer from here
on; Retrain and a reset of the link leave the spares as they are. (Log 84: DESIGN CHOICE.) -/
def execLinkSwapStart (fab : Bool) (link : Nat) (s : State) : Out :=
  let l := s.anyLink fab link
  let fibres := (List.range (if fab then 2 else 3)).filter (fun i => decide (0 < l.spares.getD i 0))
  .next (if !(linkNo fab link) || l.st != .up || fibres.isEmpty then s
    else
      let (x, s) := s.freeVal
      let i := fibres.getD (x.toNat % fibres.length) 0
      (s.leaveUp fab link .swap).modAny fab link (fun l =>
        { l with swaps := (l.swaps + 1) % 2 ^ 16, spares := l.spares.set i (l.spares.getD i 0 - 1) }))

/-- LINK_SWAP_END (R186). -/
def execLinkSwapEnd (fab : Bool) (link : Nat) (s : State) : Out :=
  .next (if (s.anyLink fab link).st = .swap then s.backUp fab link else s)

/-- LINK_RETRAIN_START (R186): from Up or Swap. Each change to Retrain counts, one from Swap or from Down too. (Log 84: DESIGN CHOICE.) -/
def execLinkRetrainStart (fab : Bool) (link : Nat) (s : State) : Out :=
  .next (match (s.anyLink fab link).st with
    | .up => if linkNo fab link then (s.leaveUp fab link .retrain).modAny fab link (fun l => { l with retrains := (l.retrains + 1) % 2 ^ 16 }) else s
    | .swap => s.modAny fab link (fun l => { l with st := .retrain, retrains := (l.retrains + 1) % 2 ^ 16 })
    | _ => s)

/-- LINK_TRAIN_SUCCESS (R186). -/
def execLinkTrainSuccess (fab : Bool) (link : Nat) (s : State) : Out :=
  .next (if (s.anyLink fab link).st = .retrain then s.backUp fab link else s)

/-- A request whose read was lost: its lanes are abandoned, logged or not, and its slat takes LINK_DOWN (R189). A prefetch is over. -/
def State.lostRead (s : State) (r : Req) : State :=
  let ls := s.reqLanes r
  let gone := s.modHome (fun h => { h with reqs := h.reqs.filter (fun o => o.id != r.id) })
  if r.msg = .prefetch then gone.doneSent r.uid r.seq
  else match (s.slat? r.uid).bind (fun t => t.qent? r.seq) with
    | some e =>
      let m := laneMask ls
      let c := e.cause 9 1 m
      (gone.modSlat r.uid (fun (t : Slat) => ((t.raise c).logDone e.seq m).dropEntLanes e.seq (fun x => x.st == .sent && ls.contains x.l))).note
        r.uid r.seq 7 (ls.map (fun l => (l, 0, 0#32))) (some c)
    | none => s

/-- A request that waits for one of some lines to be read, to read its own or to update it in place for lanes. -/
def State.readsFor (s : State) (lines : List Nat) (r : Req) : Bool :=
  r.tgt == .mem && r.st == .fresh && (r.msg == .prefetch || !(s.reqLanes r).isEmpty) && (s.missing r.line).any lines.contains

/-- The drawer side of a link's loss (R185, R189): reads sent on it are lost, logged lanes that had not been sent go over other links, writes
are sent again. -/
def State.drawerLost (s : State) (n : Nat) : State :=
  let on := fun (d : DAcc) => d.sent.map Prod.fst == some n
  let lost := (s.home.drawer.filter (fun d => !d.wr && on d)).map DAcc.line
  let s := s.modHome (fun h => { h with
    drawer := (h.drawer.filter (fun d => d.wr || !(on d))).map (fun d => if on d then { d with sent := none, again := false } else d) })
  ((s.home.reqs.filter (s.readsFor lost)).foldl State.lostRead s).unstall n

/-- LINK_DOWN (R186, R189, R292, R306): training fails. -/
def execLinkDown (fab : Bool) (link : Nat) (s : State) : Out :=
  .next (if (s.anyLink fab link).st ≠ .retrain then s
    else
      let s := s.modAny fab link (fun l => { l with st := .down, port := List.replicate 128 0x80, read := List.replicate 128 0x80 })
      let s := s.errIrq
      let s := if fab then (s.fab.xfers.filter (fun x => decide (2 ≤ x.st) && x.link == link)).foldl (fun (s : State) x => s.refuseXfer x 9 1) s
               else s.drawerLost link
      if (if fab then s.upFabric (linkDie fab link) else s.upLinks (linkDie fab link)).isEmpty then s.errIrq else s)

/-- Log entries whose bound has passed and of which the slat has not been told (R188). -/
def Slat.late (t : Slat) (now : Nat) : List LogEntry :=
  t.log.filter (fun l => l.kind == 3 && !l.told && t.slim != 0#64 && decide (l.since + t.slim.toNat * 1024 ≤ now))

/-- LINK_STALL (R188): the cause is pending; the lanes stay logged. Its reason is the state that the link of its line is in as the bound passes,
not that in which the lanes were logged. (Log 85: DESIGN CHOICE.) -/
def execLinkStall (uid : Nat) (s : State) : Out :=
  .next (s.modSlat uid (fun (t : Slat) =>
    let late := t.late s.now
    let why := fun (l : LogEntry) => (s.laneStall t l).elim l.why Prod.snd
    let t := late.foldl (fun (t : Slat) l => match t.qent? l.seq with
      | some e => t.raise (e.cause 8 (why l) l.lanes)
      | none => t) t
    { t with log := t.log.map (fun l => if late.contains l then { l with told := true } else l) }))

/-- LINK_RESET (R392, R395): LNK_RST, at machine level. It counts as a change to Retrain and clears neither count. (Log 84: DESIGN CHOICE.) -/
def execLinkReset (v : W64) (s : State) : Out :=
  let fab := v.getLsbD 30
  let n := natField v.toNat 4 0
  .next (if decide (1 ≤ s.boot.step) && v.getLsbD 31 && linkNo fab n && (s.anyLink fab n).st == .down then
      s.modAny fab n (fun l => { l with st := .retrain, retrains := (l.retrains + 1) % 2 ^ 16 })
    else s)

end Sys2Proof.Machine
end

