-- ==== Sys2Proof/Machine/Drawer.lean ====
section
/-! DEFINITION. Lines between the home slices and the drawer (R177 to R185, R372 to R377, R389). -/

namespace Sys2Proof.Machine

/-- A line to be fetched from the drawer or from host memory, or written to the drawer: the number that was next when it was asked for, whether
as background traffic, the function and partition of its class, its hint (R182). -/
structure Cmd where
  age : Nat
  line : Nat
  wr : Bool
  bg : Bool
  fn : Nat
  part : Nat
  hint : Nat
  deriving DecidableEq, Repr

/-- The reads of some lines, asked for at age, for a function and partition. -/
def readCmds (age : Nat) (bg : Bool) (fn part hint : Nat) (ls : List Nat) : List Cmd := ls.map (fun l => ⟨age, l, false, bg, fn, part, hint⟩)

/-- The background reads of some lines that are not at hand, for the materialisation of a destination line, in the class of its entry's function
(R182, R249). -/
def State.bgReads (s : State) (age line : Nat) (ls : List Nat) : List Cmd :=
  match s.dstOf line with
  | some v => readCmds age true v.fn v.part v.hint (ls.filter (fun l => !(s.near l)))
  | none => []

/-- The background reads that the materialisation of a destination line needs. -/
def State.matReads (s : State) (age line : Nat) : List Cmd := s.bgReads age line (s.realDeps line)

/-- What a request waits to have fetched (R18): its line, for a destination line the sources of its fill (R248) or of its materialisation
(R250), and of its dependents those of theirs while it waits for them (R251); a drain makes them real itself. -/
def State.reqReads (s : State) (r : Req) : List Cmd :=
  if r.tgt ≠ .mem ∨ r.mail then []
  else
    let mats := ((s.joinedDependents r.line).map (s.matReads r.id)).flatten
    if r.st = .mat then mats
    else
      let lines := readCmds r.id false r.fn (s.linePart r.line) r.hint (s.missing r.line)
      let update := if (s.dstOf r.line).isSome then s.matReads r.id r.line else lines
      match r.msg with
      | .stat _ => []
      | .copy _ => []
      | .xfer _ => []
      | .write bs => if s.writable r.line bs then [] else update
      | .read _ _ _ => if (s.dstOf r.line).isSome && !(s.fillWanted r.line) then [] else lines
      | .prefetch => if (s.dstOf r.line).isSome && !(s.fillWanted r.line) then [] else lines
      | .clamp _ _ => if r.viaHw then update else lines
      | .hub rd => if rd then lines else update
      | .clear flush => if s.clearable flush r.line then [] else if flush then update else s.bgReads r.id r.line (s.leaveDeps r.line)
      | _ => if r.settles then update ++ mats else update

/-- What a copy's destination step waits to have fetched: in the background for a line that leaves an entry. -/
def State.stepReads (s : State) (c : Copy) (m : Nat) : List Cmd :=
  let ls := (s.stepDeps c m).filter (fun l => !(s.near l))
  match (s.dstOf m).orElse (fun _ => s.joining c m) with
  | some v => readCmds c.id true v.fn v.part v.hint ls
  | none => readCmds c.id false c.fn c.part c.ops.hint ls

/-- What a copy waits to have fetched: the lines of its source steps, then what its destination steps make real (R231, R248, R250). -/
def State.copyReads (s : State) (c : Copy) : List Cmd :=
  if !c.out then []
  else (c.srcTodo.map (fun l => if (s.dstOf l).isSome && !(s.fillWanted l) then s.matReads c.id l
      else readCmds c.id false c.fn c.part c.ops.hint (s.missing l))).flatten
    ++ (if c.srcTodo.isEmpty then (c.dstTodo.map (s.stepReads c)).flatten else [])

/-- What a promoting entry's lowest remaining line needs (R249). -/
def State.hotReads (s : State) (v : Veneer) : List Cmd :=
  if v.promoting then ((v.lines.find? (fun m => v.isDst m)).map (s.matReads v.since)).getD [] else []

/-- What a copy that is to begin makes real (R254). -/
def State.startReads (s : State) (r : Req) : List Cmd :=
  match r.msg with
  | .copy id => ((s.copy? id).elim [] (fun c => ((s.collapseLines c).map (s.matReads r.id)).flatten))
  | _ => []

/-- Everything that waits to be fetched. -/
def State.asked (s : State) : List Cmd :=
  (s.home.reqs.map s.reqReads).flatten ++ (s.home.copies.map s.copyReads).flatten ++ (s.home.starts.map s.startReads).flatten
    ++ (s.home.veneers.map s.hotReads).flatten

/-- The commands ready for the drawer, oldest first (R182): accesses to be sent again, reads that something waits for, writes. A read whose
line has an access on its way is not sent again. (Log 59: DEDUCED. Log 86: DESIGN CHOICE.) -/
def State.commands (s : State) : List Cmd :=
  let again := (s.home.drawer.filter (fun d => d.sent.isNone)).map (fun d => (⟨d.age, d.line, d.wr, d.bg, d.fn, d.part, d.hint⟩ : Cmd))
  (again ++ s.asked.filter (fun x => paRegion (x.line * 128) == .drawer && !(s.home.drawer.any (fun d => d.line == x.line)))).mergeSort
    (fun x y => decide (x.age ≤ y.age))

/-- What has left in a slot of a link. -/
def State.inSlot (s : State) (link slot : Nat) : List DAcc := s.home.drawer.filter (fun d => d.sent == some (link, slot) && !d.again)

/-- The read fibre of a read (R179): the fibres of a link that is Up are Up, so it is bit 7 of the address. -/
def selOf (line : Nat) : Nat := line % 2

/-- A command finds room in a slot of a link (R178): at most 64 entries in 4 command cells, 32 reads of one read fibre, and as many writes as
the command cells leave cells. -/
def State.slotFits (s : State) (link slot : Nat) (c : Cmd) : Bool :=
  let ds := s.inSlot link slot
  let entries := ds.length + 1
  let writes := (ds.filter DAcc.wr).length + (if c.wr then 1 else 0)
  decide (entries ≤ 64) && decide (writes + (entries + 15) / 16 ≤ 32)
    && (c.wr || decide ((ds.filter (fun d => !d.wr && d.sel == selOf c.line)).length < 32))

/-- The cell that a command's entry names (R178): of a write, its data cell, counted down from 31; of a read, the next cell of its data slot.
(Log 87: DESIGN CHOICE.) -/
def State.cellOf (s : State) (link slot : Nat) (c : Cmd) : Nat :=
  let ds := s.inSlot link slot
  if c.wr then 31 - (ds.filter DAcc.wr).length else (ds.filter (fun d => !d.wr && d.sel == selOf c.line)).length

/-- The commands that a slot of a link may carry (R178, R179, R182): demand accesses first, then background traffic. -/
def State.slotCmds (s : State) (link slot : Nat) : List Cmd :=
  let cs := s.commands.filter (fun c => s.routeOf c.line == some link && s.slotServes (s.link link).port slot c.fn c.part && s.slotFits link slot c)
  if cs.any (fun c => !c.bg) then cs.filter (fun c => !c.bg) else cs

/-- A drawer link reaches a slot (R183): each slot before it, from where the link stands, has passed with nothing ready that it may carry, and
with no change of a table due (R185). Two frames show every entry of the table. -/
def State.reaches (s : State) (link slot : Nat) : Bool :=
  let l := s.link link
  decide (l.slot ≤ slot) && l.st == .up && !(l.due slot) && (List.range (min (slot - l.slot) 256)).all (fun i => (s.slotCmds link (l.slot + i)).isEmpty)

/-- A drawer link at a slot. -/
def State.atSlot (s : State) (link slot : Nat) : State := s.modLink link (fun l => { l with slot := slot })

/-- DRAWER_COMMAND_SLOT (R178, R182, R183): the oldest command that the slot serves leaves in it; a slot with none passes. -/
def execDrawerCommandSlot (link slot line : Nat) (s : State) : Out :=
  .next (if !(s.reaches link slot) then s
    else match s.slotCmds link slot with
      | [] => s.atSlot link slot
      | c :: _ =>
        if c.line ≠ line then s
        else
          let put := fun (d : DAcc) => { d with sent := some (link, slot), sel := selOf line, cell := s.cellOf link slot c }
          let new : DAcc := ⟨c.age, line, false, c.bg, c.fn, c.part, c.hint, [], 0#32, none, 0, 0, false⟩
          (s.modHome (fun h => { h with
            drawer := if h.drawer.any (fun d => d.line == line) then h.drawer.map (fun d => if d.line = line then put d else d)
                      else h.drawer ++ [put new] })).atSlot link slot)

/-- A link reaches a slot but for the change of its tables that takes effect there. -/
def State.switches (s : State) (fab : Bool) (link slot : Nat) (l : Link) : Bool :=
  if fab then l.st == .up && decide (l.slot ≤ slot) && !(l.due slot) else (s.modLink link (fun _ => l)).reaches link slot

/-- SLOT_TABLE_SWITCH (R185): slot 0 of a frame passes, the first that begins at least one frame after the command; the table takes
effect. -/
def execSlotTableSwitch (fab : Bool) (link slot : Nat) (s : State) : Out :=
  .next (match (s.anyLink fab link).load with
    | none => s
    | some (t, k) =>
      if slot ≠ k ∨ s.switches fab link slot { s.anyLink fab link with load := none } = false then s
      else (s.modAny fab link (fun l => { l with slot := slot, port := t, load := none, readSoon := !fab })).tableDone fab link)

/-- READ_TABLE_SWITCH (R181, R185): 80 slots after the write table. -/
def execReadTableSwitch (link slot : Nat) (s : State) : Out :=
  .next (if slot % 128 = 80 ∧ slot < (s.link link).slot + 128 ∧ (s.link link).readSoon ∧ s.switches false link slot { s.link link with readSoon := false } then
      s.modLink link (fun l => { l with slot := slot, read := readTable l.port, readSoon := false })
    else s)

/-- Added to a counter of ERR_STAT, which saturates (R389). -/
def satInc (n : Nat) : Nat := min (n + 1) 65535

/-- A fill that reads the line's ciphertext: it was written, and not abandoned since (R375). -/
def State.fillReads (s : State) (line : Nat) : Bool :=
  match s.trust.sidecars.find? (fun c => c.1 == line), s.tensorOf line with
  | none, _ => false
  | some (_, c), none => c.mode == 2
  | some (_, c), some (f, t) => c.mode != 2 && c.tslot == f * 256 + t.slot && c.gen == t.version % 65536

/-- A fill that arrives (R375, R377, R389): its value, and the counters. -/
def State.arrived (s : State) (line : Nat) (err : FillErr) : LineVal × State :=
  let v := s.fillVal line
  let bad := s.fillReads line && (err == .bad || s.tagFails line)
  let s := if err = .corrected then { s with trust := { s.trust with corr := satInc s.trust.corr } } else s
  if bad then ({ v with marks := 0xFFFFFFFF#32 }, { s with trust := { s.trust with tagf := satInc s.trust.tagf } }) else (v, s)

/-- DRAWER_READ_DATA (R181, R183): 80 slots after its command; the line is filled at its home, unless that holds it already. -/
def execDrawerReadData (link slot line : Nat) (err : FillErr) (s : State) : Out :=
  .next (if !(s.reaches link slot) then s
    else match s.home.drawer.find? (fun d => d.line == line && !d.wr && !d.again && d.sent.elim false (fun x => x.1 == link && x.2 + 80 == slot)) with
      | none => s
      | some d =>
        let s := (s.modHome (fun h => { h with drawer := h.drawer.filter (fun x => x != d) })).atSlot link slot
        let (v, s) := s.arrived line err
        if s.near line then s else s.putL2 line v false d.fn d.hint)

/-- An uncorrectable error in a line that L2 holds, a filled destination line too: all 32 of its words are marked (R175, R377, R388). -/
def State.lineError (s : State) (line : Nat) : State :=
  let bad := fun (x : L2Line) => if x.line = line then { x with val := { x.val with marks := 0xFFFFFFFF#32 } } else x
  s.modHome (fun h => { h with l2 := h.l2.map bad, vfill := h.vfill.map bad })

/-- A line that is to be abandoned: it is not written back (R374). -/
def State.abandoning (s : State) (line : Nat) : Bool := s.home.reqs.any (fun r => r.msg == .clear false && r.line == line)

/-- LINE_WRITE_BACK (R372, R375): a dirty line goes to memory with its sidecar, and to the drawer; evict says that L2 keeps it no longer, and
one that no way holds is not kept. A line that a core owns, that its home is busy with or is to abandon, or whose last write the drawer has not
acknowledged, stays. A filled destination line is dropped (R248). -/
def execLineWriteBack (line : Nat) (evict : Bool) (s : State) : Out :=
  .next (match s.l2? line with
    | none => if evict then s.modHome (fun h => { h with vfill := h.vfill.filter (fun x => x.line != line) }) else s
    | some x =>
      if (s.owner? line).isSome ∨ s.waiting line ∨ s.abandoning line ∨ s.home.drawer.any (fun d => d.line == line) then s
      else
        let s1 :=
          if !x.dirty then s
          else if paRegion (line * 128) = .host then s.toHost line ((List.range 128).map (fun i => (i, x.val.get i))) 0 0
          else (s.putMem line x.val).modHome (fun h => { h with
            drawer := h.drawer ++ [⟨s.next, line, true, true, x.fn, s.linePart line, x.hint, x.val.bytes, x.val.marks, none, 0, 0, false⟩] })
        if evict ∨ Config.l2Ways ≤ x.way then s1.dropL2 line else s1.putL2 line x.val false x.fn x.hint)

/-- DRAWER_WRITE_ACK (R185): in the paired read slot; without it the line is sent again. -/
def execDrawerWriteAck (link slot line : Nat) (ok : Bool) (s : State) : Out :=
  .next (if !(s.reaches link slot) then s
    else match s.home.drawer.find? (fun d => d.line == line && d.wr && !d.again && d.sent.elim false (fun x => x.1 == link && x.2 + 80 == slot)) with
      | none => s
      | some d => (s.modHome (fun h => { h with
          drawer := if ok then h.drawer.filter (fun x => x != d) else h.drawer.map (fun x => if x = d then { x with sent := none } else x) })).atSlot link slot)

end Sys2Proof.Machine
end

