-- ==== Sys2Proof/Machine/HostPort.lean ====
section
/-! DEFINITION. The host port: the line agent, host snoops, responses (R85, R98, R197, R357 to R359). -/

namespace Sys2Proof.Machine

/-- The host port changed. -/
def State.modHost (s : State) (f : HostPort → HostPort) : State := { s with host := f s.host }

/-- The mailbox requests that have reached the line agent, in order (R98). -/
def State.agentQueue (s : State) : List Req := s.home.reqs.filter (fun r => r.mail && !(s.gated r))

/-- A mailbox store performed: its entry is over with its last lane (R82, R98). (Log 27: DEDUCED.) -/
def State.mailDone (s : State) (r : Req) : State := (s.doneSent r.uid r.seq).served r

/-- MAILBOX_ACCESS (R98, R197): the oldest mailbox request that has reached the agent, on a line it holds exclusive. -/
def execMailboxAccess (req : Nat) (s : State) : Out :=
  .next (match s.agentQueue.head? with
    | none => s
    | some r =>
      let u := untagLine r.line
      if r.id ≠ req ∨ !(s.host.owned.contains u) ∨ s.host.queue.any (fun q => q.2.2.any (fun b => untagLine (b.1 / 128) == u)) then s
      else
        let v : LineVal := ⟨s.hostRaw u, s.hostMarks r.line⟩
        match r.msg with
        | .read w lanes _ => (s.answer r w lanes v).served r
        | .write bs => (s.hostWrite r.line (bytesIn r.line bs)).mailDone r
        | .atomic n w sgn ffmt ls => s.atomicOn r n w sgn ffmt ls v (fun s _ bs => s.hostWrite r.line bs)
        | _ => s.mailDone r)

/-- HOST_SNOOP (R98, R358, R359): the host takes a line back from the agent, between two of its steps, and writes what it writes. (Log 60:
DESIGN CHOICE.) -/
def execHostSnoop (line : Nat) (bytes : List (Nat × Byte)) (s : State) : Out :=
  .next (if paRegion (line * 128) ≠ .host ∨ s.boot.modules = 0 then s
    else
      let s := s.modHost (fun h => { h with owned := h.owned.filter (fun l => l != untagLine line) })
      if bytes.isEmpty then s else s.hostWrite line (bytes.filter (fun b => decide (b.1 < 128))))

/-- HOST_PORT_MODULE_LOSS (R357): n modules are removed; HP_STAT.up tells how many remain. -/
def execHostPortModuleLoss (n : Nat) (s : State) : Out := .next { s with boot := { s.boot with modules := s.boot.modules - n } }

/-- HOST_PORT_RESPONSE (R358): a line's data for a request that waits for it; ownership of a line that a mailbox request waits for; the
entry at the head of the host port queue at the host's point of coherence. -/
def execHostPortResponse (r : HostResp) (s : State) : Out :=
  .next (if s.boot.modules = 0 then s
    else match r with
      | .fill line =>
        match s.asked.find? (fun x => untagLine x.line == untagLine line && paRegion (x.line * 128) == .host) with
        | some x => s.putL2 x.line (s.fillVal x.line) false x.fn x.hint
        | none => s
      | .own line =>
        let u := untagLine line
        if s.home.reqs.any (fun r => r.mail && untagLine r.line == u) && !(s.host.owned.contains u) then
          s.modHost (fun h => { h with owned := h.owned ++ [u] })
        else s
      | .ack => match s.host.queue with
        | [] => s
        | q :: rest => (linesOf (q.2.2.map Prod.fst)).foldl (fun (s : State) l => s.hostPut l (bytesIn l q.2.2)) (s.modHost (fun h => { h with queue := rest })))

end Sys2Proof.Machine
end

