-- ==== Sys2Proof/Machine/Functions.lean ====
section
/-! DEFINITION. Contexts, invalidation and flush, function-level reset, the watchdog (R337, R360 to R367). -/

namespace Sys2Proof.Machine

/-- The function that a command in a register space names: in a virtual function's space that function itself (R361, R362). -/
def spaceFn (fn field : Nat) : Nat := if fn = 0 then field else fn

/-- A context command refused (R361, R396). -/
def State.ctxRefuse (s : State) (fn : Nat) : State := s.modFn fn (fun f => { f with ctxErr := true })

/-- A context command of an op is taken in a space (R361). -/
def State.ctxTakes (s : State) (fn : Nat) (v : W64) (op : Nat) : Bool := s.open_ fn && natField v.toNat 63 62 == op

/-- A root table's address. -/
def ctxRoot (v : W64) : Nat := natField v.toNat 51 16 * 65536

/-- TLB entries of some contexts gone. -/
def State.dropTlbs (s : State) (ctxs : List Nat) : State :=
  let s := s.mapCores (fun _ c => { c with tlb := c.tlb.filter (fun e => !(ctxs.contains e.ctx)) })
  { s with dieTlb := s.dieTlb.map (fun d => (d.1, d.2.filter (fun e => !(ctxs.contains e.ctx)))) }

/-- A context as it is created (R171, R345, R361): its bank key is drawn, a protected one gets an image key of a new number; no translation
of an ended context of its number is left. (Log 44: DEDUCED.) -/
def State.newContext (s : State) (f ctx root : Nat) (prot : Bool) : State :=
  let p := (s.fn f).part
  let (n, s) := (s.dropTlbs [ctx]).fresh
  let s := if prot then s.modPart p (fun t => { t with creations := t.creations + 1 }) else s
  let t := s.partTrust p
  let c : Context :=
    { ctx := ctx, fn := f, part := p, prot := prot, root := root, key := Config.bankKey n,
      imgKey := if prot then imageKey p t.epoch ctx t.creations else [], count := 0, out := false, sealed := [], images := [], error := none }
  s.modHub (fun h => { h with contexts := h.contexts ++ [c], ended := h.ended.filter (fun e => e.1 != ctx) })

/-- CONTEXT_CREATE (R361, R371, R385): CTX_CMD op 01. -/
def execContextCreate (fn : Nat) (v : W64) (s : State) : Out :=
  let f := spaceFn fn (natField v.toNat 60 56)
  let ctx := natField v.toNat 15 0
  let prot := v.getLsbD 61
  let p := (s.fn f).part
  .next (if !(s.ctxTakes fn v 1) then s
    else if (s.context? ctx).isSome || paRegion (ctxRoot v) == .none || !(s.fn f).en || s.partProt p != prot
        || (prot && (s.partTrust p).unlocked) then s.ctxRefuse fn
    else s.newContext f ctx (ctxRoot v) prot)

/-- CONTEXT_SET_ROOT (R361): for walks begun after it. -/
def execContextSetRoot (fn : Nat) (v : W64) (s : State) : Out :=
  let f := spaceFn fn (natField v.toNat 60 56)
  let ctx := natField v.toNat 15 0
  .next (if !(s.ctxTakes fn v 3) then s
    else if !((s.context? ctx).elim false (fun c => c.fn == f)) || paRegion (ctxRoot v) == .none || !(s.fn f).en then s.ctxRefuse fn
    else s.modContext ctx (fun c => { c with root := ctxRoot v }))

/-- A slat killed by something outside it, which a rollback of its core does not undo (R337, R361, R387). -/
def State.killOut (s : State) (t : Slat) (code : Nat) (tepc tinfo : W64) (rec_ : Bool) : State :=
  (s.kill t.uid code tepc tinfo rec_).note t.uid 0 2 [] none

/-- A context's slats killed without kill records; its images and waits are over, its grids dead (R361). -/
def State.killCtx (s : State) (ctx : Nat) : State :=
  let s := (s.slats.filter (fun t => t.ctx == ctx && !t.ended)).foldl (fun (s : State) t => s.killOut t 0 (t.ent 0).pc 0#64 false) s
  let s : State := { s with teams := s.teams.filter (fun m => !(m.ctx == ctx && m.saved && m.cores.isEmpty)) }
  let s := s.resume ((s.teams.filter (fun m => m.ctx == ctx)).map Team.uid)
  s.modHub (fun h => { h with grids := h.grids.map (fun g => if g.ctx = ctx then { g with dead := true } else g) })

/-- A queue of an ended context (R337, R361): it enters Fault with code 0xB, unless it is in Overrun, which only a disable leaves (R310). -/
def Queue.orphan (q : Queue) : Queue := if q.st = 3 then q else { q with st := 4, err := 0xB }

/-- A request of an ended context. -/
def Req.orphan (r : Req) (ctx : Nat) : Req := if r.ctx = ctx then { r with ctx := noCtx } else r

/-- A reply to a grant request of an ended context. -/
def Net.orphan (n : Net) (ctx : Nat) : Net :=
  match n.msg with
  | .reply line bf share c g => if c = ctx then { n with msg := .reply line bf share noCtx g } else n
  | _ => n

/-- The records of an ended context, as a rollback may bring them back. -/
def Core.orphan (c : Core) (ctx : Nat) : Core := { c with recs := c.recs.map (fun r => if r.ctx = ctx then { r with ctx := noCtx } else r) }

/-- What an ended context leaves on its way belongs to no context from then on; a load of an image for it is over (R367). -/
def State.orphanWork (s : State) (ctx : Nat) : State :=
  let s := s.mapCores (fun _ c => { c with hw := c.hw.map (fun e => { e with req := e.req.orphan ctx }) })
  let s := s.modHome (fun h => { h with
    reqs := h.reqs.map (fun r => r.orphan ctx)
    net := h.net.map (fun n => n.orphan ctx)
    budget := h.budget.map (fun b => if b.ctx = ctx then { b with ctx := noCtx } else b) })
  let isOver := fun (j : Job) => match j.kind with
    | .place c _ _ _ => c == ctx
    | _ => false
  let s := (s.hub.jobs.filter isOver).foldl (fun (s : State) j =>
    s.modSlat j.uid (fun t => if t.park = .room then { t with park := .none } else t)) s
  let s := s.modHub (fun h => { h with jobs := h.jobs.filter (fun j => !(isOver j)) })
  { s with
    fab := { s.fab with xfers := s.fab.xfers.map (fun x => if x.ctx = ctx then { x with ctx := noCtx } else x) }
    past := s.past.map (fun p => { p with cores := p.cores.map (fun c => (c.1, c.2.orphan ctx)) }) }

/-- A context ended (R361): its records are given up, each through its core's hold window (R213, R214); the frames sealed for it are sealed no
more, and no core holds instructions of them. A queue that nothing has been written to since reset is none of its. (Log 44: DEDUCED.) -/
def State.endContext (s : State) (ctx : Nat) : State :=
  let s := (s.killCtx ctx).giveUpAll State.sendGiveUp (fun r => r.ctx == ctx)
  let gone := (s.context? ctx).toList
  let s := s.mapCores (fun _ c => { c with
    progs := c.progs.filter (fun p => p.2.ctx != ctx)
    l1i := c.l1i.filter (fun x => !(gone.any (fun k => k.seals (x.1 * 128)))) })
  let s := (s.modHome (fun h => { h with regions := h.regions.filter (fun r => r.ctx != ctx) })).orphanWork ctx
  s.modHub (fun h => { h with
    ended := h.ended ++ gone.map (fun k => (k.ctx, k.fn))
    queues := h.queues.map (fun q => (q.1, if q.2.ctx = ctx then q.2.orphan else q.2))
    contexts := h.contexts.filter (fun c => c.ctx != ctx)
    fns := h.fns.map (fun f => (f.1, { f.2 with windows := f.2.windows.filter (fun w => w.2.ctx != ctx || !w.2.v) })) })

/-- CONTEXT_END (R361): CTX_CMD op 10. -/
def execContextEnd (fn : Nat) (v : W64) (s : State) : Out :=
  let f := spaceFn fn (natField v.toNat 60 56)
  let ctx := natField v.toNat 15 0
  .next (if !(s.ctxTakes fn v 2) then s
    else if !((s.context? ctx).elim false (fun c => c.fn == f)) || !(s.fn f).en then s.ctxRefuse fn
    else s.endContext ctx)

/-- Entry idx of a table. -/
def State.tableEntry (s : State) (base idx : Nat) : W64 :=
  BitVec.ofNat 64 (leNat ((addrs (base + 8 * idx) 8).map (fun a => (s.readVal (lineOf a)).get (a % 128))))

/-- The leaves of a table, as (virtual address in 55 bits, bytes, frame): the number counts the levels from this one on (R158). -/
def State.leaves (s : State) (part : Nat) : Nat → Nat → Nat → List (Nat × Nat × Nat)
  | 0, _, _ => []
  | lv + 1, base, va =>
    ((List.range 8192).map (fun idx =>
      let e := s.tableEntry base idx
      let a := va + idx * 2 ^ (16 + 13 * lv)
      match natField e.toNat 63 62 with
      | 1 => s.leaves part lv (pteFrame e) a
      | 2 => if badLeaf s.trust.layout part e (2 ^ (16 + 13 * lv)) then [] else [(a, 2 ^ (16 + 13 * lv), pteFrame e)]
      | _ => [])).flatten

/-- A canonical address of its low 55 bits. -/
def canon55 (a : Nat) : Nat := if 2 ^ 54 ≤ a then a + 2 ^ 64 - 2 ^ 55 else a

/-- A physical address is mapped by a context inside a range; len 0 means every address (R362). -/
def mapsTo (ls : List (Nat × Nat × Nat)) (lo len pa : Nat) : Bool :=
  ls.any (fun l => decide (l.2.2 ≤ pa) && decide (pa < l.2.2 + l.2.1)
    && (len == 0 || (decide (lo < canon55 l.1 + (pa - l.2.2) + 128) && decide (canon55 l.1 + (pa - l.2.2) < lo + len))))

/-- The lines of which anything is held: in L2, an L1, a record, a budget or veneer entry, or the drawer port. -/
def State.heldLines (s : State) : List Nat :=
  (s.home.l2.map L2Line.line ++ (s.cores.map (fun c => c.2.l1.map L1Line.line ++ c.2.recs.map DeltaRec.line)).flatten
    ++ s.home.budget.map Budget.line ++ s.home.owned.map Prod.fst ++ s.home.drawer.map DAcc.line
    ++ (s.home.veneers.map (fun v => v.lines ++ (v.lines.map v.deps).flatten)).flatten).eraseDups

/-- The leaves of some contexts, each context's under the number of its partition. -/
def State.mapsOf (s : State) (ctxs : List Nat) : List (Nat × List (Nat × Nat × Nat)) :=
  (s.hub.contexts.filter (fun c => ctxs.contains c.ctx)).map (fun c => (c.part, s.leaves c.part 3 c.root 0))

/-- A line is host-located and mapped inside a range: the line carries its partition's tag (R371). -/
def hostIn (maps : List (Nat × List (Nat × Nat × Nat))) (lo len line : Nat) : Bool :=
  paRegion (line * 128) == .host && maps.any (fun m => m.1 == line * 128 / 2 ^ 52 && mapsTo m.2 lo len (untagged (line * 128)))

/-- A command's requests to clear some lines, which their homes take in their turn (R18, R362, R374). -/
def State.clearAsk (s : State) (flush : Bool) (num fn : Nat) (lines : List Nat) : State :=
  lines.foldl (fun (s : State) l =>
    let (id, s) := s.fresh
    let r : Req := { id := id, uid := 0, seq := num, path := .ls, core := Config.nCores, ctx := noCtx, fn := fn, part := s.linePart l, tgt := .mem,
                     line := l, hint := 0, mail := false, msg := .clear flush, st := .fresh }
    s.modHome (fun h => { h with reqs := h.reqs ++ [r] })) s

/-- A command has requests at homes that have not been taken. -/
def State.clearing (s : State) (num : Nat) : Bool :=
  s.home.reqs.any (fun r => r.seq == num && (match r.msg with
    | .clear _ => true
    | _ => false))

/-- The host-located lines of a range that a flush acts on (R362). -/
def State.flushLines (s : State) (ctxs : List Nat) (lo len : Nat) : List Nat :=
  let maps := s.mapsOf ctxs
  s.heldLines.filter (hostIn maps lo len)

/-- The lines of a range asked to be flushed by a command. -/
def State.flush (s : State) (num fn : Nat) (ctxs : List Nat) (lo len : Nat) : State := s.clearAsk true num fn (s.flushLines ctxs lo len)

/-- A write to one of some lines of memory is on its way for work begun before a number, or for one of some entries. -/
def State.writing (s : State) (hit : Nat → Bool) (id : Nat) (es : List (Nat × Nat)) : Bool :=
  let mine := fun (n uid seq : Nat) => decide (n < id) || es.contains (uid, seq)
  let req := fun (r : Req) => r.tgt == .mem && hit r.line && mine r.id r.uid r.seq
  s.cores.any (fun c => c.2.hw.any (fun e => req e.req)) || s.home.reqs.any req
    || s.home.copies.any (fun c => mine c.id c.uid c.seq && (segLines c.dst).any hit)
    || s.fab.xfers.any (fun x => mine x.id x.uid x.seq && decide (x.st < 3) && (segLines x.dst).any hit)
    || s.home.counts.any (fun c => decide (c.id < id) && (match c.loc with
      | .mem pa => hit (lineOf pa)
      | .spad _ _ _ => false))

/-- An MM command refused (R362, R396). -/
def State.mmRefuse (s : State) (fn : Nat) : State := s.modFn fn (fun f => { f with mmErr := true })

/-- The partitions, whatever the layout. -/
def allParts : List Nat := List.range 4

/-- The translations of some contexts over a range invalidated in every partition, with the entries formed through them (R336, R362). -/
def State.shootAll (s : State) (ctxs : List Nat) (lo len : Nat) : List (Nat × Nat) × State :=
  ((allParts.map (fun p => s.formed p ctxs lo len)).flatten.eraseDups, allParts.foldl (fun (s : State) p => s.shoot p ctxs lo len) s)

/-- An MM command of an op (R362): refused, or begun as a job of the hub that its busy bit names: an invalidation invalidates, a flush that is to
invalidate asks for its lines first. -/
def State.mmCmd (s : State) (fn : Nat) (v : W64) (op : Nat) : State :=
  let n := v.toNat
  let f := spaceFn fn (natField n 28 24)
  let ctx := natField n 15 0
  if !(s.open_ fn) || !(n.testBit 31) || natField n 30 29 != op || (s.fn fn).mmBusy.isSome then s
  else if natField n 63 32 ≠ 0 ∨ natField n 23 17 ≠ 0 ∨ op = 3 ∨ (n.testBit 16 = false ∧ (s.context? ctx).elim false (fun c => c.fn != f)) then s.mmRefuse fn
  else
    let ctxs := s.ctxsNamed f (n.testBit 16) ctx
    let lo := (s.fn fn).mmBase.toNat
    let len := (s.fn fn).mmLen.toNat
    let (olds, s) := if op = 0 then s.shootAll ctxs lo len else ([], s)
    let (id, s) := s.fresh
    let j : Job := { id := id, uid := 0, ins := 0, cid := 0, pos := 0, len := 0, ent := 0, at_ := s.now, after := 0, tok := none, regen := false,
                     kind := .flush fn op lo len ctxs olds (if op = 2 then 0 else 1) }
    let s := if op = 2 then s.flush id fn ctxs lo len else s
    (s.modHub (fun h => { h with jobs := h.jobs ++ [j] })).modFn fn (fun f => { f with mmBusy := some id })

/-- MM_INVALIDATE (R362): as `tlbi`. -/
def execMmInvalidate (fn : Nat) (v : W64) (s : State) : Out := .next (s.mmCmd fn v 0)
/-- MM_FLUSH (R362). -/
def execMmFlush (fn : Nat) (v : W64) (s : State) : Out := .next (s.mmCmd fn v 1)
/-- MM_FLUSH_INVALIDATE (R362). -/
def execMmFlushInvalidate (fn : Nat) (v : W64) (s : State) : Out := .next (s.mmCmd fn v 2)

/-- An MM command over. -/
def State.endFlush (s : State) (j : Job) (fn : Nat) : State :=
  (s.modHub (fun h => { h with jobs := h.jobs.filter (fun x => x.id != j.id) })).modFn fn (fun f => { f with mmBusy := none })

/-- An MM command goes on (R336, R359, R362). Stage 0: the lines of a flush that is to invalidate are flushed; then the invalidation. Stage 1: every
entry formed through what it cleared leaves its path queue, and what was on its way to the lines of the range reaches them; then they are to be
flushed. Stage 2: they are; a mark stands behind their bytes in the host port queue. Stage 3: the command is over when the mark has left it, so
that all of it is at the host's point of coherence. (Log 88: DEDUCED.) -/
def State.jobFlush (s : State) (j : Job) (fn op lo len : Nat) (ctxs : List Nat) (waits : List (Nat × Nat)) (stage : Nat) : State :=
  let next := fun (s : State) (waits : List (Nat × Nat)) (k : Nat) => s.setJobKind j (.flush fn op lo len ctxs waits k)
  match stage with
  | 0 =>
    if s.clearing j.id then s
    else
      let (olds, s) := s.shootAll ctxs lo len
      next s olds 1
  | 1 =>
    if !(s.stillQueued waits).isEmpty then s
    else if op = 0 then s.endFlush j fn
    else if s.writing (hostIn (s.mapsOf ctxs) lo len) j.id waits then s
    else next (s.flush j.id fn ctxs lo len) waits 2
  | 2 => if s.clearing j.id then s else next (s.modHost (fun h => { h with queue := h.queue ++ [(0, j.id, [])] })) waits 3
  | _ => if s.host.queue.any (fun q => q.1 == 0 && q.2.1 == j.id) then s else s.endFlush j fn

/-- A function-level reset begun (R366, R367): ignored while the function is busy, which it is from now on; of the physical function,
functions 31 down to 1 come first. (Log 45: DEDUCED.) -/
def State.startFlr (s : State) (f : Nat) : State :=
  if 32 ≤ f ∨ (s.fn f).busy ∨ s.boot.ready = false then s
  else
    let fns := if f = 0 then (List.range 32).map (fun i => 31 - i) else [f]
    let (id, s) := s.fresh
    (s.modFn f (fun x => { x with busy := true })).modHub (fun h => { h with
      jobs := h.jobs ++ [{ id := id, uid := 0, ins := 0, cid := 0, pos := 0, len := 0, ent := 0, at_ := s.now, after := 0, tok := none, regen := false,
                           kind := .flr fns 0 }] })

/-- An earlier reset has the function still to do. -/
def State.flrBefore (s : State) (j : Job) (f : Nat) : Bool :=
  s.hub.jobs.any (fun k => decide (k.id < j.id) && (match k.kind with
    | .flr fns _ => fns.contains f
    | _ => false))

/-- The queues of a function Disabled, as by reset (R309, R366). -/
def State.disableQueues (s : State) (f : Nat) : State :=
  s.modHub (fun h => { h with queues := h.queues.map (fun q => (q.1, if q.2.fn = f then { q.2 with st := 0, rp := 0, wp := 0, err := 0, met := [] } else q.2)) })

/-- A core has a drain, a give-up or a reply of a line at its home, which has not taken it. -/
def State.settling (s : State) (line core : Nat) : Bool := s.home.reqs.any (fun r => r.settles && r.line == line && r.core == core)

/-- The budget entries of a function discarded, with what its cores withhold and have not brought to a home (R214, R366): what is at a home
already is added there (R367); no request waits for what is discarded. -/
def State.flrShares (s : State) (f : Nat) (ctxs : List Nat) : State :=
  let s := s.mapCores (fun _ c => { c with recs := c.recs.filter (fun r => !(ctxs.contains r.ctx)) })
  let lines := (s.home.budget.filter (fun b => b.fn == f)).map Budget.line
  let st := fun (r : Req) => match r.st with
    | .drains cs => if r.tgt = .mem ∧ lines.contains r.line then { r with st := .drains (cs.filter (s.settling r.line)) } else r
    | _ => r
  s.modHome (fun h => { h with
    budget := h.budget.filter (fun b => b.fn != f)
    reqs := h.reqs.map st
    net := lines.foldl (fun ns l => ns.filterMap (fun n => n.revoked l)) h.net })

/-- A function's entries of the hold windows discarded (R88, R366), with the copies and transfers that they would have begun. -/
def State.flrWindows (s : State) (f : Nat) : State :=
  let gone := (s.cores.map (fun c => (c.2.hw.filter (fun e => e.req.fn == f)).map (fun e => e.req.msg))).flatten
  let s := s.mapCores (fun _ c => { c with hw := c.hw.filter (fun e => e.req.fn != f) })
  let s := s.modHome (fun h => { h with copies := h.copies.filter (fun c => !(gone.contains (.copy c.id))) })
  { s with fab := { s.fab with xfers := s.fab.xfers.filter (fun x => !(gone.contains (.xfer x.id))) } }

/-- Steps 3 and 4 of R366: contexts ended, their grids and windows' entries discarded, tokens void, records and budget entries gone; the queues stay
Disabled. -/
def State.flrContexts (s : State) (f : Nat) : State :=
  let ctxs := (s.hub.contexts.filter (fun c => c.fn == f)).map Context.ctx
  let s := ctxs.foldl (fun (s : State) c => s.killCtx c) s
  let s := (s.flrWindows f).flrShares f ctxs
  let s := (ctxs.foldl (fun (s : State) c => s.endContext c) s).disableQueues f
  let s := (s.hub.grids.filter (fun g => g.fn == f)).foldl (fun (s : State) g => s.freeGrid g) s
  s.modHub (fun h => { h with
    faults := h.faults.filter (fun x => x.fn != f)
    kills := h.kills.filter (fun k => k.1 != f) })

/-- Steps 5 and 6 of R366: veneers freed without materialisation, counters zero, the L2 lines that the function allocated and the TLB entries of
its contexts gone, those that ended before among them. -/
def State.flrLines (s : State) (f : Nat) (ctxs : List Nat) : State :=
  let gone := ((s.home.veneers.filter (fun v => v.fn == f)).map Veneer.lines).flatten
  let s := s.modHome (fun h => { h with
    veneers := h.veneers.filter (fun v => v.fn != f)
    vfill := h.vfill.filter (fun x => !(gone.contains x.line) && x.fn != f)
    filling := h.filling.filter (fun x => !(gone.contains x.line))
    copies := h.copies.map (fun c => if c.fn = f then { c with perform := c.dstTodo } else c)
    l2 := h.l2.filter (fun x => x.fn != f) })
  (s.dropTlbs (ctxs ++ (s.hub.ended.filter (fun e => e.2 == f)).map Prod.fst)).modFn f (fun x => { x with vrec := 0, vcoll := 0, veag := 0, vmln := 0, vhot := 0 })

/-- A class bound to a function. -/
def State.classOf (s : State) (f : Nat) : Option Nat := (s.stc.classes.find? (fun c => c.2 == .fn f)).map Prod.fst

/-- A function-level reset's next steps (R366): 1 and 2; 3 to 6; 7, one class after another, each behind what the slot-table controller
still does; 8, and the next function. (Log 45: DEDUCED.) -/
def State.jobFlr (s : State) (j : Job) (fns : List Nat) (step : Nat) : State :=
  match fns with
  | [] => s.modHub (fun h => { h with jobs := h.jobs.filter (fun x => x.id != j.id) })
  | f :: rest => match step with
    | 0 => if s.flrBefore j f then s else ((s.modFn f (fun x => { x with busy := true })).disableQueues f).setJobKind j (.flr fns 1)
    | 1 =>
      let ctxs := (s.hub.contexts.filter (fun c => c.fn == f)).map Context.ctx
      ((s.flrContexts f).flrLines f ctxs).setJobKind j (.flr fns 2)
    | _ => match s.classOf f with
      | some c => if s.stc.busy then s else s.releaseClass c
      | none => (s.modFn f (fun x => { x with busy := false, kernels := [], windows := [], groups := [] })).setJobKind j (.flr rest 0)

/-- FN_CTL_RST (R360, R366): FN_CTL written by the physical function with rst; its other fields are stored too. -/
def execFnCtlRst (f : Nat) (v : W64) (s : State) : Out :=
  .next (if !(s.open_ 0) || decide (32 ≤ f) || !(v.getLsbD 31) then s
    else (s.modFn f (fun x => { x with en := v.getLsbD 30, part := natField v.toNat 17 16, ways := natField v.toNat 15 0 })).startFlr f)

/-- INITIATE_FLR (R366, R391). -/
def execInitiateFlr (f : Nat) (s : State) : Out := .next (s.startFlr f)

/-- A count of R337 in units has passed since a cycle; 0 disables it (R386). -/
def expired (now since count unit : Nat) : Bool := count != 0 && decide (since + count * unit ≤ now)

/-- A kill by the watchdog (R324, R337): %tinfo holds the reason. (Log 46: DEDUCED.) -/
def State.wdKill (s : State) (uid reason : Nat) : State :=
  match s.slat? uid with
  | some t => if t.ended then s else s.killOut t 0xF (t.ent (t.taker 0)).pc (BitVec.ofNat 64 (reason * 256)) true
  | none => s

/-- WATCHDOG_SLAT (R337): parked on `tbar` or `clmw`, or held by a header wait, for the function's slat count. -/
def execWatchdogSlat (uid : Nat) (s : State) : Out :=
  .next (match s.slat? uid with
    | none => s
    | some t =>
      let k := s.waitKind t
      if k ≠ 0 ∧ t.parkAt ≠ 0 ∧ expired s.now (t.parkAt - 1) (s.fn t.fn).wdSlat 1024 then s.wdKill uid k else s)

/-- WATCHDOG_ROW (R337): a team that has not ended, the function's row count after a slat-level kill in it. -/
def execWatchdogRow (grid team : Nat) (s : State) : Out :=
  .next (match s.teams.find? (fun m => m.grid == grid && m.idx == team) with
    | none => s
    | some m => match m.killedAt with
      | none => s
      | some k =>
        if s.teamOver m || !(expired s.now k (s.fn m.fn).wdRow 1024) then s
        else ((s.teamSlats m.uid).filter (fun t => !t.ended)).foldl (fun (s : State) t => s.wdKill t.uid 4) s)

/-- WATCHDOG_LAUNCHER (R337): a non-persistent grid live for the function's launcher count, in microseconds of 3000 cycles (R393). -/
def execWatchdogLauncher (grid : Nat) (s : State) : Out :=
  .next (match s.grid? grid with
    | none => s
    | some g =>
      if g.launch.persist || !(expired s.now g.since (s.fn g.fn).wdLnch 3000) then s
      else
        let s := (s.slats.filter (fun t => t.ctx == g.ctx && !t.ended)).foldl (fun (s : State) t => s.wdKill t.uid 5) s
        s.endContext g.ctx)

end Sys2Proof.Machine
end

