-- ==== Sys2Proof/Machine/Regs.lean ====
section
/-! DEFINITION. The register spaces of the functions: what a read returns, what a write stores (R5, R184, R186, R294, R308, R357, R360 to
R364, R370, R374, R381, R386, R389, R391, R394, R396). -/

namespace Sys2Proof.Machine

/-- A flag as a bit of a register. -/
def flag (b : Bool) (k : Nat) : Nat := if b then 2 ^ k else 0

/-- The code of a link's state (R186). -/
def LinkSt.code : LinkSt → Nat
  | .up => 0
  | .swap => 1
  | .retrain => 2
  | .down => 3

/-- LNK_STAT and FLK_STAT (R186, R294). -/
def Link.stat (l : Link) : Nat := l.retrains * 2 ^ 32 + l.swaps * 2 ^ 16 + l.spares.foldl min 4 * 16 + l.st.code

/-- QCTL as it reads (R308). -/
def Queue.ctl (q : Queue) : Nat :=
  q.ctx * 2 ^ 48 + q.fn * 2 ^ 43 + q.cap * 2 ^ 40 + q.prio * 2 ^ 37 + q.lsize * 2 ^ 32 + q.kind * 2 ^ 30 + flag q.dev 29 + flag q.sup 28
    + q.vec * 2 ^ 18 + q.err * 2 ^ 12 + q.st

/-- FN_CTL, FN_QUOTA, FN_VTHR and FN_USE of a function (R360). -/
def State.fnReg (s : State) (f k : Nat) : Nat :=
  let x := s.fn f
  match k with
  | 0 => flag x.busy 32 + flag x.en 30 + x.part * 2 ^ 16 + x.ways
  | 1 => x.shq * 2 ^ 32 + x.vq
  | 2 => x.thr
  | _ => (s.home.budget.filter (fun b => b.fn == f)).length * 2 ^ 32 + s.vused f

/-- ERR_STAT (R389). -/
def Trust.errStat (t : Trust) : Nat := t.corr * 2 ^ 48 + t.tagf * 2 ^ 32 + t.upset * 2 ^ 16 + t.kill

/-- BOOT_STAT (R391): readable from step 4 on. -/
def Boot.stat (b : Boot) : Nat := if b.step < 4 then 0 else flag b.ready 8 + b.dies * 16 + b.step

/-- PWR_STAT (R394): its readings are free values of the moment. (Log 62: DESIGN CHOICE.) -/
def State.pwrStat (s : State) : Nat :=
  let p := Config.powerReading s.now
  p.1 % 65536 * 2 ^ 48 + p.2.1 % 65536 * 2 ^ 32 + s.boot.thr % 16 * 2 ^ 16 + p.2.2 % 65536

/-- A window's dwords (R364). -/
def Window.word (w : Window) (k : Nat) : Nat :=
  match k with
  | 0 => flag w.v 63 + flag w.spad 62 + w.ctx
  | 1 => w.base.toNat
  | 2 => w.len.toNat
  | _ => 0

/-- A window that has not been written. -/
def Window.zero : Window := ⟨false, false, 0, 0#64, 0#64⟩

/-- A group's dwords (R364). -/
def Group.word (g : Group) (k : Nat) : Nat :=
  match k with
  | 0 => flag g.v 63 + g.nm * 2 ^ 32 + g.nc * 2 ^ 16 + g.csz
  | 1 => g.glen * 2 ^ 32 + g.win
  | 2 => g.boff.toNat
  | _ => g.cboff.toNat

/-- A group that has not been written. -/
def Group.zero : Group := ⟨false, 0, 0, 0, 0, 0, 0#64, 0#64⟩

/-- Registers of the physical function alone. -/
def State.readPhys (s : State) (off : Nat) : Nat :=
  if 0x4000 ≤ off ∧ off < 0x4080 then (List.range 8).foldl (fun n i => n + sget 0 s.stc.stage (off - 0x4000 + i) * 256 ^ i) 0
  else if off = 0x4088 then flag s.stc.err 1 + flag s.stc.busy 0
  else if 0x4100 ≤ off ∧ off < 0x4200 then (s.link ((off - 0x4100) / 8)).stat
  else if 0x4200 ≤ off ∧ off < 0x4280 then (s.flink ((off - 0x4200) / 8)).stat
  else if off = 0x4440 then s.boot.modules
  else if off = 0x4500 then s.trust.ups * 256 + s.trust.prot * 16 + s.trust.layout
  else if off = 0x4840 then s.trust.errStat
  else if off = 0x48A0 then s.pwrStat
  else if 0x20000 ≤ off ∧ off < 0x20400 then s.fnReg ((off - 0x20000) / 32) (off % 32 / 8)
  else if 0x20800 ≤ off ∧ off < 0x20A00 then
    let x := s.fn ((off - 0x20800) / 16)
    if off % 16 = 0 then x.wdRow * 2 ^ 32 + x.wdSlat else x.wdLnch
  else 0

/-- Registers of every function's own space. -/
def State.readOwn (s : State) (fn off : Nat) : Nat :=
  let f := s.fn fn
  if off = 0x4408 then flag f.ctxErr 1
  else if off = 0x4420 then f.mmBase.toNat
  else if off = 0x4428 then f.mmLen.toNat
  else if off = 0x4438 then flag f.mmErr 1 + flag f.mmBusy.isSome 0
  else if off = 0x4600 then f.tdBase.toNat
  else if off = 0x4608 then f.tdLen.toNat
  else if off = 0x4618 then flag f.tdErr 1 + flag f.tdBusy.isSome 0
  else if off = 0x4700 then f.jxSrc.toNat
  else if off = 0x4708 then f.jxText.toNat
  else if off = 0x4710 then f.jxData.toNat
  else if off = 0x4720 then f.jxWhy * 256 + flag f.jxErr 1 + flag f.jxBusy 0
  else if 0x5000 ≤ off ∧ off < 0x6000 then
    let k := sget (0#64, 0) f.kernels ((off - 0x5000) / 16)
    if off % 16 = 0 then k.1.toNat else k.2
  else if 0x6000 ≤ off ∧ off < 0x8000 then (sget Window.zero f.windows ((off - 0x6000) / 32)).word (off % 32 / 8)
  else if 0x8000 ≤ off ∧ off < 0x10000 then (sget Group.zero f.groups ((off - 0x8000) / 32)).word (off % 32 / 8)
  else if 0x10000 ≤ off ∧ off < 0x18000 then
    let n := (off - 0x10000) / 32
    let q := s.queue n
    if !(s.queueReach fn n) then 0
    else match off % 32 / 8 with
      | 0 => q.base.toNat
      | 1 => q.ctl
      | 2 => q.rp
      | _ => q.wp
  else 0

/-- What a read of a function's register space returns: zero where no register is, where only the physical function reaches it, while
the function is being reset, and before the device is ready, BOOT_STAT apart (R366, R391). -/
def State.readReg (s : State) (fn off : Nat) : W64 :=
  BitVec.ofNat 64 (if off = 0x4880 ∧ fn = 0 then s.boot.stat
    else if !(s.open_ fn) then 0
    else if fn = 0 then s.readPhys off + s.readOwn fn off
    else s.readOwn fn off)

/-- What the management interface reads (R391, R395): BOOT_STAT from step 4 on, PWR_STAT and ERR_STAT from step 1 on. -/
def State.readMgmt (s : State) (off : Nat) : W64 :=
  BitVec.ofNat 64 (if off = 0x4880 then s.boot.stat
    else if s.boot.step < 1 then 0
    else if off = 0x4840 then s.trust.errStat
    else if off = 0x48A0 then s.pwrStat
    else 0)

/-- STATUS_ERR_CLEAR (R396): 1 written to err of a status register; JX_STAT.why goes with it. -/
def execStatusErrClear (fn off : Nat) (s : State) : Out :=
  .next (if !(s.open_ fn) then s
    else if off = 0x4088 then (if fn = 0 then s.modStc (fun c => { c with err := false }) else s)
    else if off = 0x4408 then s.modFn fn (fun f => { f with ctxErr := false })
    else if off = 0x4438 then s.modFn fn (fun f => { f with mmErr := false })
    else if off = 0x4618 then s.modFn fn (fun f => { f with tdErr := false })
    else if off = 0x4720 then s.modFn fn (fun f => { f with jxErr := false, jxWhy := 0 })
    else s)

/-- A function's configuration block written by the physical function (R360); rst is a step of its own. -/
def Fn.setReg (x : Fn) (k n : Nat) : Fn :=
  match k with
  | 0 => if n.testBit 31 then x else { x with en := n.testBit 30, part := natField n 17 16, ways := natField n 15 0 }
  | 1 => { x with shq := min (natField n 51 32) 524287, vq := min (natField n 10 0) 1024 }
  | 2 => { x with thr := natField n 31 0 }
  | _ => x

/-- A window's dword written (R364). -/
def Window.setWord (w : Window) (k : Nat) (v : W64) : Window :=
  match k with
  | 0 => { w with v := v.getLsbD 63, spad := v.getLsbD 62, ctx := natField v.toNat 15 0 }
  | 1 => { w with base := v }
  | 2 => { w with len := v }
  | _ => w

/-- A group's dword written (R364). -/
def Group.setWord (g : Group) (k : Nat) (v : W64) : Group :=
  let n := v.toNat
  match k with
  | 0 => { g with v := n.testBit 63, nm := natField n 49 32, nc := natField n 31 16, csz := natField n 15 0 }
  | 1 => { g with glen := natField n 63 32, win := natField n 7 0 }
  | 2 => { g with boff := v }
  | _ => { g with cboff := v }

/-- Writes to registers of the physical function alone; bits [6:5] of an entry of the staging table are zero (R4, R184). -/
def State.writePhys (s : State) (off : Nat) (v : W64) : State :=
  let n := v.toNat
  if 0x4000 ≤ off ∧ off < 0x4080 then
    s.modStc (fun c => { c with stage := (List.range 8).foldl (fun m i =>
      let b := n / 256 ^ i % 256
      sput m (off - 0x4000 + i) (b / 128 * 128 + b % 32)) c.stage })
  else if off = 0x4080 then (if s.stcTakes n 3 then s.stcRefuse else s)
  else if 0x20000 ≤ off ∧ off < 0x20400 then s.modFn ((off - 0x20000) / 32) (fun x => x.setReg (off % 32 / 8) n)
  else if 0x20800 ≤ off ∧ off < 0x20A00 then
    s.modFn ((off - 0x20800) / 16) (fun x =>
      if off % 16 = 0 then { x with wdRow := natField n 63 32, wdSlat := natField n 31 0 } else { x with wdLnch := natField n 31 0 })
  else s

/-- Writes to registers of every function's own space. -/
def State.writeOwn (s : State) (fn off : Nat) (v : W64) : State :=
  let n := v.toNat
  if off = 0x4420 then s.modFn fn (fun f => { f with mmBase := v })
  else if off = 0x4428 then s.modFn fn (fun f => { f with mmLen := v })
  else if off = 0x4430 then s.mmCmd fn v 3
  else if off = 0x4600 then s.modFn fn (fun f => { f with tdBase := v })
  else if off = 0x4608 then s.modFn fn (fun f => { f with tdLen := v })
  else if off = 0x4700 then s.modFn fn (fun f => { f with jxSrc := v })
  else if off = 0x4708 then s.modFn fn (fun f => { f with jxText := v })
  else if off = 0x4710 then s.modFn fn (fun f => { f with jxData := v })
  else if 0x5000 ≤ off ∧ off < 0x6000 then
    let k := (off - 0x5000) / 16
    s.modFn fn (fun f =>
      let x := sget (0#64, 0) f.kernels k
      { f with kernels := sput f.kernels k (if off % 16 = 0 then (v, x.2) else (x.1, natField n 15 0)) })
  else if 0x6000 ≤ off ∧ off < 0x8000 then
    let k := (off - 0x6000) / 32
    s.modFn fn (fun f => { f with windows := sput f.windows k ((sget Window.zero f.windows k).setWord (off % 32 / 8) v) })
  else if 0x8000 ≤ off ∧ off < 0x10000 then
    let k := (off - 0x8000) / 32
    s.modFn fn (fun f => { f with groups := sput f.groups k ((sget Group.zero f.groups k).setWord (off % 32 / 8) v) })
  else if 0x10000 ≤ off ∧ off < 0x18000 then
    let k := (off - 0x10000) / 32
    if !(s.queueReach fn k) then s
    else match off % 32 / 8 with
      | 0 => s.modQueue k (fun q => if q.st = 0 then { q with base := v } else q)
      | 1 => if natField n 17 16 = 0 then s.modQueue k (fun q => q.setCtl (fn == 0) v) else s
      | _ => s
  else s

/-- REGISTER_WRITE (R5): a dword write stores the writable fields of its register; a command register's commands are steps of their
own, but for the reserved ops, which are refused. Only a whole dword at a multiple of 8 is a register access; any other write is ignored.
(Log 90: DESIGN CHOICE.) -/
def execRegisterWrite (fn off : Nat) (v : W64) (s : State) : Out :=
  .next (if off % 8 ≠ 0 ∨ s.open_ fn = false then s
    else if fn = 0 then (s.writePhys off v).writeOwn fn off v
    else s.writeOwn fn off v)

end Sys2Proof.Machine
end

