-- ==== Sys2Proof/Machine/Security.lean ====
section
/-! DEFINITION. The security engine: tensor declarations, image loads, partitions, attestation, firmware, debug unlock (R369 to R385,
R395). -/

namespace Sys2Proof.Machine

/-- A line lies in a tensor's range. -/
def Tensor.has (t : Tensor) (line : Nat) : Bool := decide (t.line ≤ line) && decide (line < t.line + t.lines)

/-- A range that no slot declares any more: a line written before its declare, and not since, reads as zero until it is written (R374).
(Log 66: DEDUCED.) -/
def State.undeclare (s : State) (t : Tensor) : State :=
  { s with trust := { s.trust with sidecars := s.trust.sidecars.filter (fun c => !(t.has c.1 && c.2.mode == 2)) } }

/-- The lines of some ranges of which anything is held: each is to be abandoned at its home, as a write-class step in which shares are drained, a
destination leaves its entry, dependents are made real, and every copy is dropped without write-back (R374). -/
def State.abandonRanges (s : State) (num fn : Nat) (ts : List Tensor) : State :=
  s.clearAsk false num fn (s.heldLines.filter (fun l => ts.any (fun t => t.has l)))

/-- The physical run of a device-owned drawer range of a partition: its first line, where there is one (R374). -/
def State.drawerRun (s : State) (ctx part : Nat) (va : W64) (n : Nat) : Option Nat :=
  match s.checkRange ctx part 1 ⟨false, false, false, some 0⟩ va (s.pagesOf ctx part va n) with
  | .error _ => none
  | .ok segs => match segs with
    | [] => some 0
    | g :: _ =>
      if segs.all (fun x => x.2.1 == g.2.1 + x.1 && paRegion x.2.1 == .drawer && drawerPart s.trust.layout x.2.1 == part) then some (g.2.1 / 128) else none

/-- A TD command taken (R374). -/
def State.tdTakes (s : State) (fn : Nat) (v : W64) (op : Nat) : Bool := s.open_ fn && natField v.toNat 63 62 == op

/-- A TD command refused (R374, R396). -/
def State.tdRefuse (s : State) (fn : Nat) : State := s.modFn fn (fun f => { f with tdErr := true })

/-- A command of a function that the security engine has taken, as a job of a kind. -/
def State.secJob (s : State) (kind : JobKind) : Nat × State :=
  let (id, s) := s.fresh
  let j : Job := { id := id, uid := 0, ins := 0, cid := 0, pos := 0, len := 0, ent := 0, at_ := s.now, after := 0, tok := none, regen := false, kind := kind }
  (id, s.modHub (fun h => { h with jobs := h.jobs ++ [j] }))

/-- A TD command that abandons some ranges, which no slot declares as they were any more: its busy bit stays until every line has been abandoned
(R374, R378). -/
def State.tdRun (s : State) (fn : Nat) (old now : List Tensor) : State :=
  let (id, s) := (old.foldl State.undeclare s).secJob (.td fn)
  (s.abandonRanges id fn (old ++ now)).modFn fn (fun f => { f with tdBusy := some id })

/-- A TD command over, once its lines are abandoned. -/
def State.jobTd (s : State) (j : Job) (fn : Nat) : State :=
  if s.clearing j.id then s
  else (s.modHub (fun h => { h with jobs := h.jobs.filter (fun x => x.id != j.id) })).modFn fn (fun f =>
    { f with tdBusy := if f.tdBusy = some j.id then none else f.tdBusy })

/-- TENSOR_DECLARE (R374): a slot with the partition's next version; its range, and the one it had, are abandoned. (Log 52: DEDUCED.) -/
def execTensorDeclare (fn : Nat) (v : W64) (s : State) : Out :=
  let n := v.toNat
  let slot := natField n 55 48
  let ctx := natField n 15 0
  let f := s.fn fn
  .next (if !(s.tdTakes fn v 1) then s
    else if f.tdBase.toNat % 65536 ≠ 0 ∨ f.tdLen.toNat % 65536 ≠ 0 ∨ !((s.context? ctx).elim false (fun c => c.fn == fn)) then s.tdRefuse fn
    else match s.drawerRun ctx f.part f.tdBase f.tdLen.toNat with
      | none => s.tdRefuse fn
      | some line =>
        let lines := f.tdLen.toNat / 128
        let others := (s.hub.fns.map (fun g => (g.2.tensors.filter (fun t => !(g.1 == fn && t.slot == slot))))).flatten
        if others.any (fun t => decide (line < t.line + t.lines) && decide (t.line < line + lines)) then s.tdRefuse fn
        else
          let old := f.tensors.filter (fun t => t.slot == slot)
          let t : Tensor := ⟨slot, natField n 47 16, line, lines, f.part, (s.partTrust f.part).decl⟩
          let s := s.modPart f.part (fun p => { p with decl := (p.decl + 1) % 2 ^ 48 })
          (s.modFn fn (fun f => { f with tensors := f.tensors.filter (fun t => t.slot != slot) ++ [t] })).tdRun fn old [t])

/-- TENSOR_RETIRE (R374): the slot is live no more, its range abandoned. -/
def execTensorRetire (fn : Nat) (v : W64) (s : State) : Out :=
  let slot := natField v.toNat 55 48
  .next (if !(s.tdTakes fn v 2) then s
    else
      let old := (s.fn fn).tensors.filter (fun t => t.slot == slot)
      (s.modFn fn (fun f => { f with tensors := f.tensors.filter (fun t => t.slot != slot) })).tdRun fn old [])

/-- A segment of a JX image (R380). -/
structure JxSeg where
  kind : Nat
  off : Nat
  len : Nat
  load : Nat
  meas : List Byte
  deriving DecidableEq, Repr

/-- The segments of an image's header. -/
def jxSegs (h : List Byte) : List JxSeg :=
  (List.range (leNat (cut h 4 2))).map (fun i =>
    let b := cut h (0x40 + 96 * i) 96
    ⟨leNat (cut b 0 4), leNat (cut b 4 8), leNat (cut b 12 8), leNat (cut b 20 8), cut b 28 64⟩)

/-- Magic, count, kinds and gaps of an image's header (R380). -/
def jxForm (h : List Byte) : Bool :=
  let n := leNat (cut h 4 2)
  let zero := fun (a k : Nat) => (cut h a k).all (fun b => b == 0#8)
  leNat (cut h 0 4) == 0x0001584A && decide (1 ≤ n) && decide (n ≤ 16) && zero 6 58 && zero (0x40 + 96 * n) (96 * (16 - n)) && zero (0x640 + 1793) 63
    && (jxSegs h).all (fun g => decide (1 ≤ g.kind) && decide (g.kind ≤ 4)) && (List.range n).all (fun i => zero (0x40 + 96 * i + 92) 4)

/-- A load refused, with its reason (R381, R396). -/
def State.jxRefuse (s : State) (fn why : Nat) : State := s.modFn fn (fun f => { f with jxErr := true, jxWhy := why, jxBusy := false })

/-- A load of an image goes on: its busy bit stays until the loader is done with it (R381). -/
def State.jxRun (s : State) (fn : Nat) : State := ((s.secJob (.jx fn)).2).modFn fn (fun f => { f with jxBusy := true })

/-- A load over. -/
def State.jobJx (s : State) (j : Job) (fn : Nat) : State :=
  (s.modHub (fun h => { h with jobs := h.jobs.filter (fun x => x.id != j.id) })).modFn fn (fun f => { f with jxBusy := false })

/-- The segments copied, each to its base plus its load offset, in order (R381 step 4); an error keeps what has been copied. -/
def State.jxCopy (s : State) (fn ctx part : Nat) (text data : W64) : List (JxSeg × List Byte) → Except State State
  | [] => .ok s
  | (g, bs) :: rest =>
    if g.kind = 1 ∨ g.kind = 2 then
      match s.hubWriteVa fn ctx part ((if g.kind = 1 then text else data) + BitVec.ofNat 64 g.load) bs with
      | .ok s => s.jxCopy fn ctx part text data rest
      | .error _ => .error s
    else s.jxCopy fn ctx part text data rest

/-- The frames of a text segment, as physical ranges of whole frames (R381 step 5, R382). -/
def State.jxFrames (s : State) (ctx part : Nat) (text : W64) (g : JxSeg) : List (Nat × Nat) :=
  let va := text + BitVec.ofNat 64 g.load
  match s.checkRange ctx part 1 Need.store va (s.pagesOf ctx part va g.len) with
  | .ok segs => segs.map (fun x => (x.2.1 / 65536 * 65536, (x.2.1 + x.2.2 + 65535) / 65536 * 65536 - x.2.1 / 65536 * 65536))
  | .error _ => []

/-- The bytes of the sdata segments at their load offsets. -/
def jxSdata (gs : List (JxSeg × List Byte)) : List Byte :=
  let ss := gs.filter (fun g => g.1.kind == 3)
  let n := ss.foldl (fun n g => max n (g.1.load + g.1.len)) 0
  let m := ss.foldl (fun m g => Memory.writeAll m g.1.load g.2) []
  (List.range n).map (fun i => Memory.read m i)

/-- The text segments of an image as they are loaded, and the addresses that its symbols mark as `.entry`: offsets in the first of them (R39,
R381). -/
def jxImage (text : W64) (gs : List (JxSeg × List Byte)) : Image :=
  let at_ := fun (g : JxSeg × List Byte) => (text + BitVec.ofNat 64 g.1.load).toNat
  let texts := (gs.filter (fun g => g.1.kind == 1)).map (fun g => (at_ g, g.1.len))
  { texts := texts,
    entries := ((gs.filter (fun g => g.1.kind == 4)).map (fun g => (Config.entryOffsets g.2).map (fun o => (texts.head?).elim text.toNat Prod.fst + o))).flatten,
    sdata := jxSdata gs }

/-- Where the segments of an image stand in its context, and where those that are copied go (R381). -/
def jxAts (f : Fn) (c : Context) (segs : List JxSeg) : List HubAt :=
  segs.map (fun g => ⟨c.ctx, c.part, 1, Need.load, f.jxSrc + BitVec.ofNat 64 g.off, g.len⟩)
    ++ (segs.filter (fun g => g.kind == 1 || g.kind == 2)).map (fun g =>
      ⟨c.ctx, c.part, 1, Need.store, (if g.kind = 1 then f.jxText else f.jxData) + BitVec.ofNat 64 g.load, g.len⟩)

/-- A step of a load at some places, taken once they are ready; until then the load is in progress. -/
def State.jxAt (s : State) (fn : Nat) (xs : List HubAt) (go : State → State) : State :=
  if s.hubReady xs then State.hubOver s (go s) xs else (s.hubWant fn xs).modFn fn (fun f => { f with jxBusy := true })

/-- The steps of a load whose header h has been read: key, signature, measurements, copies, seals, extensions, record (R381). -/
def State.jxSteps (s : State) (fn : Nat) (c : Context) (mslot : Nat) (h : List Byte) : State :=
  let f := s.fn fn
  let key := cut h 0x640 1793
  let segs := jxSegs h
  if !(jxForm h) then s.jxRefuse fn 1
  else if !((s.partTrust c.part).enrolled.contains (shake256 32 key)) then s.jxRefuse fn 2
  else if !(Config.falconVerify key (cut h 0 0xD80) (cut h 0xD80 1280)) then s.jxRefuse fn 3
  else s.jxAt fn (jxAts f c segs) (fun s =>
    let reads := segs.map (fun g => (g, s.hubReadVa c.ctx c.part 1 (f.jxSrc + BitVec.ofNat 64 g.off) g.len))
    let gs := reads.filterMap (fun r => match r.2 with
      | .ok bs => some (r.1, bs)
      | .error _ => none)
    if gs.length ≠ segs.length then s.jxRefuse fn 5
    else if gs.any (fun g => measure g.2 != g.1.meas) then s.jxRefuse fn 4
    else match s.jxCopy fn c.ctx c.part f.jxText f.jxData gs with
      | .error s => s.jxRefuse fn 5
      | .ok s =>
        let frames := ((gs.filter (fun g => g.1.kind == 1)).map (fun g => s.jxFrames c.ctx c.part f.jxText g.1)).flatten
        if 64 < c.sealed.length + frames.length then s.jxRefuse fn 6
        else
          let s := s.modContext c.ctx (fun c => { c with sealed := c.sealed ++ frames, images := c.images ++ [jxImage f.jxText gs] })
          (s.modPart c.part (fun p => { p with meas := gs.foldl (fun m g => extendSlot m mslot g.1.meas) p.meas })).jxRun fn)

/-- JX_LOAD (R380, R381): the loader's steps in order, once what they read and write can be reached. (Log 53: DEDUCED.) -/
def execJxLoad (fn : Nat) (v : W64) (s : State) : Out :=
  let n := v.toNat
  let mslot := natField n 58 56
  let f := s.fn fn
  .next (if !(s.open_ fn) || !(n.testBit 63) then s
    else if mslot < 2 then s.jxRefuse fn 1
    else match s.context? (natField n 15 0) with
      | none => s.jxRefuse fn 5
      | some c =>
        if c.fn ≠ fn ∨ f.jxText.toNat % 65536 ≠ 0 then s.jxRefuse fn 5
        else s.jxAt fn [⟨c.ctx, c.part, 1, Need.load, f.jxSrc, 0x1280⟩] (fun s =>
          match s.hubReadVa c.ctx c.part 1 f.jxSrc 0x1280 with
          | .error _ => s.jxRefuse fn 5
          | .ok h => s.jxSteps fn c mslot h))

/-- A partition's keys of its next epoch (R379): creation numbers start again. -/
def PartTrust.rekey (p : PartTrust) : PartTrust :=
  let e := p.epoch + 1
  { p with epoch := e, creations := 0, kc := keyC p.num e, kx := keyX p.num e, ki := keyI p.num e }

/-- Dies of the partitions that a PART_CFG value changes: their dies or their protection (R370). -/
def State.cfgDies (s : State) (layout prot : Nat) : List Nat :=
  let changed := fun (d : Nat) => diesOf layout (partOfDie layout d) != diesOf s.trust.layout (partOfDie s.trust.layout d)
    || prot.testBit d != s.trust.prot.testBit d
  (List.range 4).filter (fun d => (diesOf layout (partOfDie layout d)).any changed)

/-- What host memory holds for some partitions, as bytes: their keys are about to go (R376, R379). -/
def State.hostBaked (s : State) (parts : List Nat) : State :=
  let mine := s.host.crypt.filter (fun c => parts.contains c.2)
  { s with mem := mine.foldl (fun m c => memPutLine m c.1 ⟨s.hostRaw c.1, 0#32⟩) s.mem,
           host := { s.host with crypt := s.host.crypt.filter (fun c => !(parts.contains c.2)) } }

/-- The homes of some partitions as bring-up starts them: nothing is held for a line of theirs (R370). -/
def State.startHomes (s : State) (parts : List Nat) : State :=
  let mine := fun (l : Nat) => parts.contains (s.linePart l)
  s.modHome (fun h => { h with
    l2 := h.l2.filter (fun x => !(mine x.line)), vfill := h.vfill.filter (fun x => !(mine x.line)), filling := h.filling.filter (fun x => !(mine x.line))
    budget := h.budget.filter (fun b => !(mine b.line)), veneers := h.veneers.filter (fun v => !(parts.contains v.part))
    reqs := h.reqs.filter (fun r => !(r.tgt == .mem && mine r.line)), copies := h.copies.filter (fun c => !(parts.contains c.part))
    drawer := h.drawer.filter (fun d => !(mine d.line)), owned := h.owned.filter (fun x => !(mine x.1))
    lastCore := h.lastCore.filter (fun x => !(mine x.1)) })

/-- Dies, and the partitions that hold them, started as bring-up starts them (R370, R390): nothing is held on them or in the drawer ranges
behind them, their links have trained with every table open, and no class bound to one of the partitions, or to a function of one, is left.
(Log 54: DEDUCED.) -/
def State.startDies (s : State) (parts dies : List Nat) : State :=
  let mine := fun (l : Nat) => paRegion (l * 128) == .drawer && dies.contains (l * 128 / 2 ^ 42)
  let s := s.startHomes parts
  let off := fun (core : Nat) => dies.contains (core / Config.coresPerDie)
  let s : State := { s with
    cores := s.cores.filter (fun c => !(off c.1))
    slats := s.slats.filter (fun t => !(off t.core))
    teams := s.teams.filter (fun m => !(m.cores.any (fun c => off c.1)))
    dieTlb := s.dieTlb.filter (fun d => !(dies.contains d.1))
    links := s.links.filter (fun l => !(dies.contains (l.1 / 8)))
    fab := { s.fab with links := s.fab.links.filter (fun l => !(dies.contains (l.1 / 4))) }
    marks := s.marks.filter (fun m => !(mine m.1)) }
  let s := s.modStc (fun c => { c with
    busyD := c.busyD.filter (fun n => !(dies.contains (n / 8)))
    busyF := c.busyF.filter (fun n => !(dies.contains (n / 4)))
    classes := c.classes.filter (fun k => match k.2 with
    | .fn f => !(parts.contains (s.fn f).part)
    | .part p => !(parts.contains p)) })
  { s with trust := { s.trust with sidecars := s.trust.sidecars.filter (fun c => !(mine c.1)) } }

/-- A partition's slots as it is formed: slot 0 holds the firmware that runs (R383, R390). -/
def State.formPart (s : State) (p : Nat) : State := s.modPart p (fun t => { t with meas := extendSlot [] 0 (measure s.trust.firmware) })

/-- PART_CFG as a write leaves it: its zero-fields are ignored (R4, R370). -/
def partCfg (n : Nat) : Nat := natField n 11 8 * 256 + natField n 7 4 * 16 + natField n 1 0

/-- PART_CFG_WRITE (R370, R383): refused before step 8, and while a context of an affected partition lives; slot 1 of every partition is
extended. -/
def execPartCfgWrite (v : W64) (s : State) : Out :=
  let layout := natField v.toNat 1 0
  let prot := natField v.toNat 7 4
  let dies := s.cfgDies layout prot
  let old := (dies.map (partOfDie s.trust.layout)).eraseDups
  let new := (dies.map (partOfDie layout)).eraseDups
  let formed := new.filter (fun p => !((partsOf s.trust.layout).contains p))
  .next (if !s.boot.ready then s
    else if s.hub.contexts.any (fun c => old.contains c.part) then s
    else
      let s := (s.hostBaked old).startDies old dies
      let s : State := { s with trust := { s.trust with layout := layout, prot := prot, ups := natField v.toNat 11 8 } }
      let s := formed.foldl State.formPart (new.foldl (fun (s : State) p => s.modPart p PartTrust.rekey) s)
      (partsOf layout).foldl (fun (s : State) p => s.modPart p (fun t => { t with meas := extendSlot t.meas 1 (measure (leBytes 8 (partCfg v.toNat))) })) s)

/-- PARTITION_MACHINE_RESET (R379, R383, R385): a new epoch and its keys, slots cleared, the unlock over. What the drawer holds was
tagged under keys that are gone. -/
def execPartitionMachineReset (part : Nat) (s : State) : Out :=
  .next (if !((partsOf s.trust.layout).contains part) then s
    else
      let s := (s.hostBaked [part]).modPart part (fun p => { p.rekey with meas := [], unlocked := false })
      { s with trust := { s.trust with sidecars := s.trust.sidecars.map (fun c =>
          if drawerPart s.trust.layout (c.1 * 128) = part then (c.1, { c.2 with old := true }) else c) } })

/-- The signed part of a measurement reply (R383, R385): nonce, partition, slots, pending, debug-unlocked. (Log 55: DESIGN CHOICE.) -/
def State.reportOf (s : State) (part : Nat) (nonce : List Byte) : List Byte :=
  let p := s.partTrust part
  nonce ++ leBytes 1 part ++ ((List.range 8).map (measOf p.meas)).flatten ++ leBytes 1 (flag s.trust.pendingFw.isSome 0) ++ leBytes 1 (flag p.unlocked 0)

/-- The management interface is served (R395): from step 1 of R390 on. -/
def State.managed (s : State) : Bool := decide (1 ≤ s.boot.step)

/-- MEASUREMENT_REQUEST (R383): the reply and its signature under the attestation key. (Log 49: DEDUCED.) -/
def execMeasurementRequest (part : Nat) (nonce : List Byte) (s : State) : Out :=
  let m := s.reportOf part nonce
  .next (if (partsOf s.trust.layout).contains part ∧ s.managed then
      { s with trust := { s.trust with replies := s.trust.replies ++ [m ++ Config.falconSign attestSeed m] } }
    else s)

/-- FIRMWARE_ACTIVATION (R384, R395): verified and accepted; it switches later. -/
def execFirmwareActivation (fw sig : List Byte) (s : State) : Out :=
  .next (if s.managed && Config.falconVerify Config.vendorKey fw sig then { s with trust := { s.trust with pendingFw := some fw } } else s)

/-- FIRMWARE_SWITCH (R384): accepted firmware takes over when the hub is idle; slot 0 of every partition is extended. -/
def execFirmwareSwitch (s : State) : Out :=
  .next (match s.trust.pendingFw with
    | none => s
    | some fw =>
      if !s.hub.jobs.isEmpty then s
      else
        let s : State := { s with trust := { s.trust with firmware := fw, pendingFw := none } }
        (partsOf s.trust.layout).foldl (fun (s : State) p => s.modPart p (fun t => { t with meas := extendSlot t.meas 0 (measure fw) })) s)

/-- DEBUG_UNLOCK (R385, R395): a signed token that names this device and the partition; refused while a protected context of the partition
lives. (Log 55: DESIGN CHOICE.) -/
def execDebugUnlock (part : Nat) (token sig : List Byte) (s : State) : Out :=
  .next (if s.managed && (partsOf s.trust.layout).contains part && Config.falconVerify Config.vendorKey token sig
      && Config.tokenDevice token == Config.deviceLabel && Config.tokenPart token == part
      && !(s.hub.contexts.any (fun c => c.part == part && c.prot)) then s.modPart part (fun p => { p with unlocked := true }) else s)

/-- KEY_ENROLMENT (R381, R383, R395): one of the partition's eight keys; slot 1 is extended. -/
def execKeyEnrolment (part : Nat) (hash : List Byte) (s : State) : Out :=
  .next (if s.managed && (partsOf s.trust.layout).contains part && decide ((s.partTrust part).enrolled.length < 8) && hash.length == 32 then
      s.modPart part (fun p => { p with enrolled := p.enrolled ++ [hash], meas := extendSlot p.meas 1 (measure hash) })
    else s)

end Sys2Proof.Machine
end

