-- ==== Sys2Proof/Machine/Upset.lean ====
section
/-! DEFINITION. Upset reports: a core rolled back 256 cycles, or its slats killed (R387, R388), and the die's throttle bit (R394). -/

namespace Sys2Proof.Machine

/-- The state of slats and cores that a rollback to a cycle returns to. -/
def State.pastAt (s : State) (c : Nat) : Past :=
  match (s.past.filter (fun p => decide (p.at_ ≤ c))).getLast?, s.past with
  | some p, _ => p
  | none, p :: _ => p
  | none, [] => ⟨s.now, s.slats, s.cores⟩

/-- A slat as it was: as the snapshot has it, or as it was first placed. One that something outside it has killed since stays ended; one that a
save had stopped, or that has gone on from a barrier since, comes to the same boundary again before a save stops it (R340). -/
def State.slatAt (s : State) (p : Past) (t : Slat) : Slat :=
  if t.ended && s.answers.any (fun a => a.kind == 2 && a.uid == t.uid && decide (p.at_ ≤ a.at_)) then t
  else
    let old := ((p.slats ++ (s.past.map Past.slats).flatten).find? (fun x => x.uid == t.uid && x.core == t.core)).getD t
    let arrived := (s.team? t.team).elim false (fun m => m.saved || m.arrived.contains t.idx) || decide (old.bars < t.bars)
    { old with redo := if arrived then max t.redo t.begun else 0 }

/-- A record that stays the core's after the rollback: its home still counts the core among the line's sharers (R211). -/
def State.sharesLine (s : State) (core line : Nat) : Bool :=
  (s.budget? line).elim false (fun b => b.sharers.any (fun x => x.1 == core))

/-- Lines that a core has come to own since a cycle, given back to their homes, which have what its atomics have done to them (R191, R387). -/
def State.disown (s : State) (core : Nat) (old : Core) : State :=
  ((s.core core).l1.filter (fun x => x.owned && !((old.l1? x.line).elim false L1Line.owned))).foldl (fun (s : State) x => s.giveBack x.line false) s

/-- A core as it was at a cycle (R387): scratchpad with its marks, tiles, finish slots, engine, records, L1 lines. What the window took in later is
gone; a line owned then and now has what the core's atomics have done to it since, which had entered the window before; one owned then and
recalled since is recalled again; one that has become bounded since is not held (R210); a record granted since is set up again. -/
def State.coreAt (s : State) (core c : Nat) (old new : Core) : Core :=
  let mine := new.l1.filter L1Line.owned
  { new with
    l1 := mine ++ old.l1.filter (fun x => !x.owned && (s.budget? x.line).isNone && !(mine.any (fun y => y.line == x.line)))
    hw := new.hw.filter (fun e => decide (e.since ≤ c))
    spad := old.spad
    spadMark := old.spadMark
    tiles := old.tiles
    progs := old.progs
    eng := old.eng
    recs := old.recs.filter (fun r => s.sharesLine core r.line) }

/-- The records granted since set up again, empty, where the core's L1 has room for them; else they are given up (R211, R387). So is every record
of a context that has ended (R361). -/
def State.regrant (s : State) (core : Nat) (rs : List DeltaRec) : State :=
  let s := rs.foldl (fun (s : State) r =>
    match s.roomL1 core r.line (if r.bf then 2 else 1) (2 * Config.l1Lines) with
    | some s => s.modCore core (fun c => c.putRec (r.empty false))
    | none => s.sendGiveUp core (r.empty false)) s
  ((s.core core).recs.filter (fun r => r.ctx == noCtx)).foldl (fun (s : State) r => s.sendGiveUp core r) s

/-- What a discarded window entry leaves behind: a copy or transfer that never began is forgotten, a force-drain is answered again. -/
def State.discard (s : State) (r : Req) : State :=
  match r.msg with
  | .copy id => s.modHome (fun h => { h with copies := h.copies.filter (fun c => c.id != id) })
  | .xfer id => { s with fab := { s.fab with xfers := s.fab.xfers.filter (fun x => x.id != id) } }
  | .reply _ _ gone dest =>
    let (id, s) := s.fresh
    s.modHome (fun h => { h with net := h.net ++ [⟨id, r.core, .force r.line gone dest, none⟩] })
  | _ => s

/-- The lane of an entry is on its way. -/
def QEnt.out (e : QEnt) (l : Nat) : Bool := e.lanes.any (fun (x : Lane) => x.l == l && x.st == .sent)

/-- A request that reads and that its slat, rolled back, has not made (R387). -/
def State.unmade (s : State) (core : Nat) (r : Req) : Bool :=
  r.core == core && (match r.msg with
    | .read _ _ _ => true
    | .prefetch => true
    | .stat _ => true
    | .clamp (.wait _) _ => true
    | .clamp (.test _ _) _ => true
    | _ => false)
  && (match (s.slat? r.uid).bind (fun t => t.qent? r.seq) with
    | none => true
    | some e => match r.msg with
      | .read _ ls _ => !(ls.all (fun x => e.out x.1))
      | _ => !(e.lanes.any (fun (x : Lane) => x.st == .sent)))

/-- A request serves a lane of an entry. -/
def Req.serves (r : Req) (uid seq l : Nat) : Bool :=
  r.uid == uid && r.seq == seq && (match r.msg with
    | .read _ ls _ => ls.any (fun x => x.1 == l)
    | .atomic _ _ _ _ ls => ls.any (fun x => x.l == l)
    | .own _ _ _ _ ls => ls.any (fun x => x.l == l)
    | _ => true)

/-- The record of a line still waits for an acknowledgement of its drain (R213). -/
def State.drainOut (s : State) (core line : Nat) : Bool :=
  let is := fun (r : Req) => r.core == core && r.line == line && (match r.msg with
    | .drain _ _ => true
    | _ => false)
  s.home.reqs.any is || (s.core core).hw.any (fun e => is e.req) || s.home.net.any (fun n => n.core == core && n.msg == .ack line)

/-- What a lane on its way waits for is still there. -/
def State.laneOut (s : State) (t : Slat) (e : QEnt) (x : Lane) : Bool :=
  match e.op with
  | .engine job => (s.core t.core).eng.any (fun j => j.id == job)
  | .drn _ _ => x.data.elim false (s.drainOut t.core)
  | _ => s.home.reqs.any (fun r => r.serves t.uid e.seq x.l) || (s.core t.core).hw.any (fun h => h.req.serves t.uid e.seq x.l)
    || s.home.copies.any (fun c => c.uid == t.uid && c.seq == e.seq) || s.fab.xfers.any (fun f => f.uid == t.uid && f.seq == e.seq)

/-- An answer of kind 0 or 5 to 8 delivered again to an entry that waits for it. -/
def State.entAgain (s : State) (a : Answer) (e : QEnt) : State :=
  match a.kind, a.lanes, a.cause with
  | 0, ls, _ => ls.foldl (fun (s : State) x =>
      if ((s.slat? a.uid).bind (fun t => t.qent? a.seq)).elim false (fun e => e.out x.1) then s.deliver a.uid a.seq x.1 x.2.1 x.2.2 else s) s
  | 5, [(pa, v, _)], _ => match e.op with
    | .clamp k space sel => s.clampRead a.uid a.seq k space sel (.mem pa) (s.clampVa a.uid a.seq) (Clamp.ofBytes (leBytes 16 v))
    | _ => s
  | 6, [(dst, v, _)], _ => (s.modSlat a.uid (fun t => t.sput dst (BitVec.ofNat 64 v) false)).finishEnt a.uid a.seq
  | 7, ls, some c => s.modSlat a.uid (fun (t : Slat) =>
      (t.raise c).dropEntLanes a.seq (fun x => x.st == .sent && ls.any (fun y => y.1 == x.l)))
  | 8, _, some c => s.modSlat a.uid (fun (t : Slat) => ((t.markStatus a.seq c.code).raise c).finish e)
  | _, _, _ => s

/-- An answer that arrived after the cycle returned to, delivered again to a slat that made its request before (R387). -/
def State.again (s : State) (a : Answer) : State :=
  match s.slat? a.uid with
  | none => s
  | some t => match a.kind with
    | 1 =>
      if s.hub.jobs.any (fun j => j.uid == a.uid && j.ins == a.seq) || !(t.insts.any (fun i => i.id == a.seq)) then s
      else s.modSlat a.uid (fun (t : Slat) =>
        let t := a.lanes.foldl (fun (t : Slat) x => t.sput x.1 (BitVec.ofNat 64 x.2.1) false) t
        let t := t.doneInst a.seq
        match a.cause with
        | some c => t.raise c
        | none => if t.park = .room then { t with park := .none } else t)
    | 2 => s
    | 3 =>
      if t.park = .deq ∧ t.parkDst = a.seq then
        ((s.modSlat a.uid (fun t => a.lanes.foldl (fun (t : Slat) x => t.sput (t.parkDst + x.1) (BitVec.ofNat 64 x.2.1) false) t)).unpark
          a.uid).acqAll a.uid
      else s
    | _ => match t.qent? a.seq with
      | some e => if e.lanes.any (fun (x : Lane) => x.st == .sent) then s.entAgain a e else s
      | none => s

/-- Lanes of a rolled-back slat whose request is over without a value: done. -/
def State.overLanes (s : State) (uid : Nat) : State :=
  match s.slat? uid with
  | none => s
  | some t => t.queue.foldl (fun (s : State) e =>
      let ls := (e.lanes.filter (fun (x : Lane) => x.st == .sent && !(s.laneOut t e x))).map Lane.l
      if ls.isEmpty then s else s.doneLanes uid e.seq ls) s

/-- The page whose regeneration is over and for which what waited on a fault of a slat is a replay (R167): where a leaf of kind 11 stands there
still. -/
def State.regenPage (s : State) (t : Slat) (tok : Nat) : Option Nat :=
  let hit := t.queue.filter (fun e => e.tok.map Prod.fst == some tok || t.log.any (fun l => l.token == tok && l.seq == e.seq))
  let lanes := (hit.map (fun e => e.lanes.filterMap (fun x => match x.loc with
    | .glob va _ => some va
    | _ => none) ++ s.entVas t e)).flatten
  let code := (t.split.filter (fun x => x.2.fetch.map Prod.fst == some tok)).map (fun x => t.wordVa x.2.pc)
  (lanes ++ code).findSome? (fun va => match s.walk t.ctx t.part va with
    | .regen _ size => some (va.toNat / size * size)
    | _ => none)

/-- Wakes tested again (R387): barriers, queues, clamps, children; faults settled since no longer hold anything. An arrival at a barrier stands,
though its slat has still to come there again. -/
def State.retest (s : State) (ts : List Slat) : State :=
  let uids := ts.map Slat.uid
  let s := (ts.filter Slat.atBarrier).foldl (fun (s : State) t => s.arriveBarrier t) s
  let parked := fun (u : Nat) => (s.slat? u).bind (fun t => if t.park = .deq then some t.parkArg.toNat else none)
  let s := s.modHub (fun h => { h with queues := h.queues.map (fun q => (q.1, { q.2 with waiters := q.2.waiters.filter (fun w => !(uids.contains w) || parked w == some q.1) })) })
  let s := uids.foldl (fun (s : State) u => match parked u with
    | some q => if (s.queue q).waiters.contains u then s else s.modQueue q (fun x => { x with waiters := x.waiters ++ [u] })
    | none => s) s
  let s := uids.foldl (fun (s : State) u => match (s.slat? u).bind Slat.watch with
    | some w => s.wake w.loc (s.clampAt w.loc)
    | none => s) s
  let live := s.hub.faults.map FaultRec.token
  let s := uids.foldl (fun (s : State) u => s.modSlat u (fun (t : Slat) =>
    let toks := t.log.map LogEntry.token ++ t.queue.filterMap (fun e => e.tok.map Prod.fst) ++ t.split.filterMap (fun e => e.2.fetch.map Prod.fst)
    (toks.filter (fun k => !(live.contains k))).foldl (fun (t : Slat) k =>
      t.replay k (s.regenPage t k)) t)) s
  s.wakeCwait.serveQueues

/-- A core rolled back to a cycle (R387). (Log 56: DEDUCED.) -/
def State.rollback (s : State) (core c : Nat) : State :=
  let p := s.pastAt c
  let cur := s.core core
  let old := sget Core.reset p.cores core
  let gone := (cur.hw.filter (fun e => decide (c < e.since))).map HwEnt.req
  let since := cur.recs.filter (fun r => !(old.recs.any (fun o => o.line == r.line)))
  let uids := (s.slats.filter (fun t => t.core == core)).map Slat.uid
  let s : State := { s with
    focus := s.focus.bind (fun u => if uids.contains u then none else some u)
    snap := s.snap.bind (fun t => if t.core = core then none else some t) }
  let s := s.disown core old
  let s := (s.mapSlats (fun t => if t.core = core then s.slatAt p t else t)).setCore core (s.coreAt core c old (s.core core))
  let s := (gone.foldl State.discard s).regrant core since
  let s := s.modHome (fun h => { h with reqs := h.reqs.filter (fun r => !(s.unmade core r)) })
  let begun := s.hub.jobs.filter (fun j => uids.contains j.uid && !j.kind.outlives && !((s.slat? j.uid).elim false (fun t => t.insts.any (fun i => i.id == j.ins))))
  let s := begun.foldl (fun (s : State) j => match j.kind with
    | .save _ _ _ _ teams => s.resume teams
    | _ => s) s
  let s := s.modHub (fun h => { h with jobs := h.jobs.filter (fun j => !(begun.any (fun b => b.id == j.id))) })
  let since := s.answers.filter (fun a => decide (c < a.at_))
  let s := (since.filter (fun a => a.kind == 4 && a.uid == core)).foldl (fun (s : State) a =>
    s.modCore core (fun k => (k.bankPut (a.lanes.map (fun x => (x.1, BitVec.ofNat 8 x.2.1)))).bankMark ((a.lanes.filter (fun x => x.2.2 != 0#32)).map Prod.fst))) s
  let s := s.modCore core (fun k => { k with recs := k.recs.map (fun r => if r.draining && !(s.drainOut core r.line) then { r with draining := false } else r) })
  let s := (since.filter (fun a => a.kind != 4 && uids.contains a.uid)).foldl State.again s
  let s := (uids.foldl State.overLanes s).retest (s.slats.filter (fun t => t.core == core))
  { s with past := s.past.map (fun q =>
      if q.at_ ≤ c then q
      else { q with slats := q.slats.map (fun t => if t.core = core then (s.slat? t.uid).getD t else t), cores := sput q.cores core (s.core core) }) }

/-- UPSET_REPORT (R387 to R389): counted; with upset protection the core rolls back, without it its slats are killed. -/
def execUpsetReport (core : Nat) (s : State) : Out :=
  .next (if Config.nCores ≤ core then s
    else
      let s : State := { s with trust := { s.trust with upset := min (s.trust.upset + 1) 65535 } }
      if s.upsOn core then s.rollback core (s.now - 256)
      else
        let s : State := { s with trust := { s.trust with kill := min (s.trust.kill + 1) 65535 } }
        (s.slats.filter (fun t => t.core == core && !t.ended)).foldl (fun (s : State) t =>
          s.kill t.uid 0xA (t.ent (t.taker 0)).pc 0x100#64 true) s)

/-- POWER_THROTTLE (R394): PWR_STAT.thr; throttling only delays work. -/
def execPowerThrottle (die : Nat) (s : State) : Out :=
  .next (if die < 4 then { s with boot := { s.boot with thr := s.boot.thr ||| 2 ^ die } } else s)

/-- POWER_THROTTLE_END (R394). -/
def execPowerThrottleEnd (die : Nat) (s : State) : Out :=
  .next (if die < 4 then { s with boot := { s.boot with thr := s.boot.thr &&& (15 - 2 ^ die) } } else s)

end Sys2Proof.Machine
end

