-- ==== Sys2Proof/Machine/Boot.lean ====
section
/-! DEFINITION. Power-on and the device's boot (R390 to R393), and the steps that the table folds into its instructions: jobs of the hub. -/

namespace Sys2Proof.Machine

/-- A link whose training failed at step 5 of R390: Down, maintenance tables in its port, its hub copy open (R185, R186). -/
def Link.bad : Link := { Link.reset .down with port := List.replicate 128 0x80, read := List.replicate 128 0x80 }

/-- The links that did not train; every other is Up, as one that is not listed. -/
def bootLinks (bad : List Nat) (n : Nat) : List (Nat × Link) := (upTo n (fun i => bad.contains i)).map (fun i => (i, Link.bad))

/-- A link before it has trained (R186, R390 step 5): it carries nothing. -/
def Link.untrained : Link :=
  { Link.reset .retrain with hub := List.replicate 128 0x80, port := List.replicate 128 0x80, read := List.replicate 128 0x80 }

/-- A partition after boot: keys of its next epoch, slot 0 extended with the firmware that runs (R379, R383, R390). -/
def State.bootPart (s : State) (p : Nat) : PartTrust :=
  let e := (s.partTrust p).epoch + 1
  { PartTrust.reset p e with meas := extendSlot [] 0 (measure s.trust.firmware) }

/-- The trust state after boot: the stored layout and protection, ups all 1, nothing written in the drawer (R370, R373); the epoch of a
partition that the layout does not have is stored as well (R379). -/
def State.bootTrust (s : State) : Trust :=
  { Trust.reset with
    layout := s.trust.layout
    prot := s.trust.prot
    parts := (List.range 4).map (fun p => if (partsOf s.trust.layout).contains p then s.bootPart p else PartTrust.reset p (s.partTrust p).epoch)
    firmware := s.trust.firmware
    replies := s.trust.replies }

/-- The trust state where step 1 fails: the non-volatile store keeps layout, protection and epochs, no key is derived and no slot extended, and
the failure is reported (R370, R379, R390). -/
def State.stoppedTrust (s : State) : Trust :=
  { Trust.reset with
    layout := s.trust.layout
    prot := s.trust.prot
    parts := (List.range 4).map (fun p => { PartTrust.reset p (s.partTrust p).epoch with kc := [], kx := [], ki := [], meas := [] })
    firmware := s.trust.firmware
    replies := s.trust.replies ++ [Config.bootFailure] }

/-- BOOT_STAT and the host port's modules after boot: step 8 and ready, or nothing past a firmware that fails (R390, R391). -/
def bootOf (b : BootOutcome) : Boot :=
  if b.fwOk then
    { step := 8, dies := (upTo 4 (fun d => b.dies.contains d)).foldl (fun m d => m + 2 ^ d) 0, ready := true, modules := min b.modules 8, thr := 0 }
  else { step := 0, dies := 0, ready := false, modules := 0, thr := 0 }

/-- The error interrupts of links of a kind that did not train (R186): one for each, and one for each C-die that they leave with none (R179,
R292). -/
def bootIrqs (bad : List Nat) (n perDie : Nat) : Nat :=
  (upTo n (fun i => bad.contains i)).length + (upTo 4 (fun d => (List.range perDie).all (fun k => bad.contains (perDie * d + k)))).length

/-- POWER_ON_RESET (R390 to R393): everything but the hub's non-volatile store and host memory is as boot leaves it; the sequence of steps
to come and the model's own counters go on. Where the firmware fails, nothing after step 1 is done. (Log 11: DEDUCED.) -/
def execPowerOnReset (b : BootOutcome) (s : State) : Out :=
  let links := fun (n : Nat) (bad : List Nat) => if b.fwOk then bootLinks bad n else (List.range n).map (fun i => (i, Link.untrained))
  let errors := if b.fwOk then bootIrqs b.badLinks 32 8 + bootIrqs b.badFab 16 4 else 0
  .next { State.reset with
    agenda := s.agenda
    free := s.free
    next := s.next
    mem := (s.hostBaked (List.range 4)).mem.filter (fun c => paRegion c.1 == .host)
    links := links 32 b.badLinks
    fab := { State.reset.fab with links := links 16 b.badFab }
    trust := if b.fwOk then s.bootTrust else s.stoppedTrust
    boot := bootOf b
    host := { State.reset.host with irqs := s.host.irqs ++ List.replicate errors (0, 0) } }

/-- What a job does next, by its kind. -/
def State.jobDo (s : State) (j : Job) : State :=
  match j.kind with
  | .enq q item dst => s.jobEnq j q item dst
  | .lnch addr dst => match s.slat? j.uid with
    | some t => s.jobLnch j t addr dst
    | none => s
  | .room r dst => match s.slat? j.uid with
    | some t => s.jobRoom j t r dst
    | none => s
  | .tlbi olds => s.jobTlbi j olds
  | .save base len mode dst teams => s.jobSave j base len mode dst teams
  | .wrote _ len dst teams => s.jobWrote j len dst teams
  | .load base dst => s.jobLoad j base dst
  | .place ctx dst n body => s.jobPlace j ctx dst n body
  | .flush fn op lo len ctxs waits stage => s.jobFlush j fn op lo len ctxs waits stage
  | .flr fns step => s.jobFlr j fns step
  | .td fn => s.jobTd j fn
  | .jx fn => s.jobJx j fn

/-- A job's next step: not before the release it waits for is complete (R96), nor while a fault of its own is outstanding (R334), nor while a
rollback could still undo its instruction (R387). -/
def State.jobStep (s : State) (id : Nat) : State :=
  match s.hub.jobs.find? (fun j => j.id == id) with
  | none => s
  | some j =>
    if j.tok.isSome ∨ (s.slat? j.uid).elim false (fun t => t.queue.any (fun e => e.seq == j.after) || !(s.beyond t.core j.at_)) then s else s.jobDo j

end Sys2Proof.Machine
end

