-- ==== Sys2Proof/Machine/Dispatch.lean ====
section
/-! DEFINITION. The meaning of each step of the table, one arm for each. -/

namespace Sys2Proof.Machine

open Sys2Proof

/-- What each step of the table does. -/
def exec (i : Instr) (s : State) : Host.Outcome State Fault Refusal :=
  match i with
  | .clauseIssue core quad => Sys2Proof.Machine.execClauseIssue core quad s
  | .smov o => Sys2Proof.Machine.execSmov o s
  | .sadd o => Sys2Proof.Machine.execSadd o s
  | .ssub o => Sys2Proof.Machine.execSsub o s
  | .smul o => Sys2Proof.Machine.execSmul o s
  | .smulh o => Sys2Proof.Machine.execSmulh o s
  | .sand o => Sys2Proof.Machine.execSand o s
  | .sor o => Sys2Proof.Machine.execSor o s
  | .sxor o => Sys2Proof.Machine.execSxor o s
  | .sshl o => Sys2Proof.Machine.execSshl o s
  | .sshr o => Sys2Proof.Machine.execSshr o s
  | .ssar o => Sys2Proof.Machine.execSsar o s
  | .smin o => Sys2Proof.Machine.execSmin o s
  | .smax o => Sys2Proof.Machine.execSmax o s
  | .scmpSigned o => Sys2Proof.Machine.execScmpSigned o s
  | .scmpUnsigned o => Sys2Proof.Machine.execScmpUnsigned o s
  | .ssel o => Sys2Proof.Machine.execSsel o s
  | .sclz o => Sys2Proof.Machine.execSclz o s
  | .spop o => Sys2Proof.Machine.execSpop o s
  | .sxlat o => Sys2Proof.Machine.execSxlat o s
  | .sli o => Sys2Proof.Machine.execSli o s
  | .slih o => Sys2Proof.Machine.execSlih o s
  | .srd o => Sys2Proof.Machine.execSrd o s
  | .swr o => Sys2Proof.Machine.execSwr o s
  | .saddI o => Sys2Proof.Machine.execSaddI o s
  | .ssubI o => Sys2Proof.Machine.execSsubI o s
  | .smulI o => Sys2Proof.Machine.execSmulI o s
  | .sandI o => Sys2Proof.Machine.execSandI o s
  | .sorI o => Sys2Proof.Machine.execSorI o s
  | .sxorI o => Sys2Proof.Machine.execSxorI o s
  | .sshlI o => Sys2Proof.Machine.execSshlI o s
  | .sshrI o => Sys2Proof.Machine.execSshrI o s
  | .ssarI o => Sys2Proof.Machine.execSsarI o s
  | .scmpSignedI o => Sys2Proof.Machine.execScmpSignedI o s
  | .scmpUnsignedI o => Sys2Proof.Machine.execScmpUnsignedI o s
  | .bra o => Sys2Proof.Machine.execBra o s
  | .braDivergent o => Sys2Proof.Machine.execBraDivergent o s
  | .brx o => Sys2Proof.Machine.execBrx o s
  | .call o => Sys2Proof.Machine.execCall o s
  | .ret o => Sys2Proof.Machine.execRet o s
  | .exit o => Sys2Proof.Machine.execExit o s
  | .yield o => Sys2Proof.Machine.execYield o s
  | .nop o => Sys2Proof.Machine.execNop o s
  | .part o => Sys2Proof.Machine.execPart o s
  | .mov o => Sys2Proof.Machine.execMov o s
  | .iadd o => Sys2Proof.Machine.execIadd o s
  | .isub o => Sys2Proof.Machine.execIsub o s
  | .iaddc o => Sys2Proof.Machine.execIaddc o s
  | .isubb o => Sys2Proof.Machine.execIsubb o s
  | .imul o => Sys2Proof.Machine.execImul o s
  | .imulh o => Sys2Proof.Machine.execImulh o s
  | .imad o => Sys2Proof.Machine.execImad o s
  | .imin o => Sys2Proof.Machine.execImin o s
  | .imax o => Sys2Proof.Machine.execImax o s
  | .iabs o => Sys2Proof.Machine.execIabs o s
  | .lgf o => Sys2Proof.Machine.execLgf o s
  | .shl o => Sys2Proof.Machine.execShl o s
  | .shr o => Sys2Proof.Machine.execShr o s
  | .sar o => Sys2Proof.Machine.execSar o s
  | .rot o => Sys2Proof.Machine.execRot o s
  | .clz o => Sys2Proof.Machine.execClz o s
  | .pop o => Sys2Proof.Machine.execPop o s
  | .brev o => Sys2Proof.Machine.execBrev o s
  | .bfx o => Sys2Proof.Machine.execBfx o s
  | .bfi o => Sys2Proof.Machine.execBfi o s
  | .bmix o => Sys2Proof.Machine.execBmix o s
  | .icmpSigned o => Sys2Proof.Machine.execIcmpSigned o s
  | .icmpUnsigned o => Sys2Proof.Machine.execIcmpUnsigned o s
  | .sel o => Sys2Proof.Machine.execSel o s
  | .iext o => Sys2Proof.Machine.execIext o s
  | .li o => Sys2Proof.Machine.execLi o s
  | .iaddI o => Sys2Proof.Machine.execIaddI o s
  | .isubI o => Sys2Proof.Machine.execIsubI o s
  | .imulI o => Sys2Proof.Machine.execImulI o s
  | .shlI o => Sys2Proof.Machine.execShlI o s
  | .shrI o => Sys2Proof.Machine.execShrI o s
  | .sarI o => Sys2Proof.Machine.execSarI o s
  | .rotI o => Sys2Proof.Machine.execRotI o s
  | .icmpSignedI o => Sys2Proof.Machine.execIcmpSignedI o s
  | .icmpUnsignedI o => Sys2Proof.Machine.execIcmpUnsignedI o s
  | .fadd o => Sys2Proof.Machine.execFadd o s
  | .fsub o => Sys2Proof.Machine.execFsub o s
  | .fmul o => Sys2Proof.Machine.execFmul o s
  | .ffma o => Sys2Proof.Machine.execFfma o s
  | .fmin o => Sys2Proof.Machine.execFmin o s
  | .fmax o => Sys2Proof.Machine.execFmax o s
  | .fcmp o => Sys2Proof.Machine.execFcmp o s
  | .frnd o => Sys2Proof.Machine.execFrnd o s
  | .fscl o => Sys2Proof.Machine.execFscl o s
  | .fclass o => Sys2Proof.Machine.execFclass o s
  | .frcp o => Sys2Proof.Machine.execFrcp o s
  | .frsq o => Sys2Proof.Machine.execFrsq o s
  | .fsqrt o => Sys2Proof.Machine.execFsqrt o s
  | .fex2 o => Sys2Proof.Machine.execFex2 o s
  | .flg2 o => Sys2Proof.Machine.execFlg2 o s
  | .fsin o => Sys2Proof.Machine.execFsin o s
  | .fcos o => Sys2Proof.Machine.execFcos o s
  | .fcvt o => Sys2Proof.Machine.execFcvt o s
  | .pfadd o => Sys2Proof.Machine.execPfadd o s
  | .pfmul o => Sys2Proof.Machine.execPfmul o s
  | .pffma o => Sys2Proof.Machine.execPffma o s
  | .pfcvt o => Sys2Proof.Machine.execPfcvt o s
  | .faddI o => Sys2Proof.Machine.execFaddI o s
  | .fsubI o => Sys2Proof.Machine.execFsubI o s
  | .fmulI o => Sys2Proof.Machine.execFmulI o s
  | .fminI o => Sys2Proof.Machine.execFminI o s
  | .fmaxI o => Sys2Proof.Machine.execFmaxI o s
  | .shf o => Sys2Proof.Machine.execShf o s
  | .shfI o => Sys2Proof.Machine.execShfI o s
  | .vall o => Sys2Proof.Machine.execVall o s
  | .vany o => Sys2Proof.Machine.execVany o s
  | .vbal o => Sys2Proof.Machine.execVbal o s
  | .vmatch o => Sys2Proof.Machine.execVmatch o s
  | .scan o => Sys2Proof.Machine.execScan o s
  | .lred o => Sys2Proof.Machine.execLred o s
  | .isect o => Sys2Proof.Machine.execIsect o s
  | .ld o => Sys2Proof.Machine.execLd o s
  | .st o => Sys2Proof.Machine.execSt o s
  | .lds o => Sys2Proof.Machine.execLds o s
  | .sts o => Sys2Proof.Machine.execSts o s
  | .ldp o => Sys2Proof.Machine.execLdp o s
  | .stp o => Sys2Proof.Machine.execStp o s
  | .sld o => Sys2Proof.Machine.execSld o s
  | .sst o => Sys2Proof.Machine.execSst o s
  | .pref o => Sys2Proof.Machine.execPref o s
  | .acc o => Sys2Proof.Machine.execAcc o s
  | .ldt o => Sys2Proof.Machine.execLdt o s
  | .drn o => Sys2Proof.Machine.execDrn o s
  | .grd o => Sys2Proof.Machine.execGrd o s
  | .bnd o => Sys2Proof.Machine.execBnd o s
  | .atmAdd o => Sys2Proof.Machine.execAtmAdd o s
  | .atmMin o => Sys2Proof.Machine.execAtmMin o s
  | .atmMax o => Sys2Proof.Machine.execAtmMax o s
  | .atmAnd o => Sys2Proof.Machine.execAtmAnd o s
  | .atmOr o => Sys2Proof.Machine.execAtmOr o s
  | .atmXor o => Sys2Proof.Machine.execAtmXor o s
  | .atmXchg o => Sys2Proof.Machine.execAtmXchg o s
  | .atmCas o => Sys2Proof.Machine.execAtmCas o s
  | .atmFadd o => Sys2Proof.Machine.execAtmFadd o s
  | .atmFmax o => Sys2Proof.Machine.execAtmFmax o s
  | .atmsAdd o => Sys2Proof.Machine.execAtmsAdd o s
  | .atmsMin o => Sys2Proof.Machine.execAtmsMin o s
  | .atmsMax o => Sys2Proof.Machine.execAtmsMax o s
  | .atmsAnd o => Sys2Proof.Machine.execAtmsAnd o s
  | .atmsOr o => Sys2Proof.Machine.execAtmsOr o s
  | .atmsXor o => Sys2Proof.Machine.execAtmsXor o s
  | .atmsXchg o => Sys2Proof.Machine.execAtmsXchg o s
  | .atmsCas o => Sys2Proof.Machine.execAtmsCas o s
  | .atmsFadd o => Sys2Proof.Machine.execAtmsFadd o s
  | .atmsFmax o => Sys2Proof.Machine.execAtmsFmax o s
  | .fen o => Sys2Proof.Machine.execFen o s
  | .clmi o => Sys2Proof.Machine.execClmi o s
  | .clmx o => Sys2Proof.Machine.execClmx o s
  | .clma o => Sys2Proof.Machine.execClma o s
  | .clmw o => Sys2Proof.Machine.execClmw o s
  | .clmt o => Sys2Proof.Machine.execClmt o s
  | .tbar o => Sys2Proof.Machine.execTbar o s
  | .cpy o => Sys2Proof.Machine.execCpy o s
  | .cpye o => Sys2Proof.Machine.execCpye o s
  | .rel o => Sys2Proof.Machine.execRel o s
  | .cpys o => Sys2Proof.Machine.execCpys o s
  | .cpym o => Sys2Proof.Machine.execCpym o s
  | .mat o => Sys2Proof.Machine.execMat o s
  | .vdrop o => Sys2Proof.Machine.execVdrop o s
  | .vstat o => Sys2Proof.Machine.execVstat o s
  | .mmaF8 o => Sys2Proof.Machine.execMmaF8 o s
  | .mmaBf o => Sys2Proof.Machine.execMmaBf o s
  | .mmaI8 o => Sys2Proof.Machine.execMmaI8 o s
  | .azero o => Sys2Proof.Machine.execAzero o s
  | .ard o => Sys2Proof.Machine.execArd o s
  | .awr o => Sys2Proof.Machine.execAwr o s
  | .fin o => Sys2Proof.Machine.execFin o s
  | .fpl o => Sys2Proof.Machine.execFpl o s
  | .xput o => Sys2Proof.Machine.execXput o s
  | .xred o => Sys2Proof.Machine.execXred o s
  | .xget o => Sys2Proof.Machine.execXget o s
  | .xfen o => Sys2Proof.Machine.execXfen o s
  | .deq o => Sys2Proof.Machine.execDeq o s
  | .enq o => Sys2Proof.Machine.execEnq o s
  | .lnch o => Sys2Proof.Machine.execLnch o s
  | .cwait o => Sys2Proof.Machine.execCwait o s
  | .trap o => Sys2Proof.Machine.execTrap o s
  | .rti o => Sys2Proof.Machine.execRti o s
  | .brk o => Sys2Proof.Machine.execBrk o s
  | .ctxs o => Sys2Proof.Machine.execCtxs o s
  | .ctxl o => Sys2Proof.Machine.execCtxl o s
  | .tlbi o => Sys2Proof.Machine.execTlbi o s
  | .pathEntryLeave uid seq => Sys2Proof.Machine.execPathEntryLeave uid seq s
  | .faultRecordWrite fn => Sys2Proof.Machine.execFaultRecordWrite fn s
  | .releaseMarkerComplete uid seq => Sys2Proof.Machine.execReleaseMarkerComplete uid seq s
  | .acquireMarkerComplete uid seq => Sys2Proof.Machine.execAcquireMarkerComplete uid seq s
  | .holdWindowExit core => Sys2Proof.Machine.execHoldWindowExit core s
  | .homeRead req => Sys2Proof.Machine.execHomeRead req s
  | .homeWrite req => Sys2Proof.Machine.execHomeWrite req s
  | .atomicStep req => Sys2Proof.Machine.execAtomicStep req s
  | .ownedLineGrant req => Sys2Proof.Machine.execOwnedLineGrant req s
  | .ownedCopyRecall core line => Sys2Proof.Machine.execOwnedCopyRecall core line s
  | .ownedCopyEviction core line => Sys2Proof.Machine.execOwnedCopyEviction core line s
  | .l1Drop core line => Sys2Proof.Machine.execL1Drop core line s
  | .grantRequest req => Sys2Proof.Machine.execGrantRequest req s
  | .grantReply msg => Sys2Proof.Machine.execGrantReply msg s
  | .tolerantRead req => Sys2Proof.Machine.execTolerantRead req s
  | .drain req => Sys2Proof.Machine.execDrain req s
  | .drainAck core line => Sys2Proof.Machine.execDrainAck core line s
  | .spontaneousDrain core line => Sys2Proof.Machine.execSpontaneousDrain core line s
  | .giveUp req => Sys2Proof.Machine.execGiveUp req s
  | .homeAdd req => Sys2Proof.Machine.execHomeAdd req s
  | .forceDrain msg => Sys2Proof.Machine.execForceDrain msg s
  | .forceDrainReply req => Sys2Proof.Machine.execForceDrainReply req s
  | .copySourceStep copy line => Sys2Proof.Machine.execCopySourceStep copy line s
  | .copyDestinationStep copy line => Sys2Proof.Machine.execCopyDestinationStep copy line s
  | .resolutionRead line src => Sys2Proof.Machine.execResolutionRead line src s
  | .veneerFill line => Sys2Proof.Machine.execVeneerFill line s
  | .materialiseRequest line => Sys2Proof.Machine.execMaterialiseRequest line s
  | .materialiseComplete req => Sys2Proof.Machine.execMaterialiseComplete req s
  | .hotMaterialise entry => Sys2Proof.Machine.execHotMaterialise entry s
  | .clampByteCount cnt => Sys2Proof.Machine.execClampByteCount cnt s
  | .clampErrMark cnt => Sys2Proof.Machine.execClampErrMark cnt s
  | .drawerCommandSlot link slot line => Sys2Proof.Machine.execDrawerCommandSlot link slot line s
  | .drawerReadData link slot line err => Sys2Proof.Machine.execDrawerReadData link slot line err s
  | .lineWriteBack line evict => Sys2Proof.Machine.execLineWriteBack line evict s
  | .drawerWriteAck link slot line ok => Sys2Proof.Machine.execDrawerWriteAck link slot line ok s
  | .slotTableSwitch fab link slot => Sys2Proof.Machine.execSlotTableSwitch fab link slot s
  | .readTableSwitch link slot => Sys2Proof.Machine.execReadTableSwitch link slot s
  | .stcLoadTable v => Sys2Proof.Machine.execStcLoadTable v s
  | .stcBindClass v => Sys2Proof.Machine.execStcBindClass v s
  | .stcReleaseClass v => Sys2Proof.Machine.execStcReleaseClass v s
  | .ftcLoadTable v => Sys2Proof.Machine.execFtcLoadTable v s
  | .statusErrClear fn off => Sys2Proof.Machine.execStatusErrClear fn off s
  | .linkSwapStart fab link => Sys2Proof.Machine.execLinkSwapStart fab link s
  | .linkSwapEnd fab link => Sys2Proof.Machine.execLinkSwapEnd fab link s
  | .linkRetrainStart fab link => Sys2Proof.Machine.execLinkRetrainStart fab link s
  | .linkTrainSuccess fab link => Sys2Proof.Machine.execLinkTrainSuccess fab link s
  | .linkDown fab link => Sys2Proof.Machine.execLinkDown fab link s
  | .linkStall uid => Sys2Proof.Machine.execLinkStall uid s
  | .linkReset v => Sys2Proof.Machine.execLinkReset v s
  | .peerPutApply p => Sys2Proof.Machine.execPeerPutApply p s
  | .peerGetServe g => Sys2Proof.Machine.execPeerGetServe g s
  | .getResponse xfer bytes => Sys2Proof.Machine.execGetResponse xfer bytes s
  | .fabricAck xfer => Sys2Proof.Machine.execFabricAck xfer s
  | .switchReductionResult fn group epoch chunk bytes => Sys2Proof.Machine.execSwitchReductionResult fn group epoch chunk bytes s
  | .fabricNack xfer reason => Sys2Proof.Machine.execFabricNack xfer reason s
  | .mailboxAccess req => Sys2Proof.Machine.execMailboxAccess req s
  | .hostSnoop line bytes => Sys2Proof.Machine.execHostSnoop line bytes s
  | .hostPortModuleLoss n => Sys2Proof.Machine.execHostPortModuleLoss n s
  | .queueEnable fn q v => Sys2Proof.Machine.execQueueEnable fn q v s
  | .queuePause fn q v => Sys2Proof.Machine.execQueuePause fn q v s
  | .queueReset fn q v => Sys2Proof.Machine.execQueueReset fn q v s
  | .qwpWrite fn q v => Sys2Proof.Machine.execQwpWrite fn q v s
  | .launchRecordTake => Sys2Proof.Machine.execLaunchRecordTake s
  | .teamPlacement grid firsts => Sys2Proof.Machine.execTeamPlacement grid firsts s
  | .coreStart core => Sys2Proof.Machine.execCoreStart core s
  | .gridRetire grid => Sys2Proof.Machine.execGridRetire grid s
  | .faultResolve fn token => Sys2Proof.Machine.execFaultResolve fn token s
  | .faultReferBack fn token => Sys2Proof.Machine.execFaultReferBack fn token s
  | .watchdogSlat uid => Sys2Proof.Machine.execWatchdogSlat uid s
  | .watchdogRow grid team => Sys2Proof.Machine.execWatchdogRow grid team s
  | .watchdogLauncher grid => Sys2Proof.Machine.execWatchdogLauncher grid s
  | .contextCreate fn v => Sys2Proof.Machine.execContextCreate fn v s
  | .contextEnd fn v => Sys2Proof.Machine.execContextEnd fn v s
  | .contextSetRoot fn v => Sys2Proof.Machine.execContextSetRoot fn v s
  | .mmInvalidate fn v => Sys2Proof.Machine.execMmInvalidate fn v s
  | .mmFlush fn v => Sys2Proof.Machine.execMmFlush fn v s
  | .mmFlushInvalidate fn v => Sys2Proof.Machine.execMmFlushInvalidate fn v s
  | .fnCtlRst f v => Sys2Proof.Machine.execFnCtlRst f v s
  | .initiateFlr f => Sys2Proof.Machine.execInitiateFlr f s
  | .tensorDeclare fn v => Sys2Proof.Machine.execTensorDeclare fn v s
  | .tensorRetire fn v => Sys2Proof.Machine.execTensorRetire fn v s
  | .jxLoad fn v => Sys2Proof.Machine.execJxLoad fn v s
  | .partCfgWrite v => Sys2Proof.Machine.execPartCfgWrite v s
  | .measurementRequest part nonce => Sys2Proof.Machine.execMeasurementRequest part nonce s
  | .firmwareActivation fw sig => Sys2Proof.Machine.execFirmwareActivation fw sig s
  | .firmwareSwitch => Sys2Proof.Machine.execFirmwareSwitch s
  | .debugUnlock part token sig => Sys2Proof.Machine.execDebugUnlock part token sig s
  | .keyEnrolment part hash => Sys2Proof.Machine.execKeyEnrolment part hash s
  | .powerOnReset b => Sys2Proof.Machine.execPowerOnReset b s
  | .upsetReport core => Sys2Proof.Machine.execUpsetReport core s
  | .powerThrottle die => Sys2Proof.Machine.execPowerThrottle die s
  | .registerWrite fn off v => Sys2Proof.Machine.execRegisterWrite fn off v s
  | .hostPortResponse r => Sys2Proof.Machine.execHostPortResponse r s
  | .fabricOutSlot link slot xfer => Sys2Proof.Machine.execFabricOutSlot link slot xfer s
  | .partitionMachineReset part => Sys2Proof.Machine.execPartitionMachineReset part s
  | .powerThrottleEnd die => Sys2Proof.Machine.execPowerThrottleEnd die s

end Sys2Proof.Machine
end

