-- ==== Sys2Proof/Machine/Step.lean ====
section
/-! DEFINITION. One step of the machine: the next instruction of the clause being issued, or the next move of the agenda. -/

namespace Sys2Proof.Machine

/-- The state in which step runs one instruction word next. -/
def State.withFetchWord (s : State) (nbits w : Nat) : State := s.withWord (BitVec.ofNat 64 (w % 2 ^ nbits))

/-- A move of the agenda. -/
def Move.run (m : Move) (s : State) : Host.Outcome State Fault Refusal :=
  match m with
  | .ev i => exec i s
  | .engine core => .next (s.engineStep core)
  | .job id => .next (s.jobStep id)
  | .accError core tile elem => .next (s.tileError core tile elem)
  | .lineError line => .next (s.lineError line)
  | .mask fn vec on => .next (s.maskVector fn vec on)
  | .idle => .next s.serveQueues

/-- One step: while a fragment issues, its next instruction, then its clause's end (R53); else the next move of the agenda, or
a cycle passing. -/
def step (s : State) : Host.Outcome State Fault Refusal :=
  match s.focus with
  | some _ => match s.frag with
    | none => .next { s with focus := none }
    | some (t, u) => match u.words[u.pos]? with
      | none => .next (s.clauseOver t u)
      | some w => match decodeWord w with
        | .ok i => exec i s
        | .error r => .next (s.badWord t u r)
  | none => match s.agenda with
    | [] => .next (s.tick 1)
    | d :: rest => d.move.run ((s.withAgenda rest).tick d.dt)

end Sys2Proof.Machine
end

