-- ==== Sys2Proof/Safety.lean ====
section
/-! DEFINITION. The terms in which claims about the machine are made: what a step leaves alone, what an instruction of each shape
does, the invariant, and what a safe run is. -/

namespace Sys2Proof.Machine

open Sys2Proof

/-- The scratchpads of some cores are in canonical form. -/
def spadsWf (cs : List (Nat × Core)) : Bool := cs.all (fun c => Memory.wf c.2.spad)

/-- The invariant every step keeps: main and host memory, every core's scratchpad, and the scratchpads that a rollback may bring back
are in canonical form. -/
def State.Inv (s : State) : Prop :=
  Memory.wf s.mem = true ∧ spadsWf s.cores = true ∧ s.past.all (fun p => spadsWf p.cores) = true

/-- The machine goes on from a state. -/
def State.runs (s : State) : Prop := ∃ t, step s = .next t

/-- A safe run of n steps: no step of it faults or is refused. -/
def State.safeFor : Nat → State → Prop
  | 0, _ => True
  | n + 1, s => ∃ t, step s = .next t ∧ t.safeFor n

/-- Two states that differ in the slat of a number alone: memory, homes, cores, hub, links and every other slat are the same. -/
def OnlySlat (uid : Nat) (s s' : State) : Prop :=
  s' = { s with slats := s'.slats } ∧ ∀ x, x ≠ uid → s'.slat? x = s.slat? x

/-- An instruction of the issuing fragment completes with an effect on its slat and clause alone. -/
def Completes (i : Instr) (s : State) (t' : Slat) (u' : Issue) : Prop := exec i s = .next (s.advance t' u')

/-- A step of the table is taken, to a state of which P holds. -/
def Yields (i : Instr) (s : State) (P : State → Prop) : Prop := ∃ s', exec i s = .next s' ∧ P s'

/-- A scalar instruction writes one scalar register and nothing else. -/
def ScalarGives (i : Instr) (s : State) (t : Slat) (u : Issue) (d : Nat) (x : W64) : Prop :=
  ∃ t', Completes i s t' u ∧ t'.sget d = x ∧ (∀ n, n ≠ d → t'.sget n = t.sget n) ∧ t' = { t with s := t'.s, sp := t'.sp }

/-- A vector instruction gives each lane of ls one word: in register d, unless nw holds it back, and in the latch of its place; no
other lane, register or field of the slat changes. -/
def LanesGive (i : Instr) (s : State) (t : Slat) (u : Issue) (nw : Bool) (d : Nat) (ls : List Nat) (f : Nat → W32) : Prop :=
  ∃ t' u', Completes i s t' u'
    ∧ (nw = false → ∀ l, l ∈ ls → t'.vget d l = f l)
    ∧ (∀ n l, l < 32 → (n ≠ d ∨ l ∉ ls ∨ nw = true) → t'.vget n l = t.vget n l)
    ∧ (∀ l, l ∈ ls → Sys2Proof.sget 0#32 u'.lat (32 * (u.pos % 4) + l) = f l)
    ∧ t' = { t with v := t'.v, vp := t'.vp }
    ∧ u' = { u with lat := u'.lat, outs := u'.outs }

/-- The same with a 64-bit result in the registers d (low half) and d + 1, and no latch. -/
def LanesGive64 (i : Instr) (s : State) (t : Slat) (u : Issue) (d : Nat) (ls : List Nat) (f : Nat → W64) : Prop :=
  ∃ t' u', Completes i s t' u'
    ∧ (∀ l, l ∈ ls → t'.vget (d + 1) l ++ t'.vget d l = f l)
    ∧ (∀ n l, l < 32 → ((n ≠ d ∧ n ≠ d + 1) ∨ l ∉ ls) → t'.vget n l = t.vget n l)
    ∧ t' = { t with v := t'.v, vp := t'.vp }
    ∧ u' = { u with outs := u'.outs }

/-- A vector instruction gives each lane of ls one bit of the predicate d; p7 reads true whatever is written. -/
def LanesTest (i : Instr) (s : State) (t : Slat) (u : Issue) (d : Nat) (ls : List Nat) (f : Nat → Bool) : Prop :=
  ∃ t', Completes i s t' u
    ∧ (∀ l, l ∈ ls → d ≠ 7 → t'.pget d l = f l)
    ∧ (∀ n l, l < 32 → (n ≠ d ∨ l ∉ ls) → t'.pget n l = t.pget n l)
    ∧ t' = { t with p := t'.p }

/-- The sources of a vector instruction hold no poison in a lane it executes. -/
def Unmarked (t : Slat) (ls : List Nat) (srcs : List (Src × Nat)) : Prop :=
  ∀ l, l ∈ ls → ∀ x, x ∈ srcs → t.marked x.1 x.2 l = false

/-- A vector instruction gives each lane it executes (its guards, R102) a word that its first n sources determine, wherever none of those
lanes consumes a marked word; nothing else changes but what LanesGive names. -/
def VecGives (i : Instr) (o : ROp) (n : Nat) (r : W32 → W32 → W32 → W32 → Prop) : Prop :=
  ∀ (s : State) (t : Slat) (u : Issue), s.frag = some (t, u) → Unmarked t (t.active u o.h) (([o.a, o.b, o.c].take n).map (fun x => (x, 1))) →
    ∃ f, LanesGive i s t u o.nw o.dst.toNat (t.active u o.h) f
      ∧ ∀ l, l ∈ t.active u o.h → r (t.src32 u o.a l) (t.src32 u o.b l) (t.src32 u o.c l) (f l)

/-- The same at 64 bits: every source is a pair, and so is the result. -/
def VecGives64 (i : Instr) (o : ROp) (n : Nat) (r : W64 → W64 → W64 → W64 → Prop) : Prop :=
  ∀ (s : State) (t : Slat) (u : Issue), s.frag = some (t, u) → Unmarked t (t.active u o.h) (([o.a, o.b, o.c].take n).map (fun x => (x, 2))) →
    ∃ f, LanesGive64 i s t u o.dst.toNat (t.active u o.h) f
      ∧ ∀ l, l ∈ t.active u o.h → r (t.src64 o.a l) (t.src64 o.b l) (t.src64 o.c l) (f l)

/-- The same of an I form: one source. -/
def VecGivesI (i : Instr) (o : IOp) (r : W32 → W32 → Prop) : Prop :=
  ∀ (s : State) (t : Slat) (u : Issue), s.frag = some (t, u) → Unmarked t (t.active u o.h) [(o.a, 1)] →
    ∃ f, LanesGive i s t u o.nw o.dst.toNat (t.active u o.h) f ∧ ∀ l, l ∈ t.active u o.h → r (t.src32 u o.a l) (f l)

/-- The state once an instruction of the issuing fragment has placed entries: qs at the end of its slat's queues, its counter held for
`parts` of them, n numbers used, the clause moved on, and nothing else. -/
def placed (s : State) (t : Slat) (u : Issue) (qs : List QEnt) (ctr : Option Nat) (parts n : Nat) : State :=
  { s.advance (({ t with queue := t.queue ++ qs } : Slat).openInst s.next ctr parts) u with next := s.next + n }

/-- The entries of one instruction that touches a place in each of some lanes (R81): numbered from `first`, one for each line, each lane in
exactly one of them with its place and the data captured for it. -/
def LineEntries (ins first : Nat) (u : Issue) (es : List QEnt) (path : Path) (op : EOp) (ls : List Nat) (place : Nat → Loc)
    (data : Nat → Option Nat) : Prop :=
  (∀ k e, es[k]? = some e →
    e.seq = first + k ∧ e.ins = ins ∧ e.paths = [path] ∧ e.op = op ∧ e.cid = u.cid ∧ e.pos = u.pos ∧ e.len = u.words.length ∧ e.ent = u.ent)
  ∧ (∀ l, l ∈ ls → ∃ e, e ∈ es ∧ ⟨l, place l, data l, .queued⟩ ∈ e.lanes)
  ∧ (∀ e x, e ∈ es → x ∈ e.lanes → x.l ∈ ls ∧ x = ⟨x.l, place x.l, data x.l, .queued⟩)
  ∧ (∀ e x y, e ∈ es → x ∈ e.lanes → y ∈ e.lanes → x.loc.line = y.loc.line)
  ∧ (∀ e f x y, e ∈ es → f ∈ es → x ∈ e.lanes → y ∈ f.lanes → x.loc.line = y.loc.line → e = f)

end Sys2Proof.Machine
end

