-- ==== Sys2Proof/Certificates/Slice0/Obligations.lean ====
section
/-! DEFINITION. The statements about the machine, for the provers. -/

open Sys2Proof
open Sys2Proof.Machine

/-- DECODED WORDS (R33, R42 to R48, R52, R59): words written out from the encoding tables of the manual decode to the instructions they
stand for, at least one of each format, and a header word to its fields. -/
def Obligations.DecodedWords : Prop :=
  let g0 : Hdr := ⟨⟨false, 7#3⟩, ⟨false, 7#3⟩, 0#2⟩
  let m0 : Mod := ⟨0#4, 0#2, false, 0#2, 0#4⟩
  decodeWord 0x005DC08888600000#64 = .ok (.sadd ⟨g0, false, 4#6, .s 4#6, .s 3#6, .v 0#6, m0⟩)
  ∧ decodeWord 0x105DC0AA4000000A#64 = .ok (.saddI ⟨g0, false, 5#6, .s 18#6, 10#29⟩)
  ∧ decodeWord 0x215DC00000000000#64 = .ok (.exit ⟨g0, 0#44⟩)
  ∧ decodeWord 0xA01DC0E400009000#64 = .ok (.ld ⟨g0, false, 7#6, 2#4, .v 0#6, .v 0#6, 2#3, 2#3, 0#11⟩)
  ∧ decodeWord 0xEDDDC2020C020000#64 = .ok (.ctxs ⟨g0, 8#6, 2#6, 3#6, 0#6, 1#3, 0#17⟩)
  ∧ decodeWord 0xEE1DC24200040000#64 = .ok (.ctxl ⟨g0, 9#6, 2#6, 0#6, 0#6, 2#3, 0#17⟩)
  ∧ decodeWord 0xC01DC060040A1300#64 = .ok (.atmAdd ⟨g0, false, 3#6, 0#4, .v 2#6, .v 5#6, 0#3, 2#3, 0x300#11⟩)
  ∧ decodeWord 0xD01DC10518030002#64 = .ok (.cpy ⟨g0, 4#6, 5#6, 6#6, 0#6, 1#3, true, 2#16⟩)
  ∧ decodeWord 0xE01DC008605F0000#64 = .ok (.mmaF8 ⟨g0, 0#6, 8#6, 24#6, 5#6, 7#3, true, 0#4, 0#2, 0#10⟩)
  ∧ decodeHeader 0xFD983C0000000000#64 = .ok ⟨3#3, 3#4, 1#6, 7#3, 0#4, false⟩

/-- DECODE AND ENCODE AGREE (R42 to R52, R59): the word of every well-formed encoded instruction, with every operand at every value its
encoding admits, decodes to that instruction. -/
def Obligations.DecodeEncode : Prop := ∀ (i : Instr) (w : W64), i.wf = true → encode i = some w → decodeWord w = .ok i

/-- EVERY ENCODED INSTRUCTION HAS A WORD, AND NO EVENT HAS ONE (R57 to R59): an instruction has a word exactly when it belongs to a
clause class of R34. -/
def Obligations.EncodedExactly : Prop := ∀ i : Instr, (encode i).isSome = i.grp.isSome

/-- A STEP RUNS THE DECODED INSTRUCTION (R53, R79): while a fragment issues, the word at the position its clause has reached is decoded,
and a step is exec of that instruction; a word that is none takes the cause of R57; past the last word the clause ends. Between clauses
a step is the next move of the agenda after its cycles have passed: an event of the table, a core's engine going on, a job going on, an error
that strikes accumulator memory or a line in L2, a vector masked or unmasked, or the queues that slats are parked on being served; with
nothing on the agenda one cycle passes.
Where the manual leaves it open this is the model's choice, log 1, 2, 4, 67 and 91. -/
def Obligations.StepRunsDecoded : Prop :=
  (∀ (s : State) (t : Slat) (u : Issue), s.frag = some (t, u) →
    (∀ (w : W64) (i : Instr), u.words[u.pos]? = some w → decodeWord w = .ok i → step s = exec i s)
    ∧ (∀ (w : W64) (r : BadWord), u.words[u.pos]? = some w → decodeWord w = .error r → step s = .next (s.badWord t u r))
    ∧ (u.words[u.pos]? = none → step s = .next (s.clauseOver t u)))
  ∧ (∀ s : State, s.focus = none →
    (s.agenda = [] → step s = .next (s.tick 1))
    ∧ (∀ (dt : Nat) (m : Move) (rest : List Due), s.agenda = ⟨dt, m⟩ :: rest →
        let s1 := (s.withAgenda rest).tick dt
        (∀ i, m = .ev i → step s = exec i s1)
        ∧ (∀ core, m = .engine core → step s = .next (s1.engineStep core))
        ∧ (∀ id, m = .job id → step s = .next (s1.jobStep id))
        ∧ (m = .idle → step s = .next s1.serveQueues)
        ∧ (∀ core tile elem, m = .accError core tile elem → core < 640 → tile < 64 → elem < 1024 → ∃ s2, step s = .next s2
            ∧ (let x := sget Tile.empty (s1.core core).tiles tile
               let y := sget Tile.empty (s2.core core).tiles tile
               sget false y.mark elem = true ∧ (∀ k, k ≠ elem → sget false y.mark k = sget false x.mark k ∧ sget 0#32 y.acc k = sget 0#32 x.acc k))
            ∧ (∀ k, k ≠ core → s2.core k = s1.core k) ∧ s2 = { s1 with free := s2.free, cores := s2.cores })
        ∧ (∀ line, m = .lineError line → ∃ s2, step s = .next s2
            ∧ (∀ x, x ∈ s1.home.l2 → ∃ y, y ∈ s2.home.l2 ∧ y = (if x.line = line then { x with val := { x.val with marks := 0xFFFFFFFF#32 } } else x))
            ∧ s2 = { s1 with home := { s1.home with l2 := s2.home.l2, vfill := s2.home.vfill } })
        ∧ (∀ fn vec on, m = .mask fn vec on → fn < 32 → vec < 1024 → ∃ s2, step s = .next s2
            ∧ (∀ v, v ∈ (s2.fn fn).masked ↔ if v = vec then on = true else v ∈ (s1.fn fn).masked)
            ∧ s2 = { s1 with hub := { s1.hub with fns := s2.hub.fns } })))

/-- WHERE THE MACHINE STOPS (R53): outside a clause an encoded instruction has no effect, and ends in the fault that says so, whatever the
instruction; a step never refuses, and it faults only where the agenda names an encoded instruction as an event, outside any clause.
Where the manual leaves it open this is the model's choice, log 1 and 3. -/
def Obligations.WhereItStops : Prop :=
  (∀ (i : Instr) (s : State), i.grp.isSome = true → s.frag = none → exec i s = .fault .noFragment)
  ∧ (∀ (s : State) (r : Refusal), step s ≠ .refused r)
  ∧ (∀ (s : State) (f : Fault), step s = .fault f → f = .noFragment ∧ s.focus = none ∧
      ∃ dt i rest, s.agenda = ⟨dt, .ev i⟩ :: rest ∧ i.grp.isSome = true)

/-- WHAT RESET LEAVES (R101, R309, R360, R390, R391): nothing is resident, queued or cached; memory lists nothing; queues are Disabled with
their pointers 0; function 0 alone is enabled; the device is ready at boot step 8.
Where the manual leaves it open this is the model's choice, log 7. -/
def Obligations.ResetState : Prop :=
  State.reset.slats = [] ∧ State.reset.teams = [] ∧ State.reset.mem = [] ∧ State.reset.home.l2 = []
  ∧ (∀ q, (State.reset.queue q).st = 0 ∧ (State.reset.queue q).rp = 0 ∧ (State.reset.queue q).wp = 0)
  ∧ (∀ f, (State.reset.fn f).en = decide (f = 0))
  ∧ (∀ f, (State.reset.fn f).vq = 32 ∧ (State.reset.fn f).shq = 2048 ∧ (State.reset.fn f).thr = 4096)
  ∧ State.reset.hub.contexts = [] ∧ State.reset.hub.grids = []
  ∧ State.reset.boot.ready = true ∧ State.reset.boot.step = 8

/-- THE INVARIANT AT RESET: main memory and every scratchpad are in canonical form.
Where the manual leaves it open this is the model's choice, log 9. -/
def Obligations.InvReset : Prop := State.reset.Inv

/-- THE INVARIANT IS KEPT: a step from any state whose main memory and scratchpads, those a rollback may bring back included, are in
canonical form leaves them so.
Where the manual leaves it open this is the model's choice, log 9. -/
def Obligations.InvStep : Prop := ∀ s t : State, s.Inv → step s = .next t → t.Inv

/-- SCALAR ARITHMETIC (R50, R107, R108): where the q guards hold and no source is marked, each two-source instruction writes its result to sD
and nothing else: sums, differences and products modulo 2^64, the high half signed unless .u64, the bitwise operations, shifts that
give 0 or the sign from 64 on, the lesser and the greater; in the I forms the second operand is the sign-extended immediate. -/
def Obligations.ScalarArithmetic : Prop :=
  (∀ (s : State) (t : Slat) (u : Issue) (o : ROp), s.frag = some (t, u) → t.qHolds o.h = true →
     (t.srcS o.a).2 = false → (t.srcS o.b).2 = false →
     let a := (t.srcS o.a).1
     let b := (t.srcS o.b).1
     let sgn := o.m.fmt != 3#4
     let gives := fun (i : Instr) (x : W64) => ScalarGives i s t u o.dst.toNat x
     gives (.sadd o) (BitVec.ofNat 64 (a.toNat + b.toNat))
     ∧ gives (.ssub o) (BitVec.ofInt 64 (a.toNat - b.toNat))
     ∧ gives (.smul o) (BitVec.ofNat 64 (a.toNat * b.toNat))
     ∧ gives (.smulh o) (if sgn then BitVec.ofInt 64 (a.toInt * b.toInt / 2 ^ 64) else BitVec.ofNat 64 (a.toNat * b.toNat / 2 ^ 64))
     ∧ gives (.sand o) (a &&& b) ∧ gives (.sor o) (a ||| b) ∧ gives (.sxor o) (a ^^^ b)
     ∧ gives (.sshl o) (BitVec.ofNat 64 (a.toNat * 2 ^ b.toNat))
     ∧ gives (.sshr o) (BitVec.ofNat 64 (a.toNat / 2 ^ b.toNat))
     ∧ gives (.ssar o) (BitVec.ofInt 64 (a.toInt / 2 ^ b.toNat))
     ∧ gives (.smin o) (if (if sgn then a.toInt ≤ b.toInt else a.toNat ≤ b.toNat) then a else b)
     ∧ gives (.smax o) (if (if sgn then b.toInt ≤ a.toInt else b.toNat ≤ a.toNat) then a else b))
  ∧ (∀ (s : State) (t : Slat) (u : Issue) (o : IOp), s.frag = some (t, u) → t.qHolds o.h = true → (t.srcS o.a).2 = false →
       let a := (t.srcS o.a).1
       let b : W64 := o.imm.signExtend 64
       let gives := fun (i : Instr) (x : W64) => ScalarGives i s t u o.dst.toNat x
       gives (.saddI o) (BitVec.ofNat 64 (a.toNat + b.toNat))
       ∧ gives (.ssubI o) (BitVec.ofInt 64 (a.toNat - b.toNat))
       ∧ gives (.smulI o) (BitVec.ofNat 64 (a.toNat * b.toNat))
       ∧ gives (.sandI o) (a &&& b) ∧ gives (.sorI o) (a ||| b) ∧ gives (.sxorI o) (a ^^^ b)
       ∧ gives (.sshlI o) (BitVec.ofNat 64 (a.toNat * 2 ^ b.toNat))
       ∧ gives (.sshrI o) (BitVec.ofNat 64 (a.toNat / 2 ^ b.toNat))
       ∧ gives (.ssarI o) (BitVec.ofInt 64 (a.toInt / 2 ^ b.toNat)))

/-- SCALAR MOVES AND COUNTS (R109): smov, sclz (64 for 0, else the place of the leading one), spop, ssel by the predicate its C field
names, sli and slih. -/
def Obligations.ScalarMoves : Prop :=
  (∀ (s : State) (t : Slat) (u : Issue) (o : ROp), s.frag = some (t, u) → t.qHolds o.h = true → (t.srcS o.a).2 = false →
    let a := (t.srcS o.a).1
    ScalarGives (.smov o) s t u o.dst.toNat a
    ∧ (∃ n, n ≤ 64 ∧ ScalarGives (.sclz o) s t u o.dst.toNat (BitVec.ofNat 64 n)
        ∧ (a.toNat = 0 → n = 64) ∧ (a.toNat ≠ 0 → a.toNat / 2 ^ (63 - n) = 1 ∧ n < 64))
    ∧ ScalarGives (.spop o) s t u o.dst.toNat (BitVec.ofNat 64 ((List.range 64).filter (fun k => a.toNat.testBit k)).length)
    ∧ ((t.srcS o.b).2 = false →
        ScalarGives (.ssel o) s t u o.dst.toNat (if t.qget (o.c.bits.toNat % 8) then a else (t.srcS o.b).1)))
  ∧ (∀ (s : State) (t : Slat) (u : Issue) (o : IOp), s.frag = some (t, u) → t.qHolds o.h = true →
    ScalarGives (.sli o) s t u o.dst.toNat (o.imm.signExtend 64)
    ∧ ((t.srcS o.a).2 = false →
        ScalarGives (.slih o) s t u o.dst.toNat (BitVec.ofNat 64 ((t.srcS o.a).1.toNat * 2 ^ 29 + o.imm.toNat))))

/-- SCALAR COMPARES (R49, R110): qK is a cond b, signed or unsigned by the opcode, in both forms; every other predicate stays. -/
def Obligations.ScalarCompares : Prop :=
  let sets := fun (i : Instr) (s : State) (t : Slat) (u : Issue) (k : Nat) (x : Bool) =>
    ∃ t', Completes i s t' u ∧ (k < 7 → t'.qget k = x) ∧ (∀ n, n < 7 → n ≠ k → t'.qget n = t.qget n) ∧ t' = { t with q := t'.q }
  let cond := fun (c : Nat) (x y : Int) => match c with
    | 0 => decide (x = y)
    | 1 => decide (x ≠ y)
    | 2 => decide (x < y)
    | 3 => decide (x ≤ y)
    | 4 => decide (y < x)
    | _ => decide (y ≤ x)
  (∀ (s : State) (t : Slat) (u : Issue) (o : ROp), s.frag = some (t, u) → t.qHolds o.h = true →
    (t.srcS o.a).2 = false → (t.srcS o.b).2 = false →
    let a := (t.srcS o.a).1
    let b := (t.srcS o.b).1
    sets (.scmpSigned o) s t u (o.dst.toNat % 8) (cond (o.dst.toNat / 8) a.toInt b.toInt)
    ∧ sets (.scmpUnsigned o) s t u (o.dst.toNat % 8) (cond (o.dst.toNat / 8) a.toNat b.toNat))
  ∧ (∀ (s : State) (t : Slat) (u : Issue) (o : IOp), s.frag = some (t, u) → t.qHolds o.h = true → (t.srcS o.a).2 = false →
    let a := (t.srcS o.a).1
    let b : W64 := o.imm.signExtend 64
    sets (.scmpSignedI o) s t u (o.dst.toNat % 8) (cond (o.dst.toNat / 8) a.toInt b.toInt)
    ∧ sets (.scmpUnsignedI o) s t u (o.dst.toNat % 8) (cond (o.dst.toNat / 8) a.toNat b.toNat))


/-- GUARDS THAT DO NOT HOLD (R43): a scalar or control-flow instruction whose q guards do not both hold writes no register, predicate or
latch, and only moves on. -/
def Obligations.GuardsOff : Prop :=
  ∀ (s : State) (t : Slat) (u : Issue), s.frag = some (t, u) →
    let off := fun (i : Instr) => exec i s = .next (s.advance t u)
    (∀ o : ROp, t.qHolds o.h = false →
      off (.smov o) ∧ off (.sadd o) ∧ off (.ssub o) ∧ off (.smul o) ∧ off (.smulh o) ∧ off (.sand o) ∧ off (.sor o) ∧ off (.sxor o)
      ∧ off (.sshl o) ∧ off (.sshr o) ∧ off (.ssar o) ∧ off (.smin o) ∧ off (.smax o) ∧ off (.scmpSigned o) ∧ off (.scmpUnsigned o)
      ∧ off (.ssel o) ∧ off (.sclz o) ∧ off (.spop o) ∧ off (.sxlat o) ∧ off (.brx o) ∧ off (.ret o))
    ∧ (∀ o : IOp, t.qHolds o.h = false →
      off (.sli o) ∧ off (.slih o) ∧ off (.srd o) ∧ off (.swr o) ∧ off (.saddI o) ∧ off (.ssubI o) ∧ off (.smulI o) ∧ off (.sandI o)
      ∧ off (.sorI o) ∧ off (.sxorI o) ∧ off (.sshlI o) ∧ off (.sshrI o) ∧ off (.ssarI o) ∧ off (.scmpSignedI o)
      ∧ off (.scmpUnsignedI o) ∧ off (.bra o) ∧ off (.call o) ∧ off (.yield o) ∧ off (.part o))
    ∧ (∀ o : ZOp, t.qHolds o.h = false → off (.exit o))

/-- CONTROL REGISTERS (R9, R103, R104, R109, R228, R258, R259, R329): srd writes the register its immediate numbers, in the widths of R103, to sD and
nothing else: every one of the manual's, those of the supervisor range included; swr of %slim, %tvec and %tepc changes that register alone;
a settle write is kept for the clause's commit; above the slat's level both raise PRIV, reason 1, with nothing of the clause kept. What
%cyc counts from is the model's choice, log 10. -/
def Obligations.ControlRegisters : Prop :=
  ∀ (s : State) (t : Slat) (u : Issue) (o : IOp), s.frag = some (t, u) → t.qHolds o.h = true →
    let n := o.imm.toNat
    let above := (1024 ≤ n) ∨ (256 ≤ n ∧ t.level = 0)
    (¬ above → ∃ x, ScalarGives (.srd o) s t u o.dst.toNat x
      ∧ (n = 1 → x = (t.ent u.ent).mask.setWidth 64) ∧ (n = 2 → x.toNat = t.idx % 2 ^ 64) ∧ (n = 6 → x.toNat = t.core % 2 ^ 64)
      ∧ (n = 7 → x.toNat = t.width % 2 ^ 64) ∧ (n = 9 → x.toNat = t.ctx % 2 ^ 64) ∧ (n = 11 → x = t.slim) ∧ (n = 16 → x = t.tvec)
      ∧ (n = 17 → x.toNat = (t.tcause + (if t.inh then 256 else 0)) % 2 ^ 64) ∧ (n = 18 → x = t.tepc) ∧ (n = 19 → x = t.tinfo)
      ∧ (n = 20 → x = t.bst) ∧ (n = 21 → x = t.fst)
      ∧ (∀ m, s.team? t.team = some m → (n = 3 → x.toNat = m.idx % 2 ^ 64) ∧ (n = 5 → x.toNat = m.grank % 2 ^ 64)
          ∧ (n = 4 → x.toNat = m.cores.findIdx (fun c => c.1 == t.core) % 2 ^ 64))
      ∧ (n = 8 → x.toNat = s.cyc t.core % 2 ^ 64 ∧ ∀ d, ({ s with now := s.now + d } : State).cyc t.core = s.cyc t.core + d)
      ∧ (let f := s.fn t.fn
         (n = 10 → x.toNat = ((s.home.veneers.filter (fun v => v.fn == t.fn)).length * 2 ^ 32 + f.vq) % 2 ^ 64)
         ∧ (n = 0x140 → x.toNat = f.vrec % 2 ^ 64) ∧ (n = 0x141 → x.toNat = f.vcoll % 2 ^ 64) ∧ (n = 0x142 → x.toNat = f.veag % 2 ^ 64)
         ∧ (n = 0x143 → x.toNat = f.vmln % 2 ^ 64) ∧ (n = 0x144 → x.toNat = f.vhot % 2 ^ 64) ∧ (n = 0x145 → x.toNat = f.thr % 2 ^ 64))
      ∧ (n = 0 → ∀ l, l < 32 → (t.ent u.ent).mask.getLsbD l = true →
          (∀ k, k < l → (t.ent u.ent).mask.getLsbD k = false) → x.toNat = l))
    ∧ (¬ above → (t.srcS o.a).2 = false →
        let a := (t.srcS o.a).1
        (n = 11 → Completes (.swr o) s { t with slim := a } u) ∧ (n = 16 → Completes (.swr o) s { t with tvec := a } u)
        ∧ (n = 18 → Completes (.swr o) s { t with tepc := a } u)
        ∧ (n = 336 → Completes (.swr o) s t { u with fres := u.fres ++ [a] }))
    ∧ (above → exec (.srd o) s = .next (s.abortAlu t u (u.cause 3 1 0)))
    ∧ (above → (t.srcS o.a).2 = false → exec (.swr o) s = .next (s.abortAlu t u (u.cause 3 1 0)))

/-- A CLAUSE STOPPED PART-WAY (R55): the slat is as it was before the clause but for one cause more, whose return address is the clause's
header; no fragment issues, and no other slat, no memory and no home changes.
Where the manual leaves it open this is the model's choice, log 4. -/
def Obligations.AbortKeepsNothing : Prop :=
  ∀ (s : State) (t t0 : Slat) (u : Issue) (c : Cause), s.frag = some (t, u) → s.snap = some t0 → t0.uid = t.uid →
    (t0.pend.any (fun d => d.joins { c with at_ := some u.h })) = false → (c.isLane && t0.told.contains c.cid) = false →
    ∃ s', s.abortAlu t u c = s' ∧ s'.focus = none ∧ s'.snap = none ∧ s'.mem = s.mem ∧ s'.home = s.home ∧ s'.cores = s.cores
      ∧ (∀ x, x ≠ t.uid → s'.slat? x = s.slat? x)
      ∧ s'.slat? t.uid = some { t0 with issue := none, pend := t0.pend ++ [{ c with at_ := some u.h, nested := t0.inh }] }

/-- TRANSLATION REGISTERS (R111): sxlat writes the base to bN and no other register of the slat; a base that is not the sign extension of
its bits 54 to 0 leaves bN unresolved and the TLBs alone; a hit resolves it, or not, by the leaf; a miss leaves it unresolved, and the walk that
may be begun is where the lines it reads are at hand.
Where the manual leaves it open this is the model's choice, log 28. -/
def Obligations.TranslationRegister : Prop :=
  ∀ (s : State) (t : Slat) (u : Issue) (o : ROp), s.frag = some (t, u) → t.qHolds o.h = true → (t.srcS o.a).2 = false →
    let a := (t.srcS o.a).1
    let n := o.dst.toNat % 16
    (canonical a = false → Completes (.sxlat o) s (t.bput n ⟨a, none⟩) u)
    ∧ (∀ e s1, canonical a = true → s.tlbLook t.core t.ctx t.part a = (some e, s1) →
        exec (.sxlat o) s = .next (s1.advance (t.bput n ⟨a, t.resolveB e a⟩) u))
    ∧ (∀ s1, canonical a = true → s.tlbLook t.core t.ctx t.part a = (none, s1) →
        let ws := s1.walkLines t.ctx t.part a
        (s1.hubOk true ws = true →
          exec (.sxlat o) s = .next (((s1.lookup t.core t.ctx t.part a).2.hubFree true ws).advance (t.bput n ⟨a, none⟩) u))
        ∧ (s1.hubOk true ws = false → exec (.sxlat o) s = .next (s1.advance (t.bput n ⟨a, none⟩) u)))
    ∧ (t.bput n ⟨a, none⟩).bget n = ⟨a, none⟩ ∧ (∀ k x, k ≠ n → (t.bput n x).bget k = t.bget k)

/-- UNIFORM CONTROL FLOW AND EXIT (R115 to R118): with the guards held, bra, brx, call and ret send the issuing fragment to their target and
change no other entry of the split table; call also writes sD; yield also defers the fragment; part sets the tile width; nop does
nothing; exit removes the fragment's lanes from every mask and record, and leaves queues, log and registers. -/
def Obligations.ControlFlow : Prop :=
  (∀ (s : State) (t : Slat) (u : Issue), s.frag = some (t, u) →
     let at_ := fun (t' : Slat) (pc : W64) => t'.setEnt u.ent { t'.ent u.ent with pc := pc }
     (∀ o : IOp, t.qHolds o.h = true →
       let tgt := u.h + o.imm.signExtend 64
       Completes (.bra o) s (at_ t tgt) u
       ∧ Completes (.yield o) s (at_ t tgt) { u with yld := true }
       ∧ Completes (.call o) s (at_ (t.sput o.dst.toNat (u.h + BitVec.ofNat 64 (u.words.length + 1)) false) tgt) u
       ∧ Completes (.part o) s { t with width := o.imm.toNat } u)
     ∧ (∀ o : ROp, t.qHolds o.h = true → (t.srcS o.a).2 = false →
       Completes (.brx o) s (at_ t (t.srcS o.a).1) u ∧ Completes (.ret o) s (at_ t (t.srcS o.a).1) u)
     ∧ (∀ o : ZOp, Completes (.nop o) s t u)
     ∧ (∀ (k : Nat) (x : SplitEntry), k ≠ u.ent → (t.setEnt u.ent x).ent k = t.ent k))
  ∧ (∀ (s : State) (t : Slat) (u : Issue) (o : ZOp), s.frag = some (t, u) → t.qHolds o.h = true →
       ∃ t', Completes (.exit o) s t' u ∧ t'.queue = t.queue ∧ t'.log = t.log ∧ t'.v = t.v ∧ t'.s = t.s ∧ t'.insts = t.insts
         ∧ ∀ l, l < 32 → (t.ent u.ent).mask.getLsbD l = true →
             (∀ e, e < 8 → (t'.ent e).st ≠ .free → (t'.ent e).mask.getLsbD l = false) ∧ (∀ r, r ∈ t'.recs → r.mask.getLsbD l = false))

/-- A DIVERGENT BRANCH (R113): all lanes one way move the fragment; else two free entries take the two sides, the lower the taken one, and
the fragment waits for its lanes at rv; else a record is pushed and the taken side runs on; else BOUNDS, sub-reason 0x1A. -/
def Obligations.DivergentBranch : Prop :=
  ∀ (s : State) (t : Slat) (u : Issue) (o : IOp), s.frag = some (t, u) →
    let e := t.ent u.ent
    let tk := laneMask (t.active u o.h)
    let fl := e.mask &&& ~~~tk
    let tgt := u.h + o.imm.signExtend 64
    let rv := u.h + o.rvOff.signExtend 64
    let ft := u.h + BitVec.ofNat 64 (u.words.length + 1)
    let frees := (List.range 8).filter (fun k => (t.ent k).st == .free)
    let side := fun (m : W32) (pc : W64) => { SplitEntry.free with st := .running, mask := m, pc := pc, rcv := some rv, join := .entry u.ent }
    (tk = 0 → Completes (.braDivergent o) s (t.setEnt u.ent { e with pc := ft }) u)
    ∧ (tk ≠ 0 → fl = 0 → Completes (.braDivergent o) s (t.setEnt u.ent { e with pc := tgt }) u)
    ∧ (∀ a b rest, tk ≠ 0 → fl ≠ 0 → frees = a :: b :: rest →
        Completes (.braDivergent o) s
          (((t.setEnt u.ent { e with st := .waiting, pc := rv, pend := e.mask }).setEnt a (side tk tgt)).setEnt b (side fl ft)) u)
    ∧ (tk ≠ 0 → fl ≠ 0 → frees.length < 2 → t.recs.length < 32 →
        Completes (.braDivergent o) s
          (({ t with recs := t.recs ++ [⟨u.ent, fl, ft, e.mask, e.rcv, e.join, 1⟩] } : Slat).setEnt u.ent
            { e with mask := tk, pc := tgt, rcv := some rv, join := .deferred }) u)
    ∧ (tk ≠ 0 → fl ≠ 0 → frees.length < 2 → 32 ≤ t.recs.length → u.cls = .alu →
        ∃ c, c.code = 7 ∧ c.at_ = some u.h ∧ c.tinfo = BitVec.ofNat 64 (0x1A * 2 ^ 32 + 0xF00 + u.words.length)
          ∧ exec (.braDivergent o) s = .next (s.abortAlu t u c))

/-- VECTOR SUMS AND PRODUCTS (R122 to R124): iadd and isub take the exact sum of three operands, signed or unsigned by fmt, at 32 bits and at 64,
clamped under .sat and modulo 2^W otherwise; iaddc and isubb give its carry and borrow; imul and imad are modulo 2^W, imulh the floor
of the product over 2^W. -/
def Obligations.VectorArithmetic : Prop :=
  (∀ o : ROp,
     let sgn := o.m.fmt = 0#4 ∨ o.m.fmt = 2#4
     let wide := o.m.fmt = 2#4 ∨ o.m.fmt = 3#4
     let fits := fun (n : Nat) (x : Int) (d : BitVec n) =>
       let lo : Int := if sgn then -(2 ^ (n - 1)) else 0
       let hi : Int := if sgn then 2 ^ (n - 1) - 1 else 2 ^ n - 1
       (o.m.ovf ≠ 1#2 → d = BitVec.ofInt n x)
       ∧ (o.m.ovf = 1#2 → (if sgn then d.toInt else (d.toNat : Int)) = if x < lo then lo else if hi < x then hi else x)
     let v32 := fun (x : W32) => if sgn then x.toInt else (x.toNat : Int)
     let v64 := fun (x : W64) => if sgn then x.toInt else (x.toNat : Int)
     (¬ wide → VecGives (.iadd o) o 3 (fun a b c d => fits 32 (v32 a + v32 b + v32 c) d)
       ∧ VecGives (.isub o) o 3 (fun a b c d => fits 32 (v32 a - v32 b - v32 c) d))
     ∧ (wide → VecGives64 (.iadd o) o 3 (fun a b c d => fits 64 (v64 a + v64 b + v64 c) d)
       ∧ VecGives64 (.isub o) o 3 (fun a b c d => fits 64 (v64 a - v64 b - v64 c) d))
     ∧ VecGives (.iaddc o) o 3 (fun a b c d => d.toNat = (a.toNat + b.toNat + c.toNat) / 2 ^ 32)
     ∧ VecGives (.isubb o) o 3 (fun a b c d => (d.toNat : Int) = -(((a.toNat : Int) - b.toNat - c.toNat) / 2 ^ 32)))
  ∧ (∀ o : ROp,
       let sgn := o.m.fmt = 0#4 ∨ o.m.fmt = 2#4
       let wide := o.m.fmt = 2#4 ∨ o.m.fmt = 3#4
       let v32 := fun (x : W32) => if sgn then x.toInt else (x.toNat : Int)
       let v64 := fun (x : W64) => if sgn then x.toInt else (x.toNat : Int)
       (¬ wide → VecGives (.imul o) o 2 (fun a b _ d => d = BitVec.ofNat 32 (a.toNat * b.toNat))
         ∧ VecGives (.imulh o) o 2 (fun a b _ d => d = BitVec.ofInt 32 (v32 a * v32 b / 2 ^ 32)))
       ∧ (wide → VecGives64 (.imul o) o 2 (fun a b _ d => d = BitVec.ofNat 64 (a.toNat * b.toNat))
         ∧ VecGives64 (.imulh o) o 2 (fun a b _ d => d = BitVec.ofInt 64 (v64 a * v64 b / 2 ^ 64)))
       ∧ VecGives (.imad o) o 3 (fun a b c d => d = BitVec.ofNat 32 (a.toNat * b.toNat + c.toNat)))

/-- THE LESSER, THE GREATER AND THE ABSOLUTE VALUE (R125), at both widths. -/
def Obligations.LesserGreaterAbs : Prop :=
  ∀ o : ROp,
    let sgn := o.m.fmt = 0#4 ∨ o.m.fmt = 2#4
    let wide := o.m.fmt = 2#4 ∨ o.m.fmt = 3#4
    let v32 := fun (x : W32) => if sgn then x.toInt else (x.toNat : Int)
    let v64 := fun (x : W64) => if sgn then x.toInt else (x.toNat : Int)
    (¬ wide → VecGives (.imin o) o 2 (fun a b _ d => d = if v32 a ≤ v32 b then a else b)
      ∧ VecGives (.imax o) o 2 (fun a b _ d => d = if v32 b ≤ v32 a then a else b)
      ∧ VecGives (.iabs o) o 1 (fun a _ _ d => d.toNat = if o.m.ovf = 1#2 then min a.toInt.natAbs (2 ^ 31 - 1) else a.toInt.natAbs))
    ∧ (wide → VecGives64 (.imin o) o 2 (fun a b _ d => d = if v64 a ≤ v64 b then a else b)
      ∧ VecGives64 (.imax o) o 2 (fun a b _ d => d = if v64 b ≤ v64 a then a else b)
      ∧ VecGives64 (.iabs o) o 1 (fun a _ _ d => d.toNat = if o.m.ovf = 1#2 then min a.toInt.natAbs (2 ^ 63 - 1) else a.toInt.natAbs))

/-- BIT COUNTS (R128): the leading zero bits of a (32 when a = 0), its one bits, and its bits reversed. -/
def Obligations.BitCounts : Prop :=
  ∀ o : ROp,
    VecGives (.clz o) o 1 (fun a _ _ d => (a = 0 → d = 32) ∧
      (a ≠ 0 → d.toNat < 32 ∧ a.getLsbD (31 - d.toNat) = true ∧ ∀ j, 31 - d.toNat < j → j < 32 → a.getLsbD j = false))
    ∧ VecGives (.pop o) o 1 (fun a _ _ d => d.toNat = ((List.range 32).filter (fun j => a.getLsbD j)).length)
    ∧ VecGives (.brev o) o 1 (fun a _ _ d => ∀ j, j < 32 → d.getLsbD j = a.getLsbD (31 - j))

/-- THREE-INPUT LOGIC, BIT FIELDS, BYTE MIXES (R126, R129, R130): each bit of lgf is the exclusive or of the products that the coefficient byte
names; bfx extracts and bfi inserts a field; bmix builds each byte under its control byte. -/
def Obligations.LogicBitFields : Prop :=
  (∀ o : ROp, VecGives (.lgf o) o 3 (fun a b c d => ∀ j, j < 32 →
     let k := fun (n : Nat) => o.m.bits.getLsbD n
     let x := a.getLsbD j
     let y := b.getLsbD j
     let z := c.getLsbD j
     d.getLsbD j = Bool.xor (k 0) (Bool.xor (k 1 && x) (Bool.xor (k 2 && y) (Bool.xor (k 3 && z)
       (Bool.xor (k 4 && x && y) (Bool.xor (k 5 && x && z) (Bool.xor (k 6 && y && z) (k 7 && x && y && z)))))))))
  ∧ (∀ o : ROp,
       VecGives (.bfx o) o 2 (fun a b _ d =>
         let pos := b.toNat % 256
         let len := b.toNat / 256 % 256
         let n := min (pos + len) 32 - pos
         let f : Int := a.toNat / 2 ^ pos % 2 ^ n
         if len = 0 ∨ 32 ≤ pos then d = 0
         else if o.m.fmt = 0#4 then d.toInt = if f < 2 ^ (n - 1) then f else f - 2 ^ n
         else o.m.fmt = 1#4 → (d.toNat : Int) = f)
       ∧ VecGives (.bfi o) o 3 (fun a b c d => ∀ j, j < 32 →
         let pos := b.toNat % 256
         let len := b.toNat / 256 % 256
         d.getLsbD j = if len = 0 ∨ 32 ≤ pos then c.getLsbD j
           else if pos ≤ j ∧ j < min (pos + len) 32 then a.getLsbD (j - pos) else c.getLsbD j)
       ∧ VecGives (.bmix o) o 3 (fun a b c d => ∀ i j, i < 4 → j < 8 →
         let ctl := c.toNat / 2 ^ (8 * i) % 256
         let k := ctl % 8
         let bit := fun (j : Nat) =>
           let j' := if ctl / 32 % 2 = 1 then 7 - j else j
           if k < 4 then a.getLsbD (8 * k + j') else b.getLsbD (8 * (k - 4) + j')
         d.getLsbD (8 * i + j) = match ctl / 8 % 4 with
           | 0 => bit j
           | 1 => false
           | 2 => true
           | _ => bit 7))

/-- SHIFTS AND ROTATES (R127): 0 or the sign at the width or more, rot by the count modulo the width, the I forms the same; in the 64-bit forms
the value is a pair and the count is still one 32-bit operand. -/
def Obligations.ShiftsRotates : Prop :=
  (let shl := fun (a : W32) (n : Nat) (d : W32) => d = if 32 ≤ n then 0 else BitVec.ofNat 32 (a.toNat * 2 ^ n)
   let shr := fun (a : W32) (n : Nat) (d : W32) => d.toNat = if 32 ≤ n then 0 else a.toNat / 2 ^ n
   let sar := fun (a : W32) (n : Nat) (d : W32) => d.toInt = if 32 ≤ n then (if a.getLsbD 31 then -1 else 0) else a.toInt / 2 ^ n
   let rot := fun (a : W32) (n : Nat) (d : W32) => ∀ j, j < 32 → d.getLsbD ((j + n) % 32) = a.getLsbD j
   (∀ o : ROp, ¬ (o.m.fmt = 2#4 ∨ o.m.fmt = 3#4) →
     VecGives (.shl o) o 2 (fun a b _ d => shl a b.toNat d) ∧ VecGives (.shr o) o 2 (fun a b _ d => shr a b.toNat d)
     ∧ VecGives (.sar o) o 2 (fun a b _ d => sar a b.toNat d) ∧ VecGives (.rot o) o 2 (fun a b _ d => rot a b.toNat d))
   ∧ (∀ o : IOp, o.imm.toNat < 32 →
     VecGivesI (.shlI o) o (fun a d => shl a o.imm.toNat d) ∧ VecGivesI (.shrI o) o (fun a d => shr a o.imm.toNat d)
     ∧ VecGivesI (.sarI o) o (fun a d => sar a o.imm.toNat d) ∧ VecGivesI (.rotI o) o (fun a d => rot a o.imm.toNat d)))
  ∧ (∀ (s : State) (t : Slat) (u : Issue) (o : ROp), s.frag = some (t, u) → (o.m.fmt = 2#4 ∨ o.m.fmt = 3#4) →
       Unmarked t (t.active u o.h) [(o.a, 2), (o.b, 1)] →
       let gives := fun (i : Instr) (f : W64 → Nat → W64) =>
         LanesGive64 i s t u o.dst.toNat (t.active u o.h) (fun l => f (t.src64 o.a l) (t.src32 u o.b l).toNat)
       gives (.shl o) (fun a n => if 64 ≤ n then 0 else BitVec.ofNat 64 (a.toNat * 2 ^ n))
       ∧ gives (.shr o) (fun a n => if 64 ≤ n then 0 else BitVec.ofNat 64 (a.toNat / 2 ^ n))
       ∧ gives (.sar o) (fun a n => if 64 ≤ n then (if a.getLsbD 63 then BitVec.allOnes 64 else 0) else BitVec.ofInt 64 (a.toInt / 2 ^ n))
       ∧ gives (.rot o) (fun a n => BitVec.ofNat 64 (a.toNat * 2 ^ (n % 64) + a.toNat / 2 ^ (64 - n % 64))))

/-- VECTOR COMPARES AND SELECTS (R49, R131, R136): pK is a cond b in each active lane, at 32 bits, at 64 and against the immediate; sel takes a
where the lane's bit of the predicate its C field names reads true, else b; fcmp compares exact values, −0 equal to +0, and with a NaN is
false for every condition, or true under `.uo`. -/
def Obligations.Compares : Prop :=
  (let cond := fun (c : Nat) (x y : Int) => match c with
     | 0 => decide (x = y)
     | 1 => decide (x ≠ y)
     | 2 => decide (x < y)
     | 3 => decide (x ≤ y)
     | 4 => decide (y < x)
     | _ => decide (y ≤ x)
   (∀ (s : State) (t : Slat) (u : Issue) (o : ROp), s.frag = some (t, u) →
     let ls := t.active u o.h
     let c := o.dst.toNat / 8
     let k := o.c.bits.toNat % 8
     (¬ (o.m.fmt = 2#4 ∨ o.m.fmt = 3#4) → Unmarked t ls [(o.a, 1), (o.b, 1)] →
       LanesTest (.icmpSigned o) s t u (o.dst.toNat % 8) ls (fun l => cond c (t.src32 u o.a l).toInt (t.src32 u o.b l).toInt)
       ∧ LanesTest (.icmpUnsigned o) s t u (o.dst.toNat % 8) ls (fun l => cond c (t.src32 u o.a l).toNat (t.src32 u o.b l).toNat)
       ∧ LanesGive (.sel o) s t u o.nw o.dst.toNat ls (fun l => if t.pget k l then t.src32 u o.a l else t.src32 u o.b l))
     ∧ ((o.m.fmt = 2#4 ∨ o.m.fmt = 3#4) → Unmarked t ls [(o.a, 2), (o.b, 2)] →
       LanesTest (.icmpSigned o) s t u (o.dst.toNat % 8) ls (fun l => cond c (t.src64 o.a l).toInt (t.src64 o.b l).toInt)
       ∧ LanesTest (.icmpUnsigned o) s t u (o.dst.toNat % 8) ls (fun l => cond c (t.src64 o.a l).toNat (t.src64 o.b l).toNat)
       ∧ LanesGive64 (.sel o) s t u o.dst.toNat ls (fun l => if t.pget k l then t.src64 o.a l else t.src64 o.b l)))
   ∧ (∀ (s : State) (t : Slat) (u : Issue) (o : IOp), s.frag = some (t, u) →
     let ls := t.active u o.h
     let c := o.dst.toNat / 8
     let b : W32 := o.imm.signExtend 32
     Unmarked t ls [(o.a, 1)] →
       LanesTest (.icmpSignedI o) s t u (o.dst.toNat % 8) ls (fun l => cond c (t.src32 u o.a l).toInt b.toInt)
       ∧ LanesTest (.icmpUnsignedI o) s t u (o.dst.toNat % 8) ls (fun l => cond c (t.src32 u o.a l).toNat b.toNat)))
  ∧ (∀ (s : State) (t : Slat) (u : Issue) (o : ROp), s.frag = some (t, u) →
       Unmarked t (t.active u o.h) [(o.a, 1), (o.b, 1)] →
       ∃ f, LanesTest (.fcmp o) s t u (o.dst.toNat % 8) (t.active u o.h) f ∧ ∀ l, l ∈ t.active u o.h →
         let x := fop fp32 o.m.ftz (t.src32 u o.a l).toNat
         let y := fop fp32 o.m.ftz (t.src32 u o.b l).toNat
         (x = .nan ∨ y = .nan → f l = o.m.sub.getLsbD 0)
         ∧ (x ≠ .nan → y ≠ .nan → f l = match o.dst.toNat / 8 with
             | 0 => fle x y && fle y x
             | 1 => !(fle x y && fle y x)
             | 2 => flt x y
             | 3 => fle x y
             | 4 => flt y x
             | _ => fle y x))

/-- MOVES, EXTENSIONS AND IMMEDIATES (R50, R132): mov, iext from 8, 16 and 32 bits, li, and the I forms of iadd, isub and imul. -/
def Obligations.VectorMoves : Prop :=
  (∀ o : ROp,
    (¬ (o.m.fmt = 2#4 ∨ o.m.fmt = 3#4) → VecGives (.mov o) o 1 (fun a _ _ d => d = a))
    ∧ ((o.m.fmt = 2#4 ∨ o.m.fmt = 3#4) → VecGives64 (.mov o) o 1 (fun a _ _ d => d = a))
    ∧ (o.m.fmt = 6#4 → VecGives (.iext o) o 1 (fun a _ _ d => d = (a.setWidth 8).signExtend 32))
    ∧ (o.m.fmt = 7#4 → VecGives (.iext o) o 1 (fun a _ _ d => d.toNat = a.toNat % 256))
    ∧ (o.m.fmt = 4#4 → VecGives (.iext o) o 1 (fun a _ _ d => d = (a.setWidth 16).signExtend 32))
    ∧ (o.m.fmt = 5#4 → VecGives (.iext o) o 1 (fun a _ _ d => d.toNat = a.toNat % 65536))
    ∧ (∀ (s : State) (t : Slat) (u : Issue), s.frag = some (t, u) → Unmarked t (t.active u o.h) [(o.a, 1)] →
        (o.m.fmt = 0#4 → LanesGive64 (.iext o) s t u o.dst.toNat (t.active u o.h) (fun l => (t.src32 u o.a l).signExtend 64))
        ∧ (o.m.fmt = 1#4 → LanesGive64 (.iext o) s t u o.dst.toNat (t.active u o.h) (fun l => (t.src32 u o.a l).setWidth 64))))
  ∧ (∀ o : IOp,
    let b : W32 := o.imm.signExtend 32
    (∀ (s : State) (t : Slat) (u : Issue), s.frag = some (t, u) → LanesGive (.li o) s t u o.nw o.dst.toNat (t.active u o.h) (fun _ => b))
    ∧ VecGivesI (.iaddI o) o (fun a d => d = BitVec.ofNat 32 (a.toNat + b.toNat))
    ∧ VecGivesI (.isubI o) o (fun a d => d = BitVec.ofInt 32 (a.toNat - b.toNat))
    ∧ VecGivesI (.imulI o) o (fun a d => d = BitVec.ofNat 32 (a.toNat * b.toNat)))


/-- FLOAT ARITHMETIC (R64, R134, R142, R143): fadd, fsub, fmul and ffma make one rounding, in the instruction's mode and overflow mode, of the
exact sum, difference, product or product plus addend; the I forms round to nearest even with the immediate's 29 bits as the upper bits
of b; the packed forms do the same for each half of a word, and pfcvt packs two FP32 words. -/
def Obligations.FloatArithmetic : Prop :=
  ((∀ o : ROp,
     let val := fun (x : W32) => fop fp32 o.m.ftz x.toNat
     let rounds := fun (x : FVal) (d : W32) => d.toNat = (fround fp32 o.m.rnd.toNat o.m.ovf.toNat o.m.ftz x).bits % 2 ^ 32
     VecGives (.fadd o) o 2 (fun a b _ d => rounds (fsum o.m.rnd.toNat (val a) (val b)) d)
     ∧ VecGives (.fsub o) o 2 (fun a b _ d => rounds (fsum o.m.rnd.toNat (val a) (val b).negate) d)
     ∧ VecGives (.fmul o) o 2 (fun a b _ d => rounds (fprod (val a) (val b)) d)
     ∧ VecGives (.ffma o) o 3 (fun a b c d => rounds (fsum o.m.rnd.toNat (fprod (val a) (val b)) (val c)) d))
   ∧ (∀ o : IOp,
     let b : FVal := fdec fp32 (o.imm.toNat * 8)
     let val := fun (x : W32) => fdec fp32 x.toNat
     let rounds := fun (x : FVal) (d : W32) => d.toNat = (fround fp32 0 0 false x).bits % 2 ^ 32
     VecGivesI (.faddI o) o (fun a d => rounds (fsum 0 (val a) b) d)
     ∧ VecGivesI (.fsubI o) o (fun a d => rounds (fsum 0 (val a) b.negate) d)
     ∧ VecGivesI (.fmulI o) o (fun a d => rounds (fprod (val a) b) d)))
  ∧ (∀ o : ROp, (o.m.fmt = 9#4 ∨ o.m.fmt = 10#4) →
       let x := ffmt o.m.fmt.toNat
       let lo := fun (a : W32) => fop x o.m.ftz (a.toNat % 2 ^ 16)
       let hi := fun (a : W32) => fop x o.m.ftz (a.toNat / 2 ^ 16)
       let r := fun (v : FVal) => (fround x o.m.rnd.toNat o.m.ovf.toNat o.m.ftz v).bits
       let both := fun (p q : FVal) (d : W32) => d.toNat % 2 ^ 16 = r p ∧ d.toNat / 2 ^ 16 = r q
       VecGives (.pfadd o) o 2 (fun a b _ d => both (fsum o.m.rnd.toNat (lo a) (lo b)) (fsum o.m.rnd.toNat (hi a) (hi b)) d)
       ∧ VecGives (.pfmul o) o 2 (fun a b _ d => both (fprod (lo a) (lo b)) (fprod (hi a) (hi b)) d)
       ∧ VecGives (.pffma o) o 3 (fun a b c d => both (fsum o.m.rnd.toNat (fprod (lo a) (lo b)) (lo c))
           (fsum o.m.rnd.toNat (fprod (hi a) (hi b)) (hi c)) d)
       ∧ (o.m.sub = 8#4 → VecGives (.pfcvt o) o 2 (fun a b _ d => both (fop fp32 o.m.ftz a.toNat) (fop fp32 o.m.ftz b.toNat) d)))

/-- ROUNDING (R64): of m 2^e in units of 2^q, q above e, `.rne` gives a nearest multiple and the even one on a tie, `.rz` the truncation, `.ru`
and `.rd` the neighbour on their side of the exact value. -/
def Obligations.RoundingModes : Prop :=
  ∀ (neg : Bool) (m : Nat) (e q : Int), e < q →
    let u := 2 ^ (q - e).toNat
    let n := fun (mode : Nat) => roundUnits mode neg m e q false
    (2 * (n 0 * u) ≤ 2 * m + u ∧ 2 * m ≤ 2 * (n 0 * u) + u ∧ (2 * m % (2 * u) = u → n 0 % 2 = 0))
    ∧ n 1 = m / u
    ∧ (n 2 = if neg then m / u else (m + u - 1) / u)
    ∧ (n 3 = if neg then (m + u - 1) / u else m / u)

/-- FP32 MINIMUM AND MAXIMUM (R135): an operand unchanged, −0 below +0; a NaN gives way to the other operand; two NaNs give 0x7FC00000. -/
def Obligations.FloatMinMax : Prop :=
  let nan := fun (x : W32) => fdec fp32 x.toNat = .nan
  let key := fun (x : W32) => if x.toNat < 2 ^ 31 then (x.toNat : Int) else 2 ^ 31 - 1 - (x.toNat : Int)
  let least := fun (a b d : W32) =>
    (nan a → nan b → d = 0x7FC00000#32) ∧ (nan a → ¬ nan b → d = b) ∧ (¬ nan a → nan b → d = a)
    ∧ (¬ nan a → ¬ nan b → d = if key a ≤ key b then a else b)
  let greatest := fun (a b d : W32) =>
    (nan a → nan b → d = 0x7FC00000#32) ∧ (nan a → ¬ nan b → d = b) ∧ (¬ nan a → nan b → d = a)
    ∧ (¬ nan a → ¬ nan b → d = if key a ≤ key b then b else a)
  let flush := fun (ftz : Bool) (x : W32) => if ftz ∧ x.toNat / 2 ^ 23 % 256 = 0 then x &&& 0x80000000#32 else x
  (∀ o : ROp, VecGives (.fmin o) o 2 (fun a b _ d => least (flush o.m.ftz a) (flush o.m.ftz b) d)
    ∧ VecGives (.fmax o) o 2 (fun a b _ d => greatest (flush o.m.ftz a) (flush o.m.ftz b) d))
  ∧ (∀ o : IOp,
    let b : W32 := BitVec.ofNat 32 (o.imm.toNat * 8)
    VecGivesI (.fminI o) o (fun a d => least a b d) ∧ VecGivesI (.fmaxI o) o (fun a d => greatest a b d))

/-- ROUND, SCALE AND CLASSIFY (R137, R138): frnd rounds to an integral value, fscl multiplies by 2^b with one rounding and leaves zeros as
they are, fclass sets exactly one of nine bits. -/
def Obligations.RoundScaleClass : Prop :=
  ∀ o : ROp,
    VecGives (.frnd o) o 1 (fun a _ _ d =>
      match fdec fp32 a.toNat with
      | .nan => d = 0x7FC00000#32
      | .inf _ => d = a
      | .fin n m e => d.toNat = (fround fp32 0 0 false (.fin n (roundUnits o.m.rnd.toNat n m e 0 false) 0)).bits % 2 ^ 32)
    ∧ VecGives (.fscl o) o 2 (fun a b _ d =>
      (∀ n m e, fop fp32 o.m.ftz a.toNat = .fin n m e → -600 ≤ b.toInt → b.toInt ≤ 600 →
        d.toNat = (fround fp32 o.m.rnd.toNat o.m.ovf.toNat o.m.ftz (.fin n m (e + b.toInt))).bits % 2 ^ 32)
      ∧ (a = 0#32 ∨ a = 0x80000000#32 → d = a))
    ∧ VecGives (.fclass o) o 1 (fun a _ _ d => ∃ k, k < 9 ∧ d = 1#32 <<< k
      ∧ ((o.m.fmt = 0#4 ∨ o.m.fmt = 8#4) →
          let ex := a.toNat / 2 ^ 23 % 256
          let fr := a.toNat % 2 ^ 23
          let neg := a.toNat / 2 ^ 31 = 1
          (k = 8 ↔ ex = 255 ∧ fr ≠ 0) ∧ (k = 7 ↔ ex = 255 ∧ fr = 0 ∧ ¬ neg) ∧ (k = 0 ↔ ex = 255 ∧ fr = 0 ∧ neg)
          ∧ (k = 4 ↔ ex = 0 ∧ fr = 0 ∧ ¬ neg) ∧ (k = 3 ↔ ex = 0 ∧ fr = 0 ∧ neg)
          ∧ (k = 5 ↔ ex = 0 ∧ fr ≠ 0 ∧ ¬ neg) ∧ (k = 2 ↔ ex = 0 ∧ fr ≠ 0 ∧ neg)))

/-- SPECIAL FUNCTIONS (R139): with .rne and no .ftz, the special values of the table, and the reciprocal of a power of two, which is
exact. -/
def Obligations.SpecialFunctions : Prop :=
  ∀ o : ROp, o.m.rnd = 0#2 → o.m.ftz = false →
    let nan := 0x7FC00000#32
    let pinf := 0x7F800000#32
    let ninf := 0xFF800000#32
    let isNan := fun (x : W32) => fdec fp32 x.toNat = .nan
    let below := fun (x : W32) => 0x80000000 < x.toNat ∧ x.toNat ≤ 0xFF800000
    VecGives (.frcp o) o 1 (fun a _ _ d => (isNan a → d = nan) ∧ (a = 0 → d = pinf) ∧ (a = 0x80000000#32 → d = ninf)
      ∧ (a = pinf → d = 0) ∧ (a = ninf → d = 0x80000000#32)
      ∧ (∀ k, 1 ≤ k → k ≤ 253 → a.toNat = k * 2 ^ 23 → d.toNat = (254 - k) * 2 ^ 23))
    ∧ VecGives (.frsq o) o 1 (fun a _ _ d => (isNan a → d = nan) ∧ (a = 0 → d = pinf) ∧ (a = 0x80000000#32 → d = ninf)
      ∧ (below a → d = nan) ∧ (a = pinf → d = 0))
    ∧ VecGives (.fsqrt o) o 1 (fun a _ _ d => (isNan a → d = nan) ∧ (a = 0 → d = 0) ∧ (a = 0x80000000#32 → d = a)
      ∧ (below a → d = nan) ∧ (a = pinf → d = pinf))
    ∧ VecGives (.fex2 o) o 1 (fun a _ _ d => (isNan a → d = nan) ∧ (a = ninf → d = 0) ∧ (a = pinf → d = pinf)
      ∧ (0x43000000 ≤ a.toNat → a.toNat ≤ 0x7F800000 → d = pinf))
    ∧ VecGives (.flg2 o) o 1 (fun a _ _ d => (isNan a → d = nan) ∧ (a = 0 ∨ a = 0x80000000#32 → d = ninf)
      ∧ (below a → d = nan) ∧ (a = pinf → d = pinf) ∧ (a = 0x3F800000#32 → d = 0))
    ∧ VecGives (.fsin o) o 1 (fun a _ _ d => (isNan a → d = nan) ∧ (a = pinf ∨ a = ninf → d = nan)
      ∧ (a = 0 ∨ a = 0x80000000#32 → d = a))
    ∧ VecGives (.fcos o) o 1 (fun a _ _ d => (isNan a → d = nan) ∧ (a = pinf ∨ a = ninf → d = nan)
      ∧ (a = 0 ∨ a = 0x80000000#32 → d = 0x3F800000#32))

/-- CONVERSIONS (R69 to R71, R73, R74, R140, R141): between every two formats. An integer destination takes the rounded value clamped to its
range, 0 for a NaN; from an integer its low bits, or the clamped value where `.sat` narrows; 8 and 16 bits fill the lane with the sign or with
zeros. A float destination takes the exact value rounded once, an overflow as the ovf field says; under `.out` an overflowing lane owes a record,
which the end of the clause appends to its list where that has room.
Where the manual leaves it open this is the model's choice, log 71. -/
def Obligations.Conversions : Prop :=
  ∀ (s : State) (t : Slat) (u : Issue) (o : ROp), s.frag = some (t, u) →
    let src := o.m.sub.toNat
    let dst := o.m.fmt.toNat
    let ls := t.active u o.h
    let width := fun (c : Nat) => match c / 2 with
      | 0 => 32
      | 1 => 64
      | 2 => 16
      | _ => 8
    let lo : Int := if dst % 2 = 0 then -(2 ^ (width dst - 1)) else 0
    let hi : Int := if dst % 2 = 0 then 2 ^ (width dst - 1) - 1 else 2 ^ width dst - 1
    let clamp := fun (x : Int) => max lo (min hi x)
    let raw := fun (l : Nat) => if src / 2 = 1 then (t.src64 o.a l).toNat else (t.src32 u o.a l).toNat % 2 ^ width src
    let int := fun (l : Nat) => if src % 2 = 1 ∨ raw l < 2 ^ (width src - 1) then (raw l : Int) else raw l - 2 ^ width src
    let flt := fun (l : Nat) => fop (ffmt src) o.m.ftz ((t.src32 u o.a l).toNat % 2 ^ (ffmt src).width)
    let exact := fun (l : Nat) => if src < 8 then FVal.fin (decide (int l < 0)) (int l).natAbs 0 else flt l
    let whole := fun (x : FVal) => match x with
      | .nan => (0 : Int)
      | .inf n => if n then lo else hi
      | .fin n m e => clamp (if n then -(roundUnits o.m.rnd.toNat n m e 0 false : Int) else roundUnits o.m.rnd.toNat n m e 0 false)
    let becomes := fun (l : Nat) (z : Int) => lo ≤ z ∧ z ≤ hi ∧ (8 ≤ src → z = whole (flt l))
      ∧ (src < 8 → o.m.ovf = 1#2 → width dst < width src → z = clamp (int l))
      ∧ (src < 8 → o.m.ovf ≠ 1#2 ∨ width src < width dst → (z - int l) % 2 ^ width dst = 0)
    let n := if src / 2 = 1 then 2 else 1
    (Unmarked t ls [(o.a, n)] →
      (dst < 8 → dst / 2 ≠ 1 → ∃ f, LanesGive (.fcvt o) s t u o.nw o.dst.toNat ls f
        ∧ ∀ l, l ∈ ls → becomes l (if dst % 2 = 0 then (f l).toInt else (f l).toNat))
      ∧ (dst / 2 = 1 → ∃ f, LanesGive64 (.fcvt o) s t u o.dst.toNat ls f
        ∧ ∀ l, l ∈ ls → becomes l (if dst % 2 = 0 then (f l).toInt else (f l).toNat))
      ∧ (8 ≤ dst → ¬ (dst = 11 ∧ o.m.ovf = 3#2) → ∃ f, LanesGive (.fcvt o) s t u o.nw o.dst.toNat ls f
        ∧ ∀ l, l ∈ ls → (f l).toNat = (fround (ffmt dst) o.m.rnd.toNat o.m.ovf.toNat o.m.ftz (exact l)).bits % 2 ^ 32))
    ∧ (dst = 11 → o.m.ovf = 3#2 → Unmarked t ls [(o.a, n), (o.b, 1), (o.c, 1)] →
        let e4 := fun (l : Nat) => fround (ffmt 11) o.m.rnd.toNat 3 o.m.ftz (exact l)
        let asFp32 := fun (l : Nat) => toF32 (exact l)
        let off := (t.srcS o.b).1.toNat
        (∃ f, LanesGive (.fcvt o) s t u o.nw o.dst.toNat ls f
          ∧ ∀ l, l ∈ ls → (f l).toNat = if (e4 l).ov = false then (e4 l).bits % 2 ^ 32 else if s.outRoom t off = true then 0
              else if (asFp32 l).getLsbD 31 then 0xFE else 0x7E)
        ∧ ∃ t' u', Completes (.fcvt o) s t' u' ∧ ∀ l, l ∈ ls → (e4 l).ov = true →
            (⟨off, if o.nw then none else some o.dst.toNat, u.pos, l, t.src32 u o.c l, asFp32 l⟩ : OutRec) ∈ u'.outs)
    ∧ (∀ (x : OutRec) (core a : Nat), s.desc t x.desc = .ok core a → Memory.wf (s.core core).spad = true →
        let word := fun (s : State) (i k : Nat) => leNat (Memory.readN (s.core core).spad (a + i) k)
        let (s', t', recs) := settleOut u (s, t, []) x
        let gives := fun (v : Nat) => ∀ d, x.dst = some d → x.lane < 32 → (t'.vget d x.lane).toNat = v
        (word s 12 4 < word s 8 3 → gives 0 ∧ word s' 12 4 = word s 12 4 + 1 ∧ t'.pend = t.pend
          ∧ recs = [(x.pos, ⟨x.lane, .glob (BitVec.ofNat 64 (word s 0 8 + 8 * word s 12 4)) none,
              some (x.val.toNat * 2 ^ 32 + x.idx.toNat), .queued⟩)])
        ∧ (word s 8 3 ≤ word s 12 4 → gives (if x.val.getLsbD 31 then 0xFE else 0x7E) ∧ recs = [] ∧ word s' 11 1 / 128 = 1
          ∧ word s' 12 4 = word s 12 4 ∧ (word s 11 1 / 64 % 2 = 0 → t'.pend = t.pend)
          ∧ (word s 11 1 / 64 % 2 = 1 → ∃ c, c ∈ t'.pend ∧ c.code = 0xC)))

/-- SHUFFLES AND VOTES (R145, R147 to R150): a lane gets what its source lane of the tile supplies: its operand where the slat still has that
lane, 0 where it has gone; vall, vany and vbal take the active lanes of each lane's tile, with the predicate their A field names. -/
def Obligations.ShufflesVotes : Prop :=
  (∀ (s : State) (t : Slat) (u : Issue), s.frag = some (t, u) →
     let w := t.width
     let src := fun (mode n l : Nat) => match mode with
       | 0 => (l - l % w) + n % w
       | 1 => if n ≤ l % w then l - n else l
       | 2 => if l % w + n < w then l + n else l
       | _ => (l - l % w) + (l % w ^^^ n % w)
     let val := fun (a : Src) (k : Nat) => if t.has k then t.src32 u a k else 0
     (∀ o : ROp, (∀ l, l ∈ t.active u o.h → t.marked o.b 1 l = false ∧ ∀ k, t.marked o.a 1 k = false) →
       LanesGive (.shf o) s t u o.nw o.dst.toNat (t.active u o.h)
         (fun l => val o.a (src (o.m.sub.toNat % 4) (t.src32 u o.b l).toNat l)))
     ∧ (∀ o : IOp, (∀ k, t.marked o.a 1 k = false) →
       LanesGive (.shfI o) s t u o.nw o.dst.toNat (t.active u o.h) (fun l => val o.a (src (o.imm.toNat / 32 % 4) (o.imm.toNat % 32) l))))
  ∧ (∀ (s : State) (t : Slat) (u : Issue) (o : ROp), s.frag = some (t, u) →
       let ls := t.active u o.h
       let tile := fun (l : Nat) => ls.filter (fun k => k / t.width == l / t.width)
       let q := fun (k : Nat) => Bool.xor (t.pget (o.a.bits.toNat % 8) k) (o.a.bits.getLsbD 3)
       0 < t.width →
         LanesTest (.vall o) s t u (o.dst.toNat % 8) ls (fun l => (tile l).all q)
         ∧ LanesTest (.vany o) s t u (o.dst.toNat % 8) ls (fun l => (tile l).any q)
         ∧ ∃ f, LanesGive (.vbal o) s t u o.nw o.dst.toNat ls f
           ∧ ∀ l j, l ∈ ls → j < 32 → ((f l).getLsbD j = true ↔ j ∈ tile l ∧ q j = true))

/-- MATCHES (R151): for each active lane, the mask of the active lanes of its tile whose operand is the same bits. -/
def Obligations.Matches : Prop :=
  ∀ (s : State) (t : Slat) (u : Issue) (o : ROp), s.frag = some (t, u) → Unmarked t (t.active u o.h) [(o.a, 1)] → 0 < t.width →
    ∃ f, LanesGive (.vmatch o) s t u o.nw o.dst.toNat (t.active u o.h) f
      ∧ ∀ l k, l ∈ t.active u o.h → k < 32 →
        ((f l).getLsbD k = true ↔ k ∈ t.active u o.h ∧ k / t.width = l / t.width ∧ t.src32 u o.a k = t.src32 u o.a l)

/-- INTERSECTIONS (R154): the mask of the A elements found among the tile's B elements, and the three counts. -/
def Obligations.Intersections : Prop :=
  ∀ (s : State) (t : Slat) (u : Issue) (o : ROp), s.frag = some (t, u) →
    Unmarked t (t.active u o.h) [(o.a, 1), (o.b, 1)] → 0 < t.width →
    ∃ f, LanesGive64 (.isect o) s t u o.dst.toNat (t.active u o.h) f
      ∧ ∀ l, l ∈ t.active u o.h →
        let ks := (t.active u o.h).filter (fun k => k / t.width == l / t.width)
        let a := fun (k : Nat) => (t.src32 u o.a k).toNat
        let b := fun (k : Nat) => (t.src32 u o.b k).toNat
        let found := fun (j : Nat) => ks.any (fun k => b k == a j)
        (∀ j, j < 32 → ((f l).getLsbD j = true ↔ j ∈ ks ∧ found j = true))
        ∧ (f l).toNat / 2 ^ 32 = (ks.filter (fun j => ks.any (fun k => decide (a j ≤ b k)))).length
            + (ks.filter (fun k => ks.any (fun j => decide (b k ≤ a j)))).length * 2 ^ 8 + (ks.filter found).length * 2 ^ 16

/-- SCANS AND REDUCTIONS (R77, R147, R152, R153): an inactive lane supplies the identity at its own place; lred gives each active lane what the
tile's values give in the order of R77, the distance doubling, scan what those up to the lane give, or under `.excl` those before it. Of an
integer operation that is the wrapped sum, the least or greatest value, or the bits that all, some or an odd number of the values have. -/
def Obligations.ScansReductions : Prop :=
  ∀ (s : State) (t : Slat) (u : Issue) (o : ROp), s.frag = some (t, u) → Unmarked t (t.active u o.h) [(o.a, 1)] →
    t.width ∈ [2, 4, 8, 16, 32] →
    let ls := t.active u o.h
    let w := t.width
    let n := o.m.sub.toNat % 8
    let float := o.m.fmt = 8#4
    let key := fun (x : W32) => if o.m.fmt = 0#4 then x.toInt else x.toNat
    let fpk := fun (greater : Bool) (x y : W32) => BitVec.ofNat 32 (fpick fp32 greater false x.toNat y.toNat)
    let op := fun (x y : W32) => match n with
      | 0 => if float then f32add x y else x + y
      | 1 => if float then fpk false x y else if key x ≤ key y then x else y
      | 2 => if float then fpk true x y else if key y ≤ key x then x else y
      | 3 => x &&& y
      | 4 => x ||| y
      | _ => x ^^^ y
    let id : W32 := match n with
      | 0 => if float then 0x80000000#32 else 0#32
      | 1 => if float then 0x7F800000#32 else if o.m.fmt = 0#4 then 0x7FFFFFFF#32 else 0xFFFFFFFF#32
      | 2 => if float then 0xFF800000#32 else if o.m.fmt = 0#4 then 0x80000000#32 else 0#32
      | 3 => 0xFFFFFFFF#32
      | _ => 0#32
    let x := fun (k : Nat) => if k ∈ ls then t.src32 u o.a k else id
    let tree := fun (m : Nat) => Nat.rec (motive := fun _ => Nat → W32) x (fun m f k => op (f k) (f (k + 2 ^ m))) m
    let upTo_ := fun (m : Nat) => Nat.rec (motive := fun _ => Nat → W32) x (fun m f k => if 2 ^ m ≤ k % w then op (f (k - 2 ^ m)) (f k) else f k) m
    let tile := fun (l : Nat) => ls.filter (fun k => k / w == l / w)
    let folds := fun (ks : List Nat) (d : W32) => ¬ float →
      let v := t.src32 u o.a
      (n = 0 → d.toNat = (ks.map (fun k => (v k).toNat)).sum % 2 ^ 32)
      ∧ (n = 1 → (ks = [] → d = id) ∧ (ks ≠ [] → (∃ k, k ∈ ks ∧ d = v k) ∧ ∀ k, k ∈ ks → key d ≤ key (v k)))
      ∧ (n = 2 → (ks = [] → d = id) ∧ (ks ≠ [] → (∃ k, k ∈ ks ∧ d = v k) ∧ ∀ k, k ∈ ks → key (v k) ≤ key d))
      ∧ (n = 3 → ∀ j, j < 32 → d.getLsbD j = ks.all (fun k => (v k).getLsbD j))
      ∧ (n = 4 → ∀ j, j < 32 → d.getLsbD j = ks.any (fun k => (v k).getLsbD j))
      ∧ (n = 5 → ∀ j, j < 32 → d.getLsbD j = decide ((ks.filter (fun k => (v k).getLsbD j)).length % 2 = 1))
    (∃ f, LanesGive (.lred o) s t u o.nw o.dst.toNat ls f
      ∧ ∀ l, l ∈ ls → f l = tree (Nat.log2 w) (l - l % w) ∧ folds (tile l) (f l))
    ∧ (∃ f, LanesGive (.scan o) s t u o.nw o.dst.toNat ls f
      ∧ ∀ l, l ∈ ls →
        f l = (if o.m.sub.getLsbD 3 then (if l % w = 0 then id else upTo_ (Nat.log2 w) (l - 1)) else upTo_ (Nat.log2 w) l)
        ∧ folds ((tile l).filter (fun k => if o.m.sub.getLsbD 3 then decide (k < l) else decide (k ≤ l))) (f l))

/-- MEMORY INSTRUCTIONS AS THEY ISSUE (R81, R156, R157, R170 to R174): each places one entry on ls for each line its lanes touch, at bN or the
share plus the offset plus the immediate scaled by the width; nothing is accessed yet: no byte of memory, no register but bN and no
home changes. Where the first use of bN walks, what the walk reads is at hand. -/
def Obligations.MemoryEntries : Prop :=
  ∀ (s : State) (t : Slat) (u : Issue) (o : MOp), s.frag = some (t, u) → t.logFull = false → t.ctrFull (ctrOf o.ctr) = false →
    let w := o.width.toNat
    let ofs := fun (l : Nat) => t.ofs o.off l + o.imm.signExtend 64 * BitVec.ofNat 64 (2 ^ w)
    let lanes := t.active u o.h
    let places := fun (i : Instr) (sp : Space) (ls : List Nat) (op : EOp) =>
      ls ≠ [] → (∀ l, l ∈ ls → t.addrMarked o sp l = false) → s.hubOk true (s.useWalks t sp o.bn) = true →
      ∃ es, exec i s = .next (placed (s.useB t sp o.bn).2 (s.useB t sp o.bn).1 u es (ctrOf o.ctr) es.length (es.length + 1))
        ∧ LineEntries s.next (s.next + 1) u es .ls op ls (fun l => s.locOf t sp o.bn (ofs l)) (fun _ => none)
    places (.ld o) .glob lanes (.load w false o.dst.toNat o.h.hint.toNat)
    ∧ places (.st o) .glob lanes (.store w false o.data o.h.hint.toNat)
    ∧ places (.lds o) .own lanes (.load w false o.dst.toNat 0) ∧ places (.sts o) .own lanes (.store w false o.data 0)
    ∧ places (.ldp o) .peer lanes (.load w false o.dst.toNat 0) ∧ places (.stp o) .peer lanes (.store w false o.data 0)
    ∧ places (.pref o) .glob lanes (.pref w o.h.hint.toNat)
    ∧ (t.qHolds o.h = true → places (.sld o) .glob [0] (.load w true o.dst.toNat o.h.hint.toNat)
        ∧ places (.sst o) .glob [0] (.store w true o.data o.h.hint.toNat))
    ∧ (∀ (r : TRes) (l : Nat), (t.bget o.bn.toNat).res = some r →
        s.useB t .glob o.bn = (t, s)
        ∧ (0 ≤ (ofs l).toInt → (ofs l).toInt < r.limit →
            s.locOf t .glob o.bn (ofs l) = .glob ((t.bget o.bn.toNat).vbase + ofs l) (some (r.pbase + (ofs l).toNat, r.perm))))

/-- HELD AT ISSUE (R54, R165): with the operand log full or its counter at 63, a memory instruction that some lane executes waits at its
place: nothing of it happens and no fragment issues; so does one whose translation register is first used by it, until the lines of the walk
are at hand. One that no lane executes only moves on.
Where the manual leaves it open this is the model's choice, log 23 and 28. -/
def Obligations.HeldAtIssue : Prop :=
  ∀ (s : State) (t : Slat) (u : Issue) (o : MOp), s.frag = some (t, u) →
    let each := fun (x : Instr → Prop) =>
      x (.ld o) ∧ x (.st o) ∧ x (.lds o) ∧ x (.sts o) ∧ x (.ldp o) ∧ x (.stp o) ∧ x (.pref o) ∧ x (.acc o) ∧ x (.ldt o)
      ∧ x (.atmAdd o) ∧ x (.atmCas o) ∧ x (.atmsAdd o) ∧ x (.atmsCas o)
    (t.active u o.h ≠ [] → t.logFull = true ∨ t.ctrFull (ctrOf o.ctr) = true →
      each (fun i => ∃ s', exec i s = .next s' ∧ s'.slat? t.uid = some { t with issue := some { u with held := true } }
        ∧ s' = { s with slats := s'.slats, focus := none }))
    ∧ (let ws := s.useWalks t .glob o.bn
       t.active u o.h ≠ [] → t.logFull = false → t.ctrFull (ctrOf o.ctr) = false → s.hubOk true ws = false →
        (∀ l, l ∈ t.active u o.h → t.addrMarked o .glob l = false) → ∀ i, i ∈ [Instr.ld o, .st o, .pref o, .acc o, .atmAdd o, .atmCas o] →
          exec i s = .next ((s.hubAsk true t.fn t.part ws).hold t u))
    ∧ (t.active u o.h = [] → each (fun i => exec i s = .next (s.advance t u)))

/-- ATOMICS AS THEY ISSUE (R91, R192 to R195): one entry for each line, after a release marker where the order asks for one and before an
acquire marker likewise; the markers hold no counter. Where the first use of bN walks, what the walk reads is at hand. -/
def Obligations.AtomicEntries : Prop :=
  ∀ (s : State) (t : Slat) (u : Issue) (o : MOp), s.frag = some (t, u) → t.logFull = false → t.ctrFull (ctrOf o.ctr) = false →
    t.active u o.h ≠ [] →
    let ord := o.imm.toNat / 64 % 4
    let atomic := fun (i : Instr) (sp : Space) (n : Nat) =>
      (∀ l, l ∈ t.active u o.h → t.addrMarked o sp l = false) → s.hubOk true (s.useWalks t sp o.bn) = true →
      ∃ pre es post, exec i s = .next (placed (s.useB t sp o.bn).2 (s.useB t sp o.bn).1 u (pre ++ es ++ post) (ctrOf o.ctr) es.length
            (1 + pre.length + es.length + post.length))
        ∧ LineEntries s.next (s.next + 1 + pre.length) u es .ls (.atomic n o.width.toNat (o.imm.getLsbD 5) (o.imm.getLsbD 4) o.dst.toNat o.data)
            (t.active u o.h) (fun l => s.locOf t sp o.bn (t.ofs o.off l)) (fun _ => none)
        ∧ (if 2 ≤ ord then ∃ m, pre = [markerEnt (s.next + 1) [.ls] m] ∧ m.rel = true else pre = [])
        ∧ (if ord % 2 = 1 then ∃ m, post = [markerEnt (s.next + 1 + pre.length + es.length) [.ls] m] ∧ m.rel = false else post = [])
    atomic (.atmAdd o) .glob 0 ∧ atomic (.atmMin o) .glob 1 ∧ atomic (.atmMax o) .glob 2 ∧ atomic (.atmAnd o) .glob 3
    ∧ atomic (.atmOr o) .glob 4 ∧ atomic (.atmXor o) .glob 5 ∧ atomic (.atmXchg o) .glob 6 ∧ atomic (.atmCas o) .glob 7
    ∧ atomic (.atmFadd o) .glob 8 ∧ atomic (.atmFmax o) .glob 9
    ∧ atomic (.atmsAdd o) .own 0 ∧ atomic (.atmsMin o) .own 1 ∧ atomic (.atmsMax o) .own 2 ∧ atomic (.atmsAnd o) .own 3
    ∧ atomic (.atmsOr o) .own 4 ∧ atomic (.atmsXor o) .own 5 ∧ atomic (.atmsXchg o) .own 6 ∧ atomic (.atmsCas o) .own 7
    ∧ atomic (.atmsFadd o) .own 8 ∧ atomic (.atmsFmax o) .own 9

/-- ACCUMULATIONS AS THEY ISSUE (R217 to R220): acc and ldt one entry on ac for each line, ldt with each lane's tolerance read now, acc with no
value captured yet; grd and drn of a line one entry; drn of a region or of all, and bnd, an entry with no lane that carries their operand.
Where the first use of bN walks, what the walk reads is at hand. When a tolerance and an added value are read the manual does not say.
Where the manual leaves it open this is the model's choice, log 22. -/
def Obligations.AccumulateEntries : Prop :=
  (∀ (s : State) (t : Slat) (u : Issue) (o : MOp), s.frag = some (t, u) → t.logFull = false → t.ctrFull (ctrOf o.ctr) = false →
    let ofs := fun (l : Nat) => t.ofs o.off l + o.imm.signExtend 64 * BitVec.ofNat 64 (2 ^ o.width.toNat)
    let mode := o.imm.toNat / 512 % 4
    let places := fun (i : Instr) (ls : List Nat) (op : EOp) (ofs : Nat → W64) (data : Nat → Option Nat) =>
      s.hubOk true (s.useWalks t .glob o.bn) = true → ∃ es, exec i s = .next (placed (s.useB t .glob o.bn).2 (s.useB t .glob o.bn).1 u es (ctrOf o.ctr) es.length (es.length + 1))
        ∧ LineEntries s.next (s.next + 1) u es .ac op ls (fun l => s.locOf t .glob o.bn (ofs l)) data
    (t.active u o.h ≠ [] → (∀ l, l ∈ t.active u o.h → t.marked o.off 1 l = false) →
      places (.acc o) (t.active u o.h) (.acc (o.width == 1#3) o.data) ofs (fun _ => none)
      ∧ ((∀ l, l ∈ t.active u o.h → t.marked o.data 1 l = false) →
          places (.ldt o) (t.active u o.h) (.ldt (o.width == 1#3) o.dst.toNat) ofs (fun l => some (t.dataBits o.data l).toNat)))
    ∧ (t.qHolds o.h = true → t.marked o.off 1 0 = false →
      places (.grd o) [0] (.grd o.dst.toNat) (fun l => t.ofs o.off l) (fun _ => none)
      ∧ (mode = 0 → places (.drn o) [0] (.drn 0 0) (fun l => t.ofs o.off l) (fun _ => none))
      ∧ (mode ≠ 0 → ∃ e, exec (.drn o) s = .next (placed s t u [e] (ctrOf o.ctr) 1 2)
          ∧ e.op = .drn mode (t.ofs o.off 0) ∧ e.paths = [.ac] ∧ e.lanes = [] ∧ e.seq = s.next + 1)))
  ∧ (∀ (s : State) (t : Slat) (u : Issue) (o : ROp), s.frag = some (t, u) → t.qHolds o.h = true →
      (t.srcS o.a).2 = false → (t.srcS o.b).2 = false →
      ∃ e, exec (.bnd o) s = .next (placed s t u [e] none 1 2)
        ∧ e.op = .bnd (t.srcS o.a).1 (t.srcS o.b).1 ∧ e.paths = [.ac] ∧ e.lanes = [] ∧ e.seq = s.next + 1)

/-- CLAMP INSTRUCTIONS AS THEY ISSUE (R96, R201 to R203): one entry on ls at the clamp's place; clma after a device-scope release, clmt before a
device-scope acquire on every path; clmw also parks the slat.
Where the manual leaves it open this is the model's choice, log 30. -/
def Obligations.ClampEntries : Prop :=
  ∀ (s : State) (t : Slat) (u : Issue) (o : MOp), s.frag = some (t, u) → t.logFull = false → t.ctrFull (ctrOf o.ctr) = false →
    t.qHolds o.h = true → t.addrMarked o (clampSpace o) 0 = false → s.hubOk true (s.useWalks t (clampSpace o) o.bn) = true →
    let x := (t.ofs o.data 0).toNat
    let sp := clampSpace o
    let entry := fun (k : ClampOp) (at_ : Nat) (e : QEnt) =>
      LineEntries s.next at_ u [e] .ls (.clamp k (o.imm.toNat / 512 % 4) (t.sget o.bn.toNat)) [0]
        (fun _ => s.locOf t sp o.bn (t.ofs o.off 0)) (fun _ => none)
    let by_ := placed (s.useB t sp o.bn).2 (s.useB t sp o.bn).1 u
    let n := s.next
    (∃ e, exec (.clma o) s = .next (by_ [markerEnt (n + 1) [.ls, .ac, .cp] (relMark true), e] (ctrOf o.ctr) 1 3) ∧ entry .arrive (n + 2) e)
    ∧ (t.marked o.data 1 0 = false →
      (∃ e, exec (.clmi o) s = .next (by_ [e] (ctrOf o.ctr) 1 2) ∧ entry (.init (x % 2 ^ 32) (x / 2 ^ 32 % 2 ^ 16)) (n + 1) e)
      ∧ (∃ e, exec (.clmx o) s = .next (by_ [e] (ctrOf o.ctr) 1 2) ∧ entry (.expect (x % 2 ^ 32)) (n + 1) e)
      ∧ (∃ e, exec (.clmt o) s = .next (by_ [e, markerEnt (n + 2) allPaths (acqMark true)] (ctrOf o.ctr) 1 3)
          ∧ entry (.test (o.dst.toNat % 8) (x % 2 ^ 16)) (n + 1) e)
      ∧ (∃ e, exec (.clmw o) s = .next ((by_ [e] (ctrOf o.ctr) 1 2).parked t.uid .clmw 0)
          ∧ entry (.wait (x % 2 ^ 16)) (n + 1) e))

/-- FENCES AND THE BARRIER (R60, R90, R91, R95, R96, R198, R205): fen places a release marker, an acquire marker or both, in that order, on the
paths it names, and the last of them writes %fst; tbar places a release on ls, ac and cp and parks the slat until it completes. -/
def Obligations.FenceMarkers : Prop :=
  (∀ (s : State) (t : Slat) (u : Issue) (o : ROp), s.frag = some (t, u) → t.qHolds o.h = true →
    let m := o.m.bits.toNat
    let home := s.scopeHome t (m / 2 ^ 10 % 8)
    let sys := m / 2 ^ 10 % 8 == 4
    let n := s.next
    (o.m.bits.getLsbD 2 = true → (t.srcS o.a).2 = false) →
    ∃ ps, (∀ p : Path, p ∈ ps ↔ m.testBit (match p with
        | .ls => 3
        | .ac => 4
        | .cp => 5
        | .mx => 6
        | .xf => 7) = true)
      ∧ (let rel := fun (last : Bool) => { relMark home with sys := sys, fst := last }
         let acq := { acqMark home with sys := sys, fst := true, promote := if m.testBit 2 then some (t.srcS o.a).1 else none }
         (m.testBit 8 = true → m.testBit 9 = false →
            exec (.fen o) s = .next (placed s t u [markerEnt (n + 1) ps (rel true)] none 0 2))
         ∧ (m.testBit 8 = false → m.testBit 9 = true → exec (.fen o) s = .next (placed s t u [markerEnt (n + 1) ps acq] none 0 2))
         ∧ (m.testBit 8 = true → m.testBit 9 = true →
            exec (.fen o) s = .next (placed s t u [markerEnt (n + 1) ps (rel false), markerEnt (n + 2) ps acq] none 0 3))))
  ∧ (∀ (s : State) (t : Slat) (u : Issue) (o : ZOp), s.frag = some (t, u) → t.qHolds o.h = true →
      exec (.tbar o) s = .next
        ((placed s t u [markerEnt (s.next + 1) [.ls, .ac, .cp] (relMark (s.scopeHome t 1))] none 0 2).parked t.uid .tbar
          (BitVec.ofNat 64 (s.next + 1))))

/-- COPIES AS THEY ISSUE (R234, R236): each copy instruction places one entry on cp with its operands as they stand; a continued fragment goes
to its continuation and waits for the entry; a length of 0 completes at once. -/
def Obligations.CopyEntries : Prop :=
  ∀ (s : State) (t : Slat) (u : Issue) (o : XOp), s.frag = some (t, u) → t.qHolds o.h = true → t.ctrFull (ctrOf o.ctr) = false →
    let clean := fun (rs : List (BitVec 6)) => ∀ r, r ∈ rs → (t.srcS (.s r)).2 = false
    let to_ := u.h + o.c16.signExtend 64
    let copies := fun (i : Instr) (op : Nat) (rs : List (BitVec 6)) => clean rs →
      (op = 7 ∨ t.sget o.sN.toNat ≠ 0 →
        ∃ e, exec i s = .next (placed s
              (if o.cont then t.setEnt u.ent { t.ent u.ent with pc := to_, cont := some (s.next + 1) } else t) u [e] (ctrOf o.ctr) 1 2)
          ∧ e.seq = s.next + 1 ∧ e.paths = [.cp] ∧ e.lanes = []
          ∧ e.op = .copy ⟨op, t.sget o.sD.toNat, t.sget o.sS.toNat, t.sget o.sN.toNat, t.sget o.sE.toNat, o.sD.toNat, o.h.hint.toNat⟩)
      ∧ (op ≠ 7 → t.sget o.sN.toNat = 0 →
          exec i s = .next (s.advance (if o.cont then t.setEnt u.ent { t.ent u.ent with pc := to_ } else t) u))
    copies (.cpy o) 0 [o.sD, o.sS, o.sN] ∧ copies (.cpye o) 1 [o.sD, o.sS, o.sN] ∧ copies (.rel o) 2 [o.sD, o.sS, o.sN, o.sE]
    ∧ copies (.cpys o) 3 [o.sD, o.sS, o.sN] ∧ copies (.cpym o) 4 [o.sD, o.sS, o.sN, o.sE] ∧ copies (.mat o) 5 [o.sD, o.sN]
    ∧ copies (.vdrop o) 6 [o.sD, o.sN] ∧ copies (.vstat o) 7 [o.sS]

/-- MATRIX INSTRUCTIONS AS THEY ISSUE (R264, R265, R275): with room in the core's queue and no marked register read, the instruction stands at
the queue's tail with its operand registers as they are now; those that read the scratchpad or memory also place an entry on mx; a full
queue holds it.
Where the manual leaves it open this is the model's choice, log 39. -/
def Obligations.MatrixIssue : Prop :=
  ∀ (s : State) (t : Slat) (u : Issue) (o : TOp), s.frag = some (t, u) → t.qHolds o.h = true →
    let ctr := ctrOf o.ctr
    let n := s.next
    let full := 16 ≤ (s.core t.core).eng.length ∨ t.ctrFull ctr = true
    let issues := fun (i : Instr) (ra rb sf mx : Bool) =>
      (full → exec i s = .next (s.hold t u))
      ∧ (¬ full → (ra = true → t.marks8 o.va.toNat = false) → (rb = true → t.marks8 o.vb.toNat = false) →
          (sf = true → t.marked (.s o.sF) 1 0 = false) →
        ∃ j : EngJob, j.id = n + 2 ∧ j.ins = n ∧ j.uid = t.uid ∧ j.team = t.team ∧ j.instr = i ∧ j.sF = t.sget o.sF.toNat ∧ j.share = none
          ∧ (ra = true → ∀ k l, k < 8 → l < 32 → (32 * k + l, t.vget (o.va.toNat + k) l) ∈ j.ra)
          ∧ (rb = true → ∀ k l, k < 8 → l < 32 → (32 * k + l, t.vget (o.vb.toNat + k) l) ∈ j.rb)
          ∧ (let s1 := s.modCore t.core (fun c => { c with eng := c.eng ++ [j] })
             if mx then ∃ e, exec i s = .next (placed s1 t u [e] ctr 1 3) ∧ e.op = .engine (n + 2) ∧ e.paths = [.mx] ∧ e.lanes = []
             else exec i s = .next (placed s1 t u [] ctr 1 3)))
    issues (.mmaF8 o) true true true true ∧ issues (.mmaBf o) true true false false ∧ issues (.mmaI8 o) true true false false
    ∧ issues (.azero o) false false false false ∧ issues (.ard o) false false false false ∧ issues (.awr o) true false false false
    ∧ issues (.fin o) false false true true ∧ issues (.fpl o) false false true true

/-- FABRIC INSTRUCTIONS AS THEY ISSUE (R296, R298 to R300, R302): a transfer is one entry on xf with its operands as they stand; a put or get of
no bytes completes at once; xfen places a release on every path and parks the slat. -/
def Obligations.FabricEntries : Prop :=
  ∀ (s : State) (t : Slat) (u : Issue) (o : XOp), s.frag = some (t, u) → t.qHolds o.h = true →
    let len := t.sget o.sN.toNat
    (exec (.xfen o) s = .next
      ((placed s t u [markerEnt (s.next + 1) allPaths { relMark false with fst := true }] none 0 2).parked t.uid .xfen
        (BitVec.ofNat 64 (s.next + 1))))
    ∧ (t.ctrFull (ctrOf o.ctr) = false → (∀ r, r ∈ [o.sD, o.sS, o.sN, o.sE] → (t.srcS (.s r)).2 = false) →
        let places := fun (i : Instr) (op : Nat) =>
          ∃ e, exec i s = .next (placed s t u [e] (ctrOf o.ctr) 1 2) ∧ e.seq = s.next + 1 ∧ e.paths = [.xf] ∧ e.lanes = []
            ∧ e.op = .xfer ⟨op, t.sget o.sD.toNat, t.sget o.sS.toNat, len, t.sget o.sE.toNat, o.c16.toNat⟩
        (len ≠ 0 → places (.xput o) 0 ∧ places (.xget o) 2) ∧ places (.xred o) 1
        ∧ (len = 0 → exec (.xput o) s = .next (s.advance t u) ∧ exec (.xget o) s = .next (s.advance t u)))

/-- SYSTEM INSTRUCTIONS THAT GO ON AS JOBS (R96, R331 to R334, R336, R347): enq, lnch, ctxs and ctxl place a device-scope release and leave a job
of the hub that carries their operands; tlbi, with the translations it names, of one context or of all of the function, gone from the L1 TLBs of
the cores and from the TLBs of the dies, a job that waits for the entries formed through them; each holds its counter.
Where the manual leaves it open this is the model's choice, log 42 and 45. -/
def Obligations.SystemJobs : Prop :=
  ∀ (s : State) (t : Slat) (u : Issue) (o : YOp), s.frag = some (t, u) → t.qHolds o.h = true → t.ctrFull (ctrOf o.ctr) = false →
    let a := t.sget o.sA.toNat
    let b := t.sget o.sB.toNat
    let n := s.next
    let clean := fun (rs : List Nat) => ∀ r, r ∈ rs → (t.srcS (.s (BitVec.ofNat 6 r))).2 = false
    let opens := fun (i : Instr) (kind : JobKind) =>
      ∃ j : Job, j.id = n + 2 ∧ j.uid = t.uid ∧ j.ins = n ∧ j.after = n + 1 ∧ j.at_ = s.now ∧ j.kind = kind
        ∧ exec i s = .next
            ({ placed s t u [markerEnt (n + 1) [.ls, .ac, .cp] (relMark true)] (ctrOf o.ctr) 1 3 with
                hub := { s.hub with jobs := s.hub.jobs ++ [j] } })
    (clean [o.sA.toNat] → t.level = 1 → opens (.ctxl o) (.load a o.sD.toNat))
    ∧ (clean [o.sA.toNat, o.sB.toNat] → t.level = 1 → opens (.ctxs o) (.save a b (o.imm.toNat % 2) o.sD.toNat []))
    ∧ (clean [o.sA.toNat] → t.idx = 0 → (t.ent u.ent).mask.getLsbD 0 = true → (s.grid? t.grid).elim 0 Grid.depth < 10 →
        opens (.lnch o) (.lnch a o.sD.toNat))
    ∧ (clean (o.sA.toNat :: (List.range 8).map (fun k => o.sB.toNat + k)) → a.toNat < 1024 →
        (s.queue a.toNat).ctx = t.ctx → (s.queue a.toNat).kind = 1 → (s.queue a.toNat).dev = true →
        opens (.enq o) (.enq a.toNat ((List.range 8).map (fun k => t.sget (o.sB.toNat + k))) o.sD.toNat))
    ∧ (clean [o.sA.toNat, o.sB.toNat] → t.level = 1 →
        let all := o.imm.getLsbD 16
        let ctx := o.imm.toNat % 65536
        all = true ∨ s.context? ctx = none ∨ (∃ c, s.context? ctx = some c ∧ c.fn = t.fn) →
        let ctxs := s.ctxsNamed t.fn all ctx
        let s1 := s.shoot t.part ctxs a.toNat b.toNat
        (∀ k, k ∈ ctxs ↔ (all = true ∨ k = ctx) ∧ ((∃ c, c ∈ s.hub.contexts ∧ c.ctx = k ∧ c.fn = t.fn) ∨ (k, t.fn) ∈ s.hub.ended))
        ∧ ∃ t1, s1.slat? t.uid = some t1 ∧ t1.s = t.s
          ∧ (∀ c e, e ∈ (s1.core c).tlb → e.hit t.part ctxs a.toNat b.toNat = false)
          ∧ (∀ d es e, (d, es) ∈ s1.dieTlb → e ∈ es → e.hit t.part ctxs a.toNat b.toNat = false)
          ∧ exec (.tlbi o) s = .next (s1.openJob t1 u (ctrOf o.ctr) false (.tlbi (s.formed t.part ctxs a.toNat b.toNat))))

/-- QUEUE ITEMS AND CHILD GRIDS AWAITED (R331 to R333, R334): deq of its own queue, of kind 1, or of kind 2 at supervisor level, with an item there
and no waiter completes: eight registers take the item, the read pointer moves on by one, and the slat goes on behind a device-scope acquire
on every path. With nothing there, or the queue not Running, it parks behind the waiters, and under upset protection with an item there too,
since the hub acts 256 cycles later only; the first of the waiters then takes it in the same way. Of a queue that is not its context's, or of
another kind, it raises BOUNDS, sub-reason 0x12, and of one of kind 2 at user level PRIV. cwait completes, with such an acquire, where no
child it names is live; it parks while one is, and refuses a number that was never a child, sub-reason 0x13.
Where the manual leaves it open this is the model's choice, log 28, 42 and 56. -/
def Obligations.SystemWaits : Prop :=
  ∀ (s : State) (t : Slat) (u : Issue) (o : YOp), s.frag = some (t, u) → t.qHolds o.h = true → (t.srcS (.s o.sA)).2 = false →
    let a := (t.sget o.sA.toNat).toNat
    let refused := fun (i : Instr) (sub : Nat) => exec i s = .next (s.advance (t.raise (boundsF u.cid u.ent sub)) u)
    let mine := a < 1024 ∧ (s.queue a).ctx = t.ctx
    let takes := (s.queue a).kind = 1 ∨ ((s.queue a).kind = 2 ∧ t.level ≠ 0)
    let given := fun (x y : Slat) (d : Nat) (bs : List Byte) => y.park = .none ∧ y.parkAt = 0 ∧ y.v = x.v
      ∧ (∀ k, y.sget k = if d ≤ k ∧ k < d + 8 then dword bs (k - d) else x.sget k)
    let live := ∃ g, g ∈ s.hub.grids ∧ g.parent.map Prod.snd = some t.team ∧ (a = 0 ∨ g.id = a)
    (∀ bs, mine → takes → (s.queue a).st = 1 → (s.queue a).rp ≠ (s.queue a).wp → (s.queue a).waiters = [] → s.upsOn t.core = false →
        let place := s.slotAt (s.queue a) (s.queue a).rp false
        s.hubReady [place] = true → s.readSlot (s.queue a) (s.queue a).rp = .ok bs →
        ∃ s' t', exec (.deq o) s = .next s' ∧ s'.slat? t.uid = some t' ∧ given t t' o.sD.toNat bs ∧ s'.focus = some t.uid
          ∧ t'.queue = t.queue ++ [markerEnt s.next allPaths (acqMark true)]
          ∧ s'.queue a = { s.queue a with rp := ((s.queue a).rp + 1) % 2 ^ 32 } ∧ (∀ q, q ≠ a → s'.queue q = s.queue q)
          ∧ (∀ x, x ≠ t.uid → s'.slat? x = s.slat? x) ∧ s'.mem = s.mem ∧ s'.home = (s.hubOver s [place]).home ∧ s'.cores = s.cores)
    ∧ (mine → takes → (s.queue a).st ≠ 1 ∨ (s.queue a).rp = (s.queue a).wp ∨ ((s.queue a).waiters = [] ∧ s.upsOn t.core = true) →
        ∃ s' t', exec (.deq o) s = .next s' ∧ s'.slat? t.uid = some t' ∧ t'.park = .deq ∧ t'.parkArg.toNat = a
          ∧ t'.parkDst = o.sD.toNat ∧ t'.parkAt = s.now + 1 ∧ t'.s = t.s ∧ s'.focus = none
          ∧ s'.queue a = { s.queue a with waiters := (s.queue a).waiters ++ [t.uid] } ∧ s'.mem = s.mem ∧ s'.home = s.home)
    ∧ (∀ q x rest w bs, s.queue q = { s.queue q with st := 1, waiters := x :: rest } → (s.queue q).rp ≠ (s.queue q).wp →
        s.slat? x = some w → (w.parkAt ≠ 0 → s.beyond w.core (w.parkAt - 1) = true) → s.hubReady [s.slotAt (s.queue q) (s.queue q).rp false] = true →
        s.readSlot (s.queue q) (s.queue q).rp = .ok bs →
        ∃ w', (s.serveDeq q 1).slat? x = some w' ∧ given w w' w.parkDst bs ∧ w'.queue = w.queue ++ [markerEnt s.next allPaths (acqMark true)]
          ∧ (s.serveDeq q 1).queue q = { s.queue q with rp := ((s.queue q).rp + 1) % 2 ^ 32, waiters := rest }
          ∧ (∀ y, y ≠ x → (s.serveDeq q 1).slat? y = s.slat? y) ∧ (s.serveDeq q 1).mem = s.mem)
    ∧ (¬ mine ∨ ((s.queue a).kind ≠ 1 ∧ (s.queue a).kind ≠ 2) → ¬ (a < 1024 ∧ (s.queue a).kind = 2 ∧ t.level = 0) → refused (.deq o) 0x12)
    ∧ (a < 1024 → (s.queue a).kind = 2 → t.level = 0 → exec (.deq o) s = .next (s.advance (t.raise (u.cause 3 2 0)) u))
    ∧ (live → ∃ s' t', exec (.cwait o) s = .next s' ∧ s'.slat? t.uid = some t' ∧ t'.park = .cwait ∧ t'.parkArg.toNat = a
          ∧ t'.s = t.s ∧ s'.focus = none ∧ s'.mem = s.mem)
    ∧ (¬ live → a = 0 ∨ (a, t.team) ∈ s.hub.retired →
        exec (.cwait o) s = .next ((s.advance t u).mark t.uid allPaths (acqMark true)))
    ∧ (¬ live → a ≠ 0 → (a, t.team) ∉ s.hub.retired → refused (.cwait o) 0x13)

/-- TRAPS, BREAKPOINTS AND RETURNS (R188, R325, R335): trap and brk raise their cause with the code of the instruction in %tinfo and nothing
else; rti in a handler clears inh, releases the held fragments and continues at %tepc; outside one it raises BOUNDS, sub-reason 0x14.
Where the manual leaves it open this is the model's choice, log 16. -/
def Obligations.TrapsReturns : Prop :=
  ∀ (s : State) (t : Slat) (u : Issue) (o : YOp), s.frag = some (t, u) → t.qHolds o.h = true →
    let raises := fun (i : Instr) (code : Nat) =>
      (t.pend = [] → ∃ c, Completes i s { t with pend := [c] } u ∧ c.code = code ∧ c.tinfo = o.imm.setWidth 64 ∧ c.nested = t.inh ∧ c.ent = u.ent)
    raises (.trap o) 0xE ∧ raises (.brk o) 0xD
    ∧ (t.inh = true → ∃ t', Completes (.rti o) s t' u ∧ t'.inh = false ∧ t'.hand = none ∧ (t'.ent u.ent) = { t.ent u.ent with pc := t.tepc }
        ∧ (∀ k, k ≠ u.ent → t'.ent k = t.ent k) ∧ t' = { t with split := t'.split, inh := t'.inh, hand := t'.hand, log := t'.log }
        ∧ t'.log.map LogEntry.seq = t.log.map LogEntry.seq)
    ∧ (t.inh = false → exec (.rti o) s = .next (s.advance (t.raise (boundsF u.cid u.ent 0x14)) u))

/-- TAKING AN EXCEPTION (R324, R325, R327): a fragment that takes a cause with a handler set continues at %tvec with %tcause, %tepc, %tinfo and
inh written, the other fragments held, and nothing else of the machine changed but that the misaligned lanes of its clause, which have kept
their place, are given up; without a handler, for a cause that arose in a handler, and for POISON, the slat ends: no lane, entry, count or
cause is left of it, memory is as it was before its record, and its team is abandoned with the code, unless it had been before.
Where the manual leaves it open this is the model's choice, log 16 and 17. -/
def Obligations.TakingATrap : Prop :=
  ∀ (s : State) (t : Slat) (e : Nat) (c : Cause), s.slat? t.uid = some t →
    let h := c.at_.getD (t.ent e).pc
    (t.tvec ≠ 0 → c.nested = false → c.code ≠ 0xA →
      let t0 := t.giveUpFaulted c.cid false
      ((∀ q x, q ∈ t.queue → x ∈ q.lanes → x.st ≠ .faulted) → t0 = t)
      ∧ t0 = { t with queue := t0.queue, insts := t0.insts, d := t0.d, split := t0.split, park := t0.park, watch := t0.watch }
      ∧ ∃ t', s.takeTrap t e c = s.setSlat t'
        ∧ t' = { t0 with tcause := c.code, inh := true, tepc := h, tinfo := c.tinfo, hand := some e, split := t'.split }
        ∧ t'.ent e = { t0.ent e with pc := t.tvec } ∧ (∀ k, k ≠ e → t'.ent k = t0.ent k))
    ∧ (t.tvec = 0 ∨ c.nested = true ∨ c.code = 0xA → s.takeTrap t e c = s.kill t.uid c.code h c.tinfo true)
    ∧ (t.ended = false →
        let s' := s.kill t.uid c.code h c.tinfo false
        (∃ t', s'.slat? t.uid = some t' ∧ t'.ended = true ∧ t'.queue = [] ∧ t'.log = [] ∧ t'.insts = [] ∧ t'.d = [] ∧ t'.pend = [] ∧ t'.split = []
          ∧ t'.recs = [] ∧ t'.park = .none)
        ∧ (∀ m, s.team? t.team = some m → ∃ m', s'.team? t.team = some m' ∧ m'.aband = true
            ∧ (m.aband = false → m'.kslat = t.idx ∧ m'.kcause = c.code) ∧ (m.aband = true → m'.kslat = m.kslat ∧ m'.kcause = m.kcause))
        ∧ s'.mem = s.mem)

/-- LAUNCHER AND ISSUE (R53, R309, R315 to R319, R321 to R323): CLAUSE_ISSUE begins the clause of the fragment the quadrant chooses, of all
it may choose the one that has waited longest, unless that stands at its reconvergence address, where it arrives; CORE_START lets a placed core
issue; LAUNCH_RECORD_TAKE, with every head at hand, enters the head record that is first in priority and rotation, or stops its queue;
TEAM_PLACEMENT places a step's teams whole, each on its run of cores, with fresh slats; GRID_RETIRE does the done arrival, where the clamp can
still be reached, and the vector, and frees the grid's entry, teams and slats, or gives up a grid whose dependence failed. That a grid's number is
the next unused one is the model's choice, log 6.
Where the manual leaves it open this is the model's choice, log 6, 14, 15, 28, 41, 43, 80, 82 and 83. -/
def Obligations.LauncherEvents : Prop :=
  ∀ (s : State),
    (∀ (core quad : Nat) (c : Cand), s.focus = none →
      let s1 := ((s.mapSlats (fun t => if t.core == core && quadOf t.slot == quad && s.boundary t then t.arriveAll else t)).fetchAll core quad).restamp
      let cs := s1.candidates core quad
      let s2 := s1.counted cs c
      (∀ x, x ∈ s1.quadSlats core quad → x.issue = none ∧ x.pend.filter x.mayTake = []) → s1.choose cs = some c →
      (c ∈ cs ∧ (∀ d, d ∈ cs → (s1.candEnt d).passed = false → (s1.candEnt c).passed = false
          ∧ (64 ≤ (s1.candEnt d).skip → 64 ≤ (s1.candEnt c).skip)
          ∧ ((s1.candEnt c).skip < 64 ∨ 64 ≤ (s1.candEnt d).skip →
              (s1.candEnt c).stamp.getD s1.now ≤ (s1.candEnt d).stamp.getD s1.now)))
      ∧ (∀ t, s2.slat? c.uid = some t → (t.ent c.e).rcv = some (t.ent c.e).pc →
          exec (.clauseIssue core quad) s = .next (s2.setSlat (t.arrive c.e 64)))
      ∧ (∀ t h w ws is k s3 s4, s2.slat? c.uid = some t → (t.ent c.e).rcv ≠ some (t.ent c.e).pc → s2.fetch t c.e 0 (t.ent c.e).pc = .ok (w, s3) → decodeHeader w = .ok h →
          s3.fetchWords t c.e (t.ent c.e).pc h.words 1 = .ok (ws, s4) → decodeClause h ws = .ok is → clsOf h.cls = some k →
          Yields (.clauseIssue core quad) s (fun s' => ∃ t' u, s'.frag = some (t', u) ∧ ws.length = h.words
            ∧ t' = { t.setEnt c.e { t.ent c.e with pc := (t.ent c.e).pc + BitVec.ofNat 64 (ws.length + 1), regen := false } with
                issue := some u, begun := t.begun + 1 }
            ∧ u.ent = c.e ∧ u.h = (t.ent c.e).pc ∧ u.cls = k ∧ u.words = ws ∧ u.pos = 0 ∧ u.yld = h.yld ∧ u.lat = [] ∧ u.outs = []
            ∧ s'.snap = (if k = .alu then some t else none)
            ∧ (∀ x y, x ≠ t.uid → s'.slat? x = some y →
                ∃ z, s.slat? x = some z ∧ y.v = z.v ∧ y.s = z.s ∧ y.p = z.p ∧ y.q = z.q ∧ y.d = z.d ∧ y.queue = z.queue ∧ y.log = z.log)
            ∧ s' = { s with focus := s'.focus, snap := s'.snap, next := s'.next, slats := s'.slats, cores := s'.cores, dieTlb := s'.dieTlb, home := s'.home })))
    ∧ (∀ core, (s.core core).started = false → (s.core core).startAt ≤ s.now →
        Yields (.coreStart core) s (fun s' => s'.core core = { s.core core with started := true }
          ∧ (∀ k, k ≠ core → s'.core k = s.core k) ∧ s' = { s with cores := s'.cores }))
    ∧ (∀ n q, (∀ x, x ∈ s.hub.queues → s.headReady x.2 = true) → (n, q) ∈ s.hub.queues → s.queue n = q → s.headOf q ≠ .wait →
        (∀ x, x ∈ s.hub.queues → x ≠ (n, q) → s.headOf x.2 ≠ .wait →
          x.2.eff < q.eff ∨ (x.2.eff = q.eff ∧ s.turnOf n q.eff < s.turnOf x.1 q.eff)) →
        (∀ r k, s.headOf q = .ready r k → Yields .launchRecordTake s (fun s' =>
          (∃ g, s'.hub.grids = s.hub.grids ++ [g] ∧ g.id = s.next ∧ g.launch = r ∧ g.queue = some n ∧ g.ctx = q.ctx ∧ g.fn = q.fn
            ∧ g.part = s.ctxPart q.ctx ∧ g.prio = q.eff ∧ g.level = (if r.sup then 1 else 0) ∧ g.depth = 0 ∧ g.parent = none
            ∧ g.nextTeam = 0 ∧ g.since = s.now ∧ g.token = none ∧ g.dead = false)
          ∧ s'.queue n = { q with rp := (q.rp + k) % 2 ^ 32, met := [] } ∧ (∀ m, m ≠ n → s'.queue m = s.queue m)
          ∧ s' = { s with next := s.next + 1
                          home := s'.home
                          hub := { s.hub with queues := s'.hub.queues, grids := s'.hub.grids, served := s'.hub.served } }))
        ∧ (∀ k, s.headOf q = .bad k → Yields .launchRecordTake s (fun s' =>
          s'.queue n = { q with st := 4, err := k } ∧ (∀ m, m ≠ n → s'.queue m = s.queue m)
          ∧ s' = { s with hub := { s.hub with queues := s'.hub.queues }, host := s'.host, home := s'.home }
          ∧ ((s.fn q.fn).busy = false → (s.fn q.fn).masked.contains q.vec = false →
              s'.host = { s.host with irqs := s.host.irqs ++ [(q.fn, q.vec)] }))))
    ∧ (∀ g, (∀ c, s.coresFor g = some c → c ∈ g.launch.counts
          ∧ (∃ f, f < 640 ∧ (s.seats g.part f c g.launch.slats g.launch.spad g.launch.tiles).isSome = true)
          ∧ ∀ d f, d ∈ g.launch.counts → d < c → f < 640 → s.seats g.part f d g.launch.slats g.launch.spad g.launch.tiles = none))
    ∧ (∀ g firsts s1 ws, s.grid? g.id = some g → s.placeable g = true → s.mayPlace g = true → firsts.length = g.unit.length →
        s.placeAll g (g.unit.zip firsts) = some (s1, ws) → gangOk g.launch.gang ws = true →
        (g.queue ≠ none ∨ g.nextTeam ≠ 0 ∨ g.launch.deps = [] ∨ s.recReady g.ctx g.part g.level g.launch = true) →
        ws.map TeamSeat.idx = g.unit ∧ ws.map TeamSeat.first = firsts ∧ (∀ w, ws.head? = some w → s.coresFor g = some w.c)
        ∧ Yields (.teamPlacement g.id firsts) s (fun s' =>
          (∃ (ms : List Team) (ts : List Slat), s'.teams = s.teams ++ ms ∧ s'.slats = s.slats ++ ts ∧ ms.length = ws.length ∧ ts.length = ws.length * g.launch.slats
            ∧ (∀ (k : Nat) (m : Team) (w : TeamSeat), ms[k]? = some m → ws[k]? = some w → m.idx = w.idx ∧ m.grid = g.id ∧ m.fn = g.fn ∧ m.ctx = g.ctx ∧ m.part = g.part
                ∧ m.level = g.level ∧ m.slats = g.launch.slats ∧ m.arrived = [] ∧ m.bars = 0 ∧ m.aband = false ∧ m.saved = false
                ∧ m.cores.map Prod.fst = (List.range w.c).map (fun i => w.first + i))
            ∧ (∀ t, t ∈ ts → ∃ m, m ∈ ms ∧ t.team = m.uid ∧ t.core ∈ m.cores.map Prod.fst ∧ t.idx < g.launch.slats
                ∧ ∃ w, let x := s.textOf g.ctx g.launch.entry
                  t = Slat.start w g x.1 x.2.1 x.2.2))
          ∧ s'.grid? g.id = some { g with nextTeam := g.nextTeam + ws.length } ∧ (∀ k, k ≠ g.id → s'.grid? k = s.grid? k)
          ∧ (∀ k, (∀ w, w ∈ ws → k < w.first ∨ w.first + w.c ≤ k) → s'.core k = s.core k)
          ∧ s' = { s with next := s'.next, slats := s'.slats, teams := s'.teams, cores := s'.cores, hub := s'.hub, home := s'.home }))
    ∧ (∀ g, s.grid? g.id = some g →
        let look := fun (x : State) => if g.queue ≠ none ∨ g.nextTeam ≠ 0 ∨ g.launch.deps = [] then x else State.recOver s x g.ctx g.part g.level g.launch
        let walks := s.hubWalks g.ctx g.part g.launch.done 16
        let check := s.hubCheck g.ctx g.part g.level ⟨false, true, false, some 8⟩ g.launch.done
        let retires := fun (x : State) => exec (.gridRetire g.id) s = .next (look x)
        (g.queue ≠ none ∨ g.nextTeam ≠ 0 ∨ g.launch.deps = [] ∨ s.recReady g.ctx g.part g.level g.launch = true) →
        (g.queue = none → g.nextTeam = 0 → s.depErr g.ctx g.part g.level g.launch = true → retires (s.gridRefused g))
        ∧ (g.queue ≠ none ∨ g.nextTeam ≠ 0 ∨ s.depErr g.ctx g.part g.level g.launch = false → s.gridOver g = true → s.gridRecs g.id = [] →
            (g.launch.done = 0 ∨ g.dead = true → retires (s.gridFree g))
            ∧ (g.launch.done ≠ 0 → g.dead = false → s.hubOk true walks = true →
                (∀ pa p, check = .ok pa p → s.hubOk false [lineOf pa] = true →
                  retires ((((s.clampDo (.mem pa) .arrive g.fn 0 0).gridFree g).hubFree false [lineOf pa]).hubFree true walks))
                ∧ ((∀ pa p, check ≠ .ok pa p) → retires ((s.gridFree g).hubFree true walks)))))
    ∧ (∀ g : Grid,
        let s2 := match g.queue with
          | some q => if g.launch.irq then s.queueIrq q else s
          | none => s
        let s3 := s2.freeGrid g
        (g.token = none → s.gridFree g = s3.regenWaiting) ∧ (∀ k, g.token = some k → s.gridFree g = (s3.resolve k).regenWaiting)
        ∧ (g.token = none → s.gridRefused g = (s.freeGrid g).regenWaiting) ∧ (∀ k, g.token = some k → s.gridRefused g = ((s.freeGrid g).referBack k).regenWaiting)
        ∧ (∀ h, h ∈ s3.hub.grids ↔ h ∈ s2.hub.grids ∧ h.id ≠ g.id)
        ∧ (∀ m, m ∈ s3.teams ↔ m ∈ s2.teams ∧ m.grid ≠ g.id)
        ∧ (∀ t, t ∈ s3.slats → t.grid ≠ g.id)
        ∧ s3.hub.retired = s2.hub.retired ++ (g.parent.map (fun x => (g.id, x.2))).toList
        ∧ s3.mem = s2.mem)

/-- QUEUE REGISTERS (R308 to R310): QCTL written with each command moves the queue as R309 says, after its writable fields, of which an
ordinary function reaches only its own; QWP published, or the queue falls into Overrun with its vector raised.
Where the manual leaves it open this is the model's choice, log 8 and 89. -/
def Obligations.QueueRegisters : Prop :=
  ∀ (s : State) (fn q : Nat) (v : W64), s.boot.ready = true → (s.fn fn).busy = false → q < 1024 → fn = 0 ∨ (s.queue q).fn = fn →
    let x := (s.queue q).setCtl (fn == 0) v
    let now := fun (i : Instr) (y : Queue) (served told : Bool) => Yields i s (fun s' => ∃ s1,
      s1.queue q = y ∧ (∀ k, k ≠ q → s1.queue k = s.queue k)
      ∧ s1 = { s with hub := { s.hub with queues := s1.hub.queues }, host := s1.host }
      ∧ s1.host.irqs = s.host.irqs ++ (if told && !(s.fn y.fn).busy && !(s.fn y.fn).masked.contains y.vec then [(y.fn, y.vec)] else [])
      ∧ s1.host = { s.host with irqs := s1.host.irqs }
      ∧ s' = (if served then s1.serveAll q else s1) ∧ ((s.queue q).waiters = [] → s' = s1))
    (x.prio = natField v.toNat 39 37 ∧ x.vec = natField v.toNat 27 18 ∧ x.base = (s.queue q).base ∧ x.st = (s.queue q).st
      ∧ x.rp = (s.queue q).rp ∧ x.wp = (s.queue q).wp ∧ x.waiters = (s.queue q).waiters
      ∧ (fn ≠ 0 → x.ctx = (s.queue q).ctx ∧ x.fn = (s.queue q).fn ∧ x.cap = (s.queue q).cap ∧ x.sup = (s.queue q).sup)
      ∧ (fn = 0 → x.ctx = natField v.toNat 63 48 ∧ x.fn = natField v.toNat 47 43 ∧ x.cap = natField v.toNat 42 40 ∧ x.sup = v.getLsbD 28)
      ∧ (x.st ≠ 0 → x.lsize = (s.queue q).lsize ∧ x.kind = (s.queue q).kind ∧ x.dev = (s.queue q).dev)
      ∧ (x.st = 0 → x.lsize = natField v.toNat 36 32 ∧ x.kind = natField v.toNat 31 30 ∧ x.dev = v.getLsbD 29))
    ∧ (x.st = 0 → (s.fn x.fn).en = true → x.valid = true → now (.queueEnable fn q v) { x with st := 1, err := 0 } true false)
    ∧ (x.st = 0 → (s.fn x.fn).en = true → x.valid = false → now (.queueEnable fn q v) { x with err := 0xF } false true)
    ∧ (x.st = 0 → (s.fn x.fn).en = false → now (.queueEnable fn q v) { x with err := 0xF } false false)
    ∧ (x.st = 2 ∨ x.st = 4 → (s.fn x.fn).en = true → now (.queueEnable fn q v) { x with st := 1, err := 0, met := [] } true false)
    ∧ (x.st = 2 ∨ x.st = 4 → (s.fn x.fn).en = false → now (.queueEnable fn q v) x false false)
    ∧ (x.st = 1 ∨ x.st = 3 → now (.queueEnable fn q v) x false false)
    ∧ (now (.queuePause fn q v) (if x.st = 1 then { x with st := 2 } else x) false false)
    ∧ (now (.queueReset fn q v) { x with st := 0, rp := 0, wp := 0, err := 0, met := [] } false false)
    ∧ (let y := s.queue q
       let wp := natField v.toNat 31 0
       let lap := 2 ^ y.lsize < (wp + 2 ^ 32 - y.rp) % 2 ^ 32
       ¬ (y.dev = true ∧ y.kind = 1) →
         (lap → y.st = 1 ∨ y.st = 2 ∨ y.st = 4 → now (.qwpWrite fn q v) { y with wp := wp, st := 3, err := 0 } false true)
         ∧ (¬ lap ∨ y.st = 0 ∨ y.st = 3 → now (.qwpWrite fn q v) { y with wp := wp } true false))

/-- THE FAULT SERVICE (R166, R328, R329): a held record is written to the function's queue as soon as one can take it, a fault's before a
kill's; a settle write finds only its own function's token, of kind 0 or 1: resolved, everything that waited on it is ready again at its
place; referred back, each slat that waited on it has PAGE pending. Nothing waits on it any more, the fault is outstanding no more, and
no byte of memory is other than before.
Where the manual leaves it open this is the model's choice, log 33. -/
def Obligations.FaultService : Prop :=
  ∀ (s : State) (fn token : Nat),
    (∀ f ds s1, s.hub.faults.find? (fun f => f.fn == fn && f.held.isSome) = some f → f.held = some ds → s.tryPost fn ds = some s1 →
      Yields (.faultRecordWrite fn) s (fun s' =>
        (∃ q, (s.faultQueue fn).2 = some q ∧ (s'.queue q).wp = ((s.queue q).wp + 1) % 2 ^ 32)
        ∧ s' = { s1 with hub := { s1.hub with faults := s1.hub.faults.map (fun x => if x.token = f.token then { x with held := none } else x) } }))
    ∧ (∀ ds s1, s.hub.faults.find? (fun f => f.fn == fn && f.held.isSome) = none → s.hub.kills.find? (fun k => k.1 == fn) = some (fn, ds) →
        s.tryPost fn ds = some s1 →
        Yields (.faultRecordWrite fn) s (fun s' =>
          (∃ q, (s.faultQueue fn).2 = some q ∧ (s'.queue q).wp = ((s.queue q).wp + 1) % 2 ^ 32)
          ∧ s' = { s1 with hub := { s1.hub with kills := s1.hub.kills.erase (fn, ds) } }))
    ∧ (∀ f, s.boot.ready = true → (s.fn fn).busy = false →
        s.hub.faults.find? (fun f => f.token % 2 ^ 32 == token % 2 ^ 32 && f.fn == fn && decide (f.kind < 2)) = some f →
        let settled := fun (s1 : State) => (∀ x, x ∈ s1.hub.faults ↔ x ∈ s.hub.faults ∧ x.token ≠ f.token)
          ∧ (∀ t, t ∈ s1.slats → t.awaits f.token = false) ∧ s1.mem = s.mem ∧ s1.home = s.home
        Yields (.faultReferBack fn token) s (fun s' => settled s'
          ∧ (∀ t, s.slat? t.uid = some t → t.ended = false →
              (∃ l, l ∈ t.log ∧ l.token = f.token ∧ (t.qent? l.seq).isSome) ∨ (∃ e, e ∈ t.queue ∧ e.tok.map Prod.fst = some f.token)
                ∨ (∃ x, x ∈ t.split ∧ x.2.fetch.map Prod.fst = some f.token) →
              ∃ t', s'.slat? t.uid = some t' ∧ ∃ c, c ∈ t'.pend ∧ c.code = 5)
          ∧ (∀ t, t ∈ s.slats → t.awaits f.token = false → (∀ j, j ∈ s.hub.jobs → j.tok.map Prod.fst = some f.token → j.uid ≠ t.uid) →
              t ∈ s'.slats))
        ∧ (Yields (.faultResolve fn token) s (fun s' => ∃ s1, settled s1 ∧ s' = s1.serveQueues
            ∧ (∀ t, t ∈ s.slats → (∀ y, y ∈ s.slats → y.uid = t.uid → y = t) →
                let g := (s.hub.faults.find? (fun x => x.token == f.token)).getD f
                (t.awaits f.token = false → t ∈ s1.slats)
                ∧ ∃ n t', t' ∈ s1.slats
                  ∧ t' = (if g.kind = 1 ∧ t.awaits f.token = true then t.acquireFirst f.token n else t).replay f.token (if g.kind = 2 then some g.page else none)
                  ∧ (∀ e, e ∈ t.queue → ∃ e', e' ∈ t'.queue ∧ e'.seq = e.seq ∧ e'.lanes.map Lane.l = e.lanes.map Lane.l)
                  ∧ (∀ l, l ∈ t'.log ↔ l ∈ t.log ∧ l.token ≠ f.token)))))

/-- COMMANDS OF THE FUNCTIONS (R171, R345, R361, R362, R366, R371, R374, R380, R381): a context created with its root, partition and keys, given
another root, ended with all that is its own; the three MM commands; a function-level reset begun; a tensor declared under the
partition's next version, retired; a JX image loaded once every check has passed. Each, where it is taken, begins or does what it is for and
leaves err as it was; a context command that is refused, and a load that would extend slot 0 or 1, sets it. A flush and a tensor command go on as
jobs, a line at a time in its home's turn.
Where the manual leaves it open this is the model's choice, log 28, 44, 45, 49, 52, 53 and 88. -/
def Obligations.FunctionCommands : Prop :=
  ∀ (s : State) (fn : Nat) (v : W64), s.boot.ready = true → (s.fn fn).busy = false →
    let n := v.toNat
    let ctx := natField n 15 0
    let f := spaceFn fn (natField n 60 56)
    let root := natField n 51 16 * 65536
    let mine := fun (g : Nat) => ∃ c, s.context? ctx = some c ∧ c.fn = g
    (natField n 63 62 = 1 → s.context? ctx = none → paRegion root ≠ .none → (s.fn f).en = true →
        s.partProt (s.fn f).part = v.getLsbD 61 → (v.getLsbD 61 = true → (s.partTrust (s.fn f).part).unlocked = false) →
        Yields (.contextCreate fn v) s (fun s' => ∃ c, s'.hub = { s.hub with contexts := s.hub.contexts ++ [c]
                                                                             ended := s.hub.ended.filter (fun e => e.1 != ctx) }
          ∧ c.ctx = ctx ∧ c.fn = f ∧ c.part = (s.fn f).part ∧ c.prot = v.getLsbD 61 ∧ c.root = root ∧ c.count = 0 ∧ c.out = false
          ∧ c.sealed = [] ∧ c.images = [] ∧ c.error = none
          ∧ (v.getLsbD 61 = true → c.imgKey = imageKey c.part (s.partTrust c.part).epoch ctx ((s.partTrust c.part).creations + 1)
              ∧ s'.partTrust c.part = { s.partTrust c.part with creations := (s.partTrust c.part).creations + 1 })
          ∧ (v.getLsbD 61 = false → s'.trust = s.trust)
          ∧ s' = { s.dropTlbs [ctx] with next := s'.next, hub := s'.hub, trust := s'.trust }))
    ∧ (natField n 63 62 = 1 → s.context? ctx ≠ none ∨ s.partProt (s.fn f).part ≠ v.getLsbD 61 ∨ (s.fn f).en = false →
        Yields (.contextCreate fn v) s (fun s' => s' = s.modFn fn (fun x => { x with ctxErr := true })))
    ∧ (natField n 63 62 = 3 → mine f → paRegion root ≠ .none → (s.fn f).en = true →
        Yields (.contextSetRoot fn v) s (fun s' => (∃ c, s.context? ctx = some c ∧ s'.context? ctx = some { c with root := root })
          ∧ (∀ k, k ≠ ctx → s'.context? k = s.context? k) ∧ s' = { s with hub := { s.hub with contexts := s'.hub.contexts } }))
    ∧ (natField n 63 62 = 2 → mine f → (s.fn f).en = true →
        Yields (.contextEnd fn v) s (fun s' => s'.context? ctx = none ∧ (ctx, f) ∈ s'.hub.ended ∧ (∀ k, k ≠ ctx → (s'.context? k).isSome = (s.context? k).isSome)
          ∧ (∀ uid t, s'.slat? uid = some t → t.ctx = ctx → t.ended = true)
          ∧ (∀ g, g ∈ s'.hub.grids → g.ctx = ctx → g.dead = true)
          ∧ (∀ q x, (q, x) ∈ s'.hub.queues → x.ctx = ctx → x.st = 3 ∨ (x.st = 4 ∧ x.err = 0xB))
          ∧ (∀ core r, r ∈ (s.core core).recs → r.ctx = ctx → ∃ h, h ∈ (s'.core core).hw ∧ h.req.msg = .giveUp r.bf r.carried ∧ h.req.line = r.line)
          ∧ (∀ core r, r ∈ (s'.core core).recs → r.ctx ≠ ctx)
          ∧ (∀ g, (s'.fn g).ctxErr = (s.fn g).ctxErr)
          ∧ (∀ r, r ∈ s'.home.regions ↔ r ∈ s.home.regions ∧ r.ctx ≠ ctx)
          ∧ (∀ core c k p, (core, c) ∈ s'.cores → (k, p) ∈ c.progs → p.ctx ≠ ctx)
          ∧ s'.mem = s.mem))
    ∧ (let g := spaceFn fn (natField n 28 24)
       let ctxs := s.ctxsNamed g (n.testBit 16) ctx
       let lo := (s.fn fn).mmBase.toNat
       let len := (s.fn fn).mmLen.toNat
       let waits := (allParts.map (fun p => s.formed p ctxs lo len)).flatten.eraseDups
       let begun := fun (s' : State) (op : Nat) (waits : List (Nat × Nat)) (stage : Nat) => ∃ j, (s'.fn fn).mmBusy = some j.id
         ∧ j.kind = .flush fn op lo len ctxs waits stage ∧ s'.hub.jobs = s.hub.jobs ++ [j] ∧ (s'.fn fn).mmErr = (s.fn fn).mmErr
         ∧ s'.host = s.host ∧ s'.mem = s.mem
         ∧ (stage ≠ 0 → s'.home = s.home) ∧ (stage = 0 → ∃ rs, s'.home = { s.home with reqs := s.home.reqs ++ rs }
             ∧ rs.map Req.line = s.flushLines ctxs lo len ∧ ∀ r, r ∈ rs → r.msg = .clear true ∧ r.seq = j.id ∧ r.st = .fresh)
       let unmapped := fun (s' : State) => (∀ p c e, p < 4 → e ∈ (s'.core c).tlb → e.hit p ctxs lo len = false)
         ∧ ∀ p d es e, p < 4 → (d, es) ∈ s'.dieTlb → e ∈ es → e.hit p ctxs lo len = false
       n.testBit 31 = true → (s.fn fn).mmBusy = none → natField n 63 32 = 0 → natField n 23 17 = 0 →
         n.testBit 16 = true ∨ s.context? ctx = none ∨ mine g →
         (natField n 30 29 = 0 → Yields (.mmInvalidate fn v) s (fun s' => begun s' 0 waits 1 ∧ unmapped s'))
         ∧ (natField n 30 29 = 1 → Yields (.mmFlush fn v) s (fun s' => begun s' 1 [] 1))
         ∧ (natField n 30 29 = 2 → Yields (.mmFlushInvalidate fn v) s (fun s' => begun s' 2 [] 0))
         ∧ (∀ (j : Job) op ws, (s.stillQueued ws = [] → op = 0 → ((s.jobFlush j fn op lo len ctxs ws 1).fn fn).mmBusy = none)
              ∧ (s.clearing j.id = false → unmapped (s.jobFlush j fn op lo len ctxs ws 0))
              ∧ ((∀ q, q ∈ s.host.queue → q.1 = 0 → q.2.1 ≠ j.id) → ((s.jobFlush j fn op lo len ctxs ws 3).fn fn).mmBusy = none)))
    ∧ (∀ g, g < 32 → (s.fn g).busy = false →
        let resets := fun (s0 s' : State) => ∃ j fns, j.kind = .flr fns 0 ∧ fns.getLast? = some g ∧ (g ≠ 0 → fns = [g])
          ∧ (g = 0 → ∀ k, k < 32 → k ∈ fns)
          ∧ let s1 := s0.modFn g (fun x => { x with busy := true })
            s' = { s1 with next := s1.next + 1, hub := { s1.hub with jobs := s1.hub.jobs ++ [j] } }
        (Yields (.initiateFlr g) s (fun s' => resets s s'))
        ∧ (fn = 0 → v.getLsbD 31 = true → Yields (.fnCtlRst g v) s (fun s' => resets
            (s.modFn g (fun x => { x with en := v.getLsbD 30, part := natField n 17 16, ways := natField n 15 0 })) s')))
    ∧ (let x := s.fn fn
       let slot := natField n 55 48
       let gone := fun (s' : State) => ∀ t, t ∈ (s'.fn fn).tensors → t.slot = slot → t ∉ x.tensors
       (∀ line, natField n 63 62 = 1 → x.tdBase.toNat % 65536 = 0 → x.tdLen.toNat % 65536 = 0 → mine fn →
          s.drawerRun ctx x.part x.tdBase x.tdLen.toNat = some line →
          (∀ g y t, (g, y) ∈ s.hub.fns → t ∈ y.tensors → (g = fn ∧ t.slot = slot) ∨ t.line + t.lines ≤ line
            ∨ line + x.tdLen.toNat / 128 ≤ t.line) →
          Yields (.tensorDeclare fn v) s (fun s' => ∃ t, (s'.fn fn).tensors = x.tensors.filter (fun y => y.slot != slot) ++ [t]
            ∧ t.slot = slot ∧ t.tensor = natField n 47 16 ∧ t.line = line ∧ t.lines = x.tdLen.toNat / 128 ∧ t.part = x.part
            ∧ (s'.fn fn).tdErr = x.tdErr ∧ s'.mem = s.mem
            ∧ (∀ l, l ∈ s.heldLines → (∃ y, y ∈ t :: x.tensors ∧ y.slot = slot ∧ y.line ≤ l ∧ l < y.line + y.lines) →
                ∃ r, r ∈ s'.home.reqs ∧ r.msg = .clear false ∧ r.line = l ∧ (s'.fn fn).tdBusy = some r.seq)
            ∧ t.version = (s.partTrust x.part).decl ∧ (s'.partTrust x.part).decl = ((s.partTrust x.part).decl + 1) % 2 ^ 48
            ∧ (s'.fn fn).tdBusy.isSome = true))
       ∧ (natField n 63 62 = 2 → Yields (.tensorRetire fn v) s (fun s' => gone s'
            ∧ (s'.fn fn).tensors = x.tensors.filter (fun y => y.slot != slot) ∧ (s'.fn fn).tdBusy.isSome = true ∧ (s'.fn fn).tdErr = x.tdErr
            ∧ (∀ l, l ∈ s.heldLines → (∃ y, y ∈ x.tensors ∧ y.slot = slot ∧ y.line ≤ l ∧ l < y.line + y.lines) →
                ∃ r, r ∈ s'.home.reqs ∧ r.msg = .clear false ∧ r.line = l ∧ (s'.fn fn).tdBusy = some r.seq))))
    ∧ (let x := s.fn fn
       let mslot := natField n 58 56
       Yields (.jxLoad fn v) s (fun s' =>
        (∀ c h gs s1, n.testBit 63 = true → 2 ≤ mslot → s.context? ctx = some c → c.fn = fn →
          s.hubReady [⟨ctx, c.part, 1, Need.load, x.jxSrc, 0x1280⟩] = true → s.hubReady (jxAts x c (jxSegs h)) = true →
          x.jxText.toNat % 65536 = 0 → s.hubReadVa ctx c.part 1 x.jxSrc 0x1280 = .ok h → jxForm h = true →
          shake256 32 (cut h 0x640 1793) ∈ (s.partTrust c.part).enrolled →
          Config.falconVerify (cut h 0x640 1793) (cut h 0 0xD80) (cut h 0xD80 1280) = true → gs.map Prod.fst = jxSegs h →
          (∀ g bs, (g, bs) ∈ gs → s.hubReadVa ctx c.part 1 (x.jxSrc + BitVec.ofNat 64 g.off) g.len = .ok bs ∧ measure bs = g.meas) →
          s.jxCopy fn ctx c.part x.jxText x.jxData gs = .ok s1 →
          let frames := ((gs.filter (fun g => g.1.kind == 1)).map (fun g => s1.jxFrames ctx c.part x.jxText g.1)).flatten
          c.sealed.length + frames.length ≤ 64 →
          s'.context? ctx = some { c with sealed := c.sealed ++ frames, images := c.images ++ [jxImage x.jxText gs] }
            ∧ s'.partTrust c.part = { s1.partTrust c.part with
                meas := gs.foldl (fun m g => extendSlot m mslot g.1.meas) (s1.partTrust c.part).meas }
            ∧ (s'.fn fn).jxBusy = true ∧ (s'.fn fn).jxErr = (s1.fn fn).jxErr
            ∧ s' = { s1 with next := s'.next, home := s'.home, trust := s'.trust
                             hub := { s1.hub with contexts := s'.hub.contexts, fns := s'.hub.fns, jobs := s'.hub.jobs } })
        ∧ (n.testBit 63 = true → mslot < 2 →
            s' = s.modFn fn (fun y => { y with jxWhy := 1, jxErr := true, jxBusy := false }))
        ∧ (n.testBit 63 = false → s' = s)))

/-- REGISTERS (R5, R184, R309, R360, R364, R386, R396): a dword written to a register reads back in its writable fields and changes no other
register of the space; 1 written to err of a status register clears it. -/
def Obligations.RegisterSpace : Prop :=
  ∀ (s : State) (fn : Nat) (v : W64), s.boot.ready = true → (s.fn fn).busy = false →
    let keeps := fun (off : Nat) (mask : W64) => Yields (.registerWrite fn off v) s (fun s' => s'.readReg fn off = v &&& mask
      ∧ (∀ o, o % 8 = 0 → o ≠ off → s'.readReg fn o = s.readReg fn o)
      ∧ s' = { s with stc := s'.stc, hub := { s.hub with fns := s'.hub.fns, queues := s'.hub.queues } })
    let all : W64 := -1#64
    (∀ off, off ∈ [0x4420, 0x4428, 0x4600, 0x4608, 0x4700, 0x4708, 0x4710] → keeps off all)
    ∧ (∀ k, k < 256 → keeps (0x5000 + 16 * k) all ∧ keeps (0x5008 + 16 * k) 0xFFFF#64
        ∧ keeps (0x6000 + 32 * k) 0xC00000000000FFFF#64 ∧ keeps (0x6008 + 32 * k) all ∧ keeps (0x6010 + 32 * k) all)
    ∧ (∀ k, k < 1024 → keeps (0x8000 + 32 * k) 0x8003FFFFFFFFFFFF#64 ∧ keeps (0x8008 + 32 * k) 0xFFFFFFFF000000FF#64
        ∧ keeps (0x8010 + 32 * k) all ∧ keeps (0x8018 + 32 * k) all
        ∧ (fn = 0 ∨ (s.queue k).fn = fn →
            ((s.queue k).st = 0 → keeps (0x10000 + 32 * k) all)
            ∧ (natField v.toNat 17 16 = 0 → Yields (.registerWrite fn (0x10008 + 32 * k) v) s (fun s' =>
                s' = s.modQueue k (fun q => q.setCtl (fn == 0) v)))))
    ∧ (fn = 0 → (∀ k, k < 16 → keeps (0x4000 + 8 * k) 0x9F9F9F9F9F9F9F9F#64)
        ∧ (∀ g, g < 32 → keeps (0x20010 + 32 * g) 0xFFFFFFFF#64 ∧ keeps (0x20800 + 16 * g) all ∧ keeps (0x20808 + 16 * g) 0xFFFFFFFF#64
            ∧ (v.getLsbD 31 = false → (s.fn g).busy = false → keeps (0x20000 + 32 * g) 0x4003FFFF#64)
            ∧ (Yields (.registerWrite fn (0x20008 + 32 * g) v) s (fun s' => s'.fn g = { s.fn g with
                shq := min (natField v.toNat 51 32) 524287, vq := min (natField v.toNat 10 0) 1024 }))))
    ∧ (let clears := fun (off : Nat) (k : Fn → Fn) => Yields (.statusErrClear fn off) s (fun s' => s' = s.modFn fn k
          ∧ s'.readReg fn off &&& 2#64 = 0#64)
       clears 0x4408 (fun f => { f with ctxErr := false }) ∧ clears 0x4438 (fun f => { f with mmErr := false })
       ∧ clears 0x4618 (fun f => { f with tdErr := false }) ∧ clears 0x4720 (fun f => { f with jxErr := false, jxWhy := 0 })
       ∧ (fn = 0 → Yields (.statusErrClear fn 0x4088) s (fun s' => s' = { s with stc := { s.stc with err := false } })))

/-- WATCHDOG, TRUST AND POWER (R207, R337, R370, R379, R383 to R385, R387 to R391, R394, R395): the watchdog's three kills; PART_CFG rekeys and
starts what it affects; a partition's machine-level reset; measurement, firmware, debug unlock and enrolment; a power-on; an upset
counted, its core rolled back or its slats killed; the throttle bits.
A power-on keeps host memory and the epochs of partitions that the layout lacks, and a boot that stops derives no key: the model's reading.
Where the manual leaves it open this is the model's choice, log 11, 46, 49, 54, 55 and 56. -/
def Obligations.TrustAndPower : Prop :=
  ∀ (s : State) (part die core : Nat) (v : W64) (x sig : List Byte),
    let done := fun (t : Slat) (s' : State) => ∃ t', s'.slat? t.uid = some t' ∧ t'.ended = true ∧ t'.queue = [] ∧ t'.d = []
    let rekeyed := fun (s' : State) (p : Nat) =>
      let k := (s.partTrust p).epoch + 1
      (s'.partTrust p).epoch = k ∧ (s'.partTrust p).creations = 0 ∧ (s'.partTrust p).kc = keyC p k ∧ (s'.partTrust p).kx = keyX p k
        ∧ (s'.partTrust p).ki = keyI p k
    let extended := fun (s' : State) (p slot : Nat) (m : List Byte) =>
      measOf (s'.partTrust p).meas slot = shake256 64 (measOf (s.partTrust p).meas slot ++ m)
        ∧ ∀ k, k ≠ slot → measOf (s'.partTrust p).meas k = measOf (s.partTrust p).meas k
    let layout := natField v.toNat 1 0
    let prot := natField v.toNat 7 4
    let dies := s.cfgDies layout prot
    (∀ uid t, s.slat? uid = some t → s.waitKind t ≠ 0 → t.parkAt ≠ 0 → (s.fn t.fn).wdSlat ≠ 0 →
        t.parkAt - 1 + (s.fn t.fn).wdSlat * 1024 ≤ s.now →
        Yields (.watchdogSlat uid) s (fun s' => done t s'
          ∧ s' = (s.kill uid 0xF (t.ent (t.taker 0)).pc (BitVec.ofNat 64 (s.waitKind t * 256)) true).note uid 0 2 [] none))
    ∧ (∀ grid team m k, s.teams.find? (fun m => m.grid == grid && m.idx == team) = some m → m.killedAt = some k → s.teamOver m = false →
        (s.fn m.fn).wdRow ≠ 0 → k + (s.fn m.fn).wdRow * 1024 ≤ s.now →
        Yields (.watchdogRow grid team) s (fun s' => ∀ uid t, s'.slat? uid = some t → t.team = m.uid → t.ended = true))
    ∧ (∀ grid g, s.grid? grid = some g → g.launch.persist = false → (s.fn g.fn).wdLnch ≠ 0 →
        g.since + (s.fn g.fn).wdLnch * 3000 ≤ s.now →
        Yields (.watchdogLauncher grid) s (fun s' => s'.context? g.ctx = none
          ∧ (∀ uid t, s'.slat? uid = some t → t.ctx = g.ctx → t.ended = true)
          ∧ (∀ q y, (q, y) ∈ s'.hub.queues → y.ctx = g.ctx → y.st = 3 ∨ (y.st = 4 ∧ y.err = 0xB))))
    ∧ (s.boot.ready = true → (∀ c, c ∈ s.hub.contexts → c.part ∉ dies.map (partOfDie s.trust.layout)) →
        Yields (.partCfgWrite v) s (fun s' => s'.trust.layout = layout ∧ s'.trust.prot = prot ∧ s'.trust.ups = natField v.toNat 11 8
          ∧ (∀ p, p ∈ dies.map (partOfDie layout) → rekeyed s' p)
          ∧ (∀ p, p ∉ dies.map (partOfDie layout) → (s'.partTrust p).epoch = (s.partTrust p).epoch ∧ (s'.partTrust p).kc = (s.partTrust p).kc)
          ∧ (let m := measure (leBytes 8 (natField v.toNat 11 8 * 256 + natField v.toNat 7 4 * 16 + natField v.toNat 1 0))
             (∀ p, p ∈ partsOf layout → p ∈ partsOf s.trust.layout → extended s' p 1 m)
             ∧ (∀ p, p ∈ dies.map (partOfDie layout) → p ∉ partsOf s.trust.layout →
                 measOf (s'.partTrust p).meas 0 = shake256 64 (measOf [] 0 ++ measure s.trust.firmware)
                 ∧ measOf (s'.partTrust p).meas 1 = shake256 64 (measOf [] 1 ++ m) ∧ ∀ k, 2 ≤ k → measOf (s'.partTrust p).meas k = measOf [] k))
          ∧ (∀ c, c < 640 → c / 160 ∈ dies → s'.core c = Core.reset)
          ∧ (∀ n, n / 8 ∈ dies → s'.link n = Link.reset .up) ∧ (∀ n, n / 4 ∈ dies → s'.flink n = Link.reset .up)
          ∧ (∀ c, c ∈ s'.trust.sidecars → paRegion (c.1 * 128) = .drawer → c.1 * 128 / 2 ^ 42 ∉ dies)
          ∧ (∀ x, x ∈ s'.home.l2 ↔ x ∈ s.home.l2 ∧ s.linePart x.line ∉ dies.map (partOfDie s.trust.layout))
          ∧ (∀ t, t ∈ s'.slats ↔ t ∈ s.slats ∧ t.core / 160 ∉ dies) ∧ s'.hub = s.hub
          ∧ ((∀ x, x ∈ s.host.crypt → x.2 ∉ dies.map (partOfDie s.trust.layout)) → s'.mem = s.mem)))
    ∧ (part ∈ partsOf s.trust.layout →
        Yields (.partitionMachineReset part) s (fun s' => rekeyed s' part ∧ (s'.partTrust part).meas = []
          ∧ (s'.partTrust part).unlocked = false ∧ (s'.partTrust part).enrolled = (s.partTrust part).enrolled
          ∧ (s'.partTrust part).decl = (s.partTrust part).decl ∧ (∀ p, p ≠ part → s'.partTrust p = s.partTrust p)
          ∧ (∀ c, c ∈ s'.trust.sidecars → drawerPart s.trust.layout (c.1 * 128) = part → c.2.old = true)
          ∧ s' = { s.hostBaked [part] with trust := s'.trust })
        ∧ (1 ≤ s.boot.step →
            let m := x ++ leBytes 1 part ++ ((List.range 8).map (measOf (s.partTrust part).meas)).flatten
              ++ leBytes 1 (flag s.trust.pendingFw.isSome 0) ++ leBytes 1 (flag (s.partTrust part).unlocked 0)
            Yields (.measurementRequest part x) s (fun s' =>
              s' = { s with trust := { s.trust with replies := s.trust.replies ++ [m ++ Config.falconSign attestSeed m] } }))
        ∧ (Yields (.debugUnlock part x sig) s (fun s' =>
            let names := Config.falconVerify Config.vendorKey x sig = true ∧ Config.tokenDevice x = Config.deviceLabel ∧ Config.tokenPart x = part
            let lives := ∃ c, c ∈ s.hub.contexts ∧ c.part = part ∧ c.prot = true
            (1 ≤ s.boot.step → names → ¬ lives →
              s'.partTrust part = { s.partTrust part with unlocked := true }
              ∧ (∀ p, p ≠ part → s'.partTrust p = s.partTrust p) ∧ s' = { s with trust := { s.trust with parts := s'.trust.parts } })
            ∧ (s.boot.step = 0 ∨ ¬ names ∨ lives → s' = s)))
        ∧ (1 ≤ s.boot.step → (s.partTrust part).enrolled.length < 8 → x.length = 32 →
            Yields (.keyEnrolment part x) s (fun s' => (s'.partTrust part).enrolled = (s.partTrust part).enrolled ++ [x]
              ∧ extended s' part 1 (measure x) ∧ (∀ p, p ≠ part → s'.partTrust p = s.partTrust p)
              ∧ s' = { s with trust := { s.trust with parts := s'.trust.parts } })))
    ∧ (Yields (.firmwareActivation x sig) s (fun s' =>
        s' = if 1 ≤ s.boot.step ∧ Config.falconVerify Config.vendorKey x sig = true then { s with trust := { s.trust with pendingFw := some x } } else s))
    ∧ (s.trust.pendingFw = some x → s.hub.jobs = [] →
        Yields .firmwareSwitch s (fun s' => s'.trust.firmware = x ∧ s'.trust.pendingFw = none
          ∧ (∀ p, p ∈ partsOf s.trust.layout → extended s' p 0 (measure x)) ∧ s' = { s with trust := s'.trust }))
    ∧ (∀ b, Yields (.powerOnReset b) s (fun s' => s'.slats = [] ∧ s'.teams = [] ∧ s'.home = State.reset.home ∧ s'.hub = State.reset.hub
          ∧ s'.trust.layout = s.trust.layout ∧ s'.trust.prot = s.trust.prot ∧ s'.trust.ups = 15 ∧ s'.trust.sidecars = []
          ∧ (∀ p, p < 4 → (s'.partTrust p).epoch =
              if b.fwOk = true ∧ p ∈ partsOf s.trust.layout then (s.partTrust p).epoch + 1 else (s.partTrust p).epoch)
          ∧ (s.Inv → ∀ a, Memory.read s'.mem a = if paRegion a = .host then Memory.read (s.hostBaked (List.range 4)).mem a else 0#8)
          ∧ (b.fwOk = true → s'.boot.step = 8 ∧ s'.boot.ready = true ∧ (∀ d, d < 4 → (s'.boot.dies.testBit d = true ↔ d ∈ b.dies))
              ∧ (∀ l, l < 32 → (s'.link l).st = if l ∈ b.badLinks then .down else .up)
              ∧ (∀ l, l < 16 → (s'.flink l).st = if l ∈ b.badFab then .down else .up)
              ∧ (b.badLinks ≠ [] → (∃ l, l ∈ b.badLinks ∧ l < 32) → (0, 0) ∈ s'.host.irqs) ∧ s'.trust.replies = s.trust.replies)
          ∧ (b.fwOk = false → s'.boot.step = 0 ∧ s'.boot.ready = false ∧ (∀ l, l < 32 → (s'.link l).st = .retrain)
              ∧ (∀ l, l < 16 → (s'.flink l).st = .retrain) ∧ s'.trust.replies = s.trust.replies ++ [Config.bootFailure]
              ∧ (∀ p, p < 4 → (s'.partTrust p).meas = [] ∧ (s'.partTrust p).kc = []))))
    ∧ (core < 640 → Yields (.upsetReport core) s (fun s' => s'.trust.upset = min (s.trust.upset + 1) 65535
        ∧ (s.upsOn core = false → s'.trust.kill = min (s.trust.kill + 1) 65535
            ∧ ∀ uid t, s'.slat? uid = some t → t.core = core → t.ended = true)
        ∧ (s.upsOn core = true → s'.trust.kill = s.trust.kill ∧ s'.mem = s.mem ∧
            let old := s.pastAt (s.now - 256)
            ((∀ a, a ∈ s.answers → a.at_ ≤ s.now - 256) →
              (s'.core core).spad = (sget Core.reset old.cores core).spad ∧ (s'.core core).tiles = (sget Core.reset old.cores core).tiles
              ∧ (∀ uid t, s.slat? uid = some t → t.core = core → ∃ t', s'.slat? uid = some t' ∧ t'.v = (s.slatAt old t).v ∧ t'.p = (s.slatAt old t).p))
            ∧ (∀ c, c ≠ core → (s'.core c).spad = (s.core c).spad ∧ (s'.core c).tiles = (s.core c).tiles))))
    ∧ (die < 4 → Yields (.powerThrottle die) s (fun s' => s' = { s with boot := { s.boot with thr := s'.boot.thr } }
          ∧ ∀ k, s'.boot.thr.testBit k = (k == die || s.boot.thr.testBit k))
        ∧ Yields (.powerThrottleEnd die) s (fun s' => s' = { s with boot := { s.boot with thr := s'.boot.thr } }
          ∧ ∀ k, k < 4 → s'.boot.thr.testBit k = (k != die && s.boot.thr.testBit k)))

/-- SLOT TABLES AND LINK STATES (R181, R184 to R189, R293, R294, R392): the slot-table controller's commands; a table's switch at its slot 0
and the read table's 80 slots later; and each transition of a link, with its counts, its tables and what becomes of the reads on it.
That each change to Retrain counts, one by LNK_RST too, and that neither clears a count is the model's choice.
Where the manual leaves it open this is the model's choice, log 57, 58, 84, 85 and 89. -/
def Obligations.LinkEvents : Prop :=
  ∀ (s : State) (fab : Bool) (l : Nat) (v : W64),
    let n := v.toNat
    let x := s.anyLink fab l
    let only := fun (s' : State) (f : Bool) (k : Nat) => ∀ g m, g ≠ f ∨ m ≠ k → s'.anyLink g m = s.anyLink g m
    let becomes := fun (i : Instr) (y : Link → Prop) => Yields i s (fun s' => y (s'.anyLink fab l) ∧ only s' fab l ∧ s'.mem = s.mem)
    let gives := fun (i : Instr) (f : Bool) (k : Nat) => Yields i s (fun s' => only s' f k
      ∧ (s'.anyLink f k).hub = (List.range 128).map (fun j => sget 0 s.stc.stage j) ∧ (s'.anyLink f k).port = (s.anyLink f k).port
      ∧ (s'.anyLink f k).load = (if (s.anyLink f k).st = .up then some ((s'.anyLink f k).hub, ((s.anyLink f k).slot + 255) / 128 * 128) else none)
      ∧ ((k ∈ if f then s'.stc.busyF else s'.stc.busyD) ↔ (s.anyLink f k).st = .up) ∧ s'.stc.err = s.stc.err
      ∧ s' = { s with links := s'.links, fab := { s.fab with links := s'.fab.links }, stc := s'.stc })
    let cmd := s.boot.ready = true ∧ n.testBit 31 = true ∧ s.stc.busyD = [] ∧ s.stc.busyF = [] ∧ stcZero n = true
    let up := fun (y : Link) => y.st = .up ∧ y.port = x.hub ∧ y.hub = x.hub ∧ y.read = readTable x.hub ∧ y.load = none
      ∧ y.retrains = x.retrains ∧ y.swaps = x.swaps ∧ y.spares = x.spares
    let retrain := fun (y : Link) => y.st = .retrain ∧ y.retrains = (x.retrains + 1) % 2 ^ 16 ∧ y.swaps = x.swaps ∧ y.spares = x.spares
      ∧ y.hub = x.hub ∧ y.port = x.port
    (cmd → natField n 30 29 = 0 → s.badTable false (natField n 12 8) s.stc.table = false → gives (.stcLoadTable v) false (natField n 12 8))
    ∧ (cmd → natField n 30 29 = 0 → natField n 12 8 < 16 → s.badTable true (natField n 12 8) s.stc.table = false →
        gives (.ftcLoadTable v) true (natField n 12 8))
    ∧ (let c := natField n 28 24
       (cmd → natField n 30 29 = 1 → c ≠ 31 → (∀ y, y ∈ s.stc.classes → y.1 ≠ c) → Yields (.stcBindClass v) s (fun s' =>
          s' = { s with stc := { s.stc with classes := s.stc.classes ++ [(c, if n.testBit 15 then .part (n % 32) else .fn (n % 32))] } }))
       ∧ (cmd → natField n 30 29 = 2 → c ≠ 31 → (∃ y, y ∈ s.stc.classes ∧ y.1 = c) → Yields (.stcReleaseClass v) s (fun s' =>
          (∀ y, y ∈ s'.stc.classes ↔ y ∈ s.stc.classes ∧ y.1 ≠ c)
          ∧ (∀ f k, linkNo f k = true → (s'.anyLink f k).hub = (s.anyLink f k).hub.map (fun e => if e = c then 31 else e)
              ∧ (s'.anyLink f k).port = (s.anyLink f k).port)
          ∧ s' = { s with links := s'.links, fab := { s.fab with links := s'.fab.links }, stc := s'.stc })))
    ∧ (∀ t at_, x.load = some (t, at_) →
        (s.switches fab l at_ { x with load := none } = true →
          becomes (.slotTableSwitch fab l at_) (fun y => y = { x with slot := at_, port := t, load := none, readSoon := !fab })
          ∧ Yields (.slotTableSwitch fab l at_) s (fun s' => l ∉ if fab then s'.stc.busyF else s'.stc.busyD))
        ∧ (∀ slot, slot ≠ at_ → Yields (.slotTableSwitch fab l slot) s (fun s' => s' = s)))
    ∧ (∀ slot, slot % 128 = 80 → slot < (s.link l).slot + 128 → (s.link l).readSoon = true →
        s.switches false l slot { s.link l with readSoon := false } = true → Yields (.readTableSwitch l slot) s (fun s' =>
        s'.link l = { s.link l with slot := slot, read := readTable (s.link l).port, readSoon := false } ∧ only s' false l ∧ s' = { s with links := s'.links }))
    ∧ (linkNo fab l = true → x.st = .up → (∃ i, i < (if fab then 2 else 3) ∧ 0 < x.spares.getD i 0) →
        becomes (.linkSwapStart fab l) (fun y => y.st = .swap ∧ y.swaps = (x.swaps + 1) % 2 ^ 16 ∧ y.retrains = x.retrains ∧ y.load = none
          ∧ y.hub = x.hub ∧ y.port = x.port ∧ ∃ i, i < (if fab then 2 else 3) ∧ 0 < x.spares.getD i 0 ∧ y.spares = x.spares.set i (x.spares.getD i 0 - 1)))
    ∧ (x.st = .swap → becomes (.linkSwapEnd fab l) up)
    ∧ (x.st = .swap ∨ (x.st = .up ∧ linkNo fab l = true) → becomes (.linkRetrainStart fab l) retrain)
    ∧ (x.st = .retrain → becomes (.linkTrainSuccess fab l) up)
    ∧ (x.st = .retrain → becomes (.linkDown fab l) (fun y => y.st = .down ∧ y.port = List.replicate 128 0x80 ∧ y.hub = x.hub ∧ y.spares = x.spares)
        ∧ Yields (.linkDown fab l) s (fun s' => ((s.fn 0).busy = false → (s.fn 0).masked.contains 0 = false → (0, 0) ∈ s'.host.irqs)
          ∧ (fab = false → ∀ d, d ∈ s'.home.drawer → d.sent.map Prod.fst ≠ some l)))
    ∧ (let f := n.testBit 30
       let k := natField n 4 0
       1 ≤ s.boot.step → n.testBit 31 = true → linkNo f k = true → (s.anyLink f k).st = .down → Yields (.linkReset v) s (fun s' => only s' f k
         ∧ s'.anyLink f k = { s.anyLink f k with st := .retrain, retrains := ((s.anyLink f k).retrains + 1) % 2 ^ 16 }))
    ∧ (∀ uid t, s.slat? uid = some t → Yields (.linkStall uid) s (fun s' => ∃ t', s'.slat? uid = some t'
        ∧ t' = { t with pend := t'.pend, log := t'.log } ∧ t'.log.map LogEntry.seq = t.log.map LogEntry.seq
        ∧ (∀ l, l ∈ t.log → l.kind = 3 → l.told = false → t.slim ≠ 0#64 → l.since + t.slim.toNat * 1024 ≤ s.now →
            { l with told := true } ∈ t'.log ∧ ((∃ e, t.qent? l.seq = some e ∧ e.op.isFin = false) → ∃ c, c ∈ t'.pend ∧ c.code = 8 ∧ l.lanes &&& c.lanes = l.lanes))
        ∧ OnlySlat uid s s'))

/-- THE DRAWER PORT AND THE HOST PORT (R85, R98, R179, R181 to R183, R185, R197, R357 to R359, R372, R375 to R377, R389): a command leaves in a
slot that serves it; its data fills L2, marked and counted where it cannot be trusted; a dirty line is written to memory with its
sidecar, and acknowledged or sent again; the host takes lines back and writes, answers, and takes what was sent to it; a mailbox
request is performed on a line the agent holds.
Where the manual leaves it open this is the model's choice, log 51, 59, 60, 69 and 86. -/
def Obligations.DrawerAndHost : Prop :=
  ∀ (s : State) (line : Nat), s.Inv →
    let writes := fun (m m' : List (Nat × Byte)) (bs : List (Nat × Byte)) =>
      (∀ a, (∀ b, b ∈ bs → b.1 ≠ a) → Memory.read m' a = Memory.read m a)
      ∧ ((bs.map Prod.fst).Nodup → ∀ b, b ∈ bs → Memory.read m' b.1 = b.2)
    let at_ := fun (s' : State) (link slot : Nat) => s'.link link = { s.link link with slot := slot } ∧ ∀ k, k ≠ link → s'.link k = s.link k
    (∀ link slot c cs, s.reaches link slot = true → s.slotCmds link slot = c :: cs → c.line = line →
        Yields (.drawerCommandSlot link slot line) s (fun s' => at_ s' link slot ∧
          (∃ d, d ∈ s'.home.drawer ∧ d.line = line ∧ d.sent = some (link, slot)
            ∧ ((∀ e, e ∈ s.home.drawer → e.line ≠ line) → d.wr = false ∧ d.fn = c.fn ∧ d.part = c.part))
          ∧ (∀ d, d.line ≠ line → (d ∈ s'.home.drawer ↔ d ∈ s.home.drawer))
          ∧ s' = { s with links := s'.links, home := { s.home with drawer := s'.home.drawer } }))
    ∧ (∀ link slot, s.reaches link slot = true → s.slotCmds link slot = [] →
        Yields (.drawerCommandSlot link slot line) s (fun s' => at_ s' link slot ∧ s' = { s with links := s'.links }))
    ∧ (∀ link slot err d, s.reaches link slot = true →
        s.home.drawer.find? (fun d => d.line == line && !d.wr && !d.again && d.sent.elim false (fun x => x.1 == link && x.2 + 80 == slot)) = some d →
        let bad := s.fillReads line = true ∧ (err = .bad ∨ s.tagFails line = true)
        Yields (.drawerReadData link slot line err) s (fun s' => at_ s' link slot ∧ d ∉ s'.home.drawer
          ∧ ((s.l2? line = none ∧ s.dstOf line = none ∧ s.owner? line = none ∧ (∀ e, e ∈ s.home.drawer → e.line = line → e.wr = false)) →
              ∃ x, s'.l2? line = some x ∧ x.val.bytes = (s.fillVal line).bytes ∧ x.dirty = false ∧ x.fn = d.fn
                ∧ (bad → x.val.marks = 0xFFFFFFFF#32) ∧ (¬ bad → x.val.marks = (s.fillVal line).marks))
          ∧ (bad → s'.trust.tagf = min (s.trust.tagf + 1) 65535) ∧ (¬ bad → s'.trust.tagf = s.trust.tagf)
          ∧ s'.trust.corr = (if err = .corrected then min (s.trust.corr + 1) 65535 else s.trust.corr)
          ∧ s'.mem = s.mem ∧ s'.cores = s.cores ∧ s'.slats = s.slats))
    ∧ (s.l2? line = none → Yields (.lineWriteBack line true) s (fun s' => s.home.vfill.filter (fun x => x.line != line) = s'.home.vfill
          ∧ s' = { s with home := { s.home with vfill := s'.home.vfill } }))
    ∧ (∀ evict x, s.l2? line = some x → s.owner? line = none → s.waiting line = false → s.abandoning line = false →
        (∀ d, d ∈ s.home.drawer → d.line ≠ line) →
        Yields (.lineWriteBack line evict) s (fun s' =>
          (if evict = true ∨ 16 ≤ x.way then s'.l2? line = none else s'.l2? line = some { x with dirty := false })
          ∧ (x.dirty = true → paRegion (line * 128) ≠ .host →
              writes s.mem s'.mem ((List.range 128).map (fun i => (line * 128 + i, x.val.get i)))
              ∧ (∃ d, s'.home.drawer = s.home.drawer ++ [d] ∧ d.line = line ∧ d.wr = true ∧ d.sent = none ∧ d.fn = x.fn)
              ∧ (line, s.newSidecar line x.val) ∈ s'.trust.sidecars ∧ s'.host = s.host)
          ∧ (x.dirty = true → paRegion (line * 128) = .host → s'.mem = s.mem
              ∧ s'.host.queue = s.host.queue ++ [(0, 0, (List.range 128).map (fun i => (line * 128 + i, x.val.get i)))])
          ∧ (x.dirty = false → s'.mem = s.mem ∧ s'.host = s.host ∧ s'.home.drawer = s.home.drawer)
          ∧ s'.slats = s.slats ∧ s'.cores = s.cores))
    ∧ (∀ link slot ok d, s.reaches link slot = true →
        s.home.drawer.find? (fun d => d.line == line && d.wr && !d.again && d.sent.elim false (fun x => x.1 == link && x.2 + 80 == slot)) = some d →
        Yields (.drawerWriteAck link slot line ok) s (fun s' => at_ s' link slot ∧ (∀ x, x ≠ d → x ∈ s.home.drawer → x ∈ s'.home.drawer) ∧ d ∉ s'.home.drawer
          ∧ (ok = false → { d with sent := none } ∈ s'.home.drawer) ∧ s' = { s with links := s'.links, home := { s.home with drawer := s'.home.drawer } }))
    ∧ (∀ r, s.agentQueue.head? = some r → untagLine r.line ∈ s.host.owned →
        (∀ q b, q ∈ s.host.queue → b ∈ q.2.2 → untagLine (b.1 / 128) ≠ untagLine r.line) →
        let u := untagLine r.line
        let v : LineVal := ⟨s.hostRaw u, s.hostMarks r.line⟩
        Yields (.mailboxAccess r.id) s (fun s' =>
          (∀ w ls tol, r.msg = .read w ls tol → s' = (s.answer r w ls v).served r)
          ∧ (∀ bs, r.msg = .write bs → s' = (s.hostWrite r.line (bytesIn r.line bs)).mailDone r
              ∧ ((∀ b, b ∈ bs → b.1 / 128 = r.line) → (∀ k, (u, k) ∉ s.host.crypt) →
                writes s.mem s'.mem (bs.map (fun b => (u * 128 + b.1 % 128, b.2)))))
          ∧ (∀ n w g f ls, r.msg = .atomic n w g f ls → s' = s.atomicOn r n w g f ls v (fun s _ bs => s.hostWrite r.line bs))
          ∧ (∀ x, x ∈ s'.home.reqs → x.id ≠ r.id)))
    ∧ (∀ bs, paRegion (line * 128) = .host → s.boot.modules ≠ 0 → Yields (.hostSnoop line bs) s (fun s' =>
        (∀ l, l ∈ s'.host.owned ↔ l ∈ s.host.owned ∧ l ≠ untagLine line)
        ∧ ((∀ k, (untagLine line, k) ∉ s.host.crypt) →
            writes s.mem s'.mem ((bs.filter (fun b => decide (b.1 < 128))).map (fun b => (untagLine line * 128 + b.1, b.2))))
        ∧ (bs ≠ [] → ∀ x, s'.l2? line = some x → x.dirty = true) ∧ s'.slats = s.slats ∧ s'.cores = s.cores))
    ∧ (∀ n, Yields (.hostPortModuleLoss n) s (fun s' => s' = { s with boot := { s.boot with modules := s.boot.modules - n } }))
    ∧ (s.boot.modules ≠ 0 →
        (∀ x, s.asked.find? (fun x => untagLine x.line == untagLine line && paRegion (x.line * 128) == .host) = some x →
          Yields (.hostPortResponse (.fill line)) s (fun s' => s' = s.putL2 x.line (s.fillVal x.line) false x.fn x.hint))
        ∧ ((∃ r, r ∈ s.home.reqs ∧ r.mail = true ∧ untagLine r.line = untagLine line) → untagLine line ∉ s.host.owned →
          Yields (.hostPortResponse (.own line)) s (fun s' =>
            s' = { s with host := { s.host with owned := s.host.owned ++ [untagLine line] } }))
        ∧ (∀ q rest, s.host.queue = q :: rest → Yields (.hostPortResponse .ack) s (fun s' =>
            ((∀ b, b ∈ q.2.2 → s.partProt (b.1 / 2 ^ 52) = false ∧ ∀ k, (b.1 / 128 % 2 ^ 45, k) ∉ s.host.crypt) →
              writes s.mem s'.mem (q.2.2.map (fun b => (b.1 % 2 ^ 52, b.2))))
            ∧ s' = { s with mem := s'.mem, host := { s.host with queue := rest, crypt := s'.host.crypt } })))

/-- FABRIC TRANSFERS (R293, R295, R298 to R300, R303 to R305): a slot carries a piece of the oldest transfer it may, or passes; once the lines
it goes through are ready at their homes a put is applied to its window, counted and answered, a get is served, its response written and counted, a
reduction's result written and counted; an acknowledgement ends a transfer and its entry; a refusal ends it with FABRIC pending and its clamp
owed the mark.
Where the manual leaves it open this is the model's choice, log 28, 38, 43, 61 and 79. -/
def Obligations.FabricEvents : Prop :=
  ∀ (s : State) (l slot : Nat),
    let owed := fun (s' : State) (loc : Option ClampLoc) (n tag : Nat) =>
      (∀ x, loc = some x → ∃ k, s'.home.counts = s.home.counts ++ [k] ∧ k.loc = x ∧ k.n = n ∧ k.err = false ∧ k.copy = tag)
      ∧ (loc = none → s'.home.counts = s.home.counts)
    let writes := fun (s' : State) (a : AgentAt) (bs : List Byte) =>
      ∀ c b, a = .spad c b → Memory.wf (s.core c).spad = true →
        (∀ i, i < bs.length → Memory.read (s'.core c).spad (b + i) = bs.getD i 0#8)
        ∧ (∀ i, i < b ∨ b + bs.length ≤ i → Memory.read (s'.core c).spad i = Memory.read (s.core c).spad i)
    let walks := fun (w : Window) (xs : List (Nat × Nat)) =>
      if w.spad then [] else (xs.map (fun x => s.hubWalks w.ctx (s.ctxPart w.ctx) (w.base + BitVec.ofNat 64 x.1) x.2)).flatten.eraseDups
    let lines := fun (w : Window) (need : Need) (rank off n : Nat) => (s.windowAt w need rank off n).elim [] AgentAt.lines
    let ready := fun (w : Window) (need : Need) (rank off n : Nat) (more : List (Nat × Nat)) =>
      s.hubOk true (walks w ((off, n) :: more)) = true ∧ s.hubOk (!need.wr) (lines w need rank off n) = true
    let walked := fun (w : Window) (need : Need) (rank off n : Nat) (more : List (Nat × Nat)) (x : State) =>
      (x.hubFree (!need.wr) (lines w need rank off n)).hubFree true (walks w ((off, n) :: more))
    let clampOf := fun (ncl : Bool) (coff : Nat) => if ncl then [] else [(coff, 16)]
    (s.fabricReaches l slot = true →
        (∀ x xs, s.fabricReady l slot = x :: xs → Yields (.fabricOutSlot l slot x.id) s (fun s' =>
          s'.xfer? x.id = some (if x.todo ≤ 1 then { x with st := 2, todo := 0, link := l } else { x with todo := x.todo - 1, link := l })
          ∧ (∀ k, k ≠ x.id → s'.xfer? k = s.xfer? k) ∧ s'.flink l = { s.flink l with slot := slot + 1 } ∧ (∀ k, k ≠ l → s'.flink k = s.flink k)
          ∧ s' = { s with fab := { s.fab with xfers := s'.fab.xfers, links := s'.fab.links } }))
        ∧ (s.fabricReady l slot = [] → ∀ id, Yields (.fabricOutSlot l slot id) s (fun s' =>
          s'.flink l = { s.flink l with slot := slot } ∧ (∀ k, k ≠ l → s'.flink k = s.flink k)
          ∧ s' = { s with fab := { s.fab with links := s'.fab.links } })))
    ∧ (∀ p : PeerPut, s.ownPut p = true →
        let replies := fun (s' : State) (k : Nat) => s'.fab.replies = s.fab.replies ++ [⟨s.next, p.dev, p.own, k, []⟩]
        (∀ k, s.windowOf p.fn p.win (some p.ctx) = .error k → Yields (.peerPutApply p) s (fun s' =>
          (p.lost = true → s' = s) ∧ (p.lost = false → replies s' k ∧ s' = { s with next := s.next + 1, fab := s'.fab })))
        ∧ (∀ w, s.windowOf p.fn p.win (some p.ctx) = .ok w → ready w Need.xferDst p.rank p.off p.bytes.length (clampOf p.ncl p.coff) →
          (∀ x, p.lost = true → p.ncl = false → s.windowClamp w p.rank p.coff = some x → Yields (.peerPutApply p) s (fun s' =>
            s'.fab = s.fab ∧ ∃ k, s'.home.counts = s.home.counts ++ [k] ∧ k.loc = x ∧ k.err = true))
          ∧ (∀ a, p.lost = false → (w.spad = true → s.windowTeam w ≠ none) → s.windowAt w Need.xferDst p.rank p.off p.bytes.length = some a →
            let loc := if p.ncl then none else s.windowClamp w p.rank p.coff
            p.ncl = true ∨ loc ≠ none →
            Yields (.peerPutApply p) s (fun s' => replies s' 0 ∧ owed s' loc p.bytes.length s.next ∧ writes s' a p.bytes
              ∧ (∀ segs, a = .mem segs → s'.home.l2 = (walked w Need.xferDst p.rank p.off p.bytes.length (clampOf p.ncl p.coff)
                  (({ s with next := s.next + 1 } : State).hubWrite p.fn
                    ((at_ 0 p.bytes).map (fun b => (segAddr segs b.1, b.2))))).home.l2)))))
    ∧ (∀ g : PeerGet, s.ownGet g = true →
        let told := fun (k : Nat) (bs : List Byte) =>
          ({ s with next := s.next + 1, fab := { s.fab with replies := s.fab.replies ++ [⟨s.next, g.dev, g.own, k, bs⟩] } } : State)
        (∀ k, s.windowOf g.fn g.win (some g.ctx) = .error k → Yields (.peerGetServe g) s (fun s' => s' = told k []))
        ∧ (∀ w, s.windowOf g.fn g.win (some g.ctx) = .ok w →
            (w.spad = true → s.windowTeam w = none → Yields (.peerGetServe g) s (fun s' => s' = told 2 []))
            ∧ ((w.spad = true → s.windowTeam w ≠ none) → ready w Need.xferSrc g.rank g.off g.len [] →
              let served := fun (k : Nat) (bs : List Byte) =>
                Yields (.peerGetServe g) s (fun s' => s' = walked w Need.xferSrc g.rank g.off g.len [] (told k bs))
              (s.windowAt w Need.xferSrc g.rank g.off g.len = none → served 3 [])
              ∧ (∀ segs, s.windowAt w Need.xferSrc g.rank g.off g.len = some (.mem segs) →
                  served 0 ((List.range g.len).map (fun i => s.hubByte (segAddr segs i))))
              ∧ (∀ c a, s.windowAt w Need.xferSrc g.rank g.off g.len = some (.spad c a) → served 0 (Memory.readN (s.core c).spad a g.len)))))
    ∧ (∀ x bytes, s.xfer? x.id = some x → x.ops.op = 2 → x.st = 2 → bytes.length = x.ops.n.toNat → (s.flink x.link).st = .up →
        s.answered x 0 bytes = true → s.hubOk false (segLines x.dst) = true → Yields (.getResponse x.id bytes) s (fun s' =>
          s'.xfer? x.id = some { x with st := 3 } ∧ owed s' x.coff bytes.length x.id
          ∧ s'.home.l2 = ((s.hubWriteAs x.fn x.uid x.seq ((at_ 0 bytes).map (fun b => (segAddr x.dst b.1, b.2)))).hubFree false (segLines x.dst)).home.l2))
    ∧ (∀ fn group epoch chunk bytes g x w a loc, s.groupOf fn group = some g →
        s.fab.xfers.find? (fun x => x.fn == fn && x.ops.op == 1 && x.st == 2 && x.ops.key.2 == group
          && natField x.ops.e.toNat 31 16 == epoch && x.ops.d.toNat == chunk) = some x →
        bytes ≠ [] → bytes.length = g.chunk chunk → x.redAllowed g.nm bytes = true → (s.fn fn).busy = false → (s.flink x.link).st = .up → s.windowOf fn g.win none = .ok w →
        s.windowAt w Need.xferDst 0 (g.boff.toNat + chunk * (g.csz * 128)) bytes.length = some a →
        s.windowClamp w 0 (g.cboff.toNat + 16 * chunk) = some loc →
        ready w Need.xferDst 0 (g.boff.toNat + chunk * (g.csz * 128)) bytes.length [(g.cboff.toNat + 16 * chunk, 16)] →
        Yields (.switchReductionResult fn group epoch chunk bytes) s (fun s' =>
          s'.xfer? x.id = some { x with st := 3 } ∧ owed s' (some loc) bytes.length x.id ∧ writes s' a bytes))
    ∧ (∀ x t, s.xfer? x.id = some x → s.slat? x.uid = some t → (s.flink x.link).st = .up →
        let done := fun (s' : State) => s'.xfer? x.id = none ∧ (∀ k, k ≠ x.id → s'.xfer? k = s.xfer? k) ∧ s'.mem = s.mem ∧ s'.cores = s.cores
          ∧ ∃ t', s'.slat? x.uid = some t' ∧ t'.qent? x.seq = none ∧ t'.v = t.v ∧ t'.s = t.s ∧ t'.p = t.p ∧ t'.q = t.q
        ((x.ops.op = 0 ∧ x.st = 2 ∧ s.answered x 0 [] = true) ∨ (x.ops.op ≠ 0 ∧ x.st = 3 ∧ s.owes x.id = false) →
          Yields (.fabricAck x.id) s (fun s' => done s' ∧ OnlySlat x.uid s { s' with fab := s.fab }))
        ∧ (∀ reason, 2 ≤ x.st → 1 ≤ reason → reason ≤ 5 → s.answered x reason [] = true → t.ended = false →
            Yields (.fabricNack x.id reason) s (fun s' => done s'
              ∧ (∃ t' c, s'.slat? x.uid = some t' ∧ c ∈ t'.pend ∧ c.code = 0x10
                  ∧ c.tinfo = BitVec.ofNat 64 (x.ops.key.2 * 2 ^ 32 + reason * 256))
              ∧ (∀ y, s.refusedClamp x = some y → ∃ k, k ∈ s'.home.counts ∧ k.loc = y ∧ k.err = true))))

/-- ENTRIES LEAVE, WINDOWS EMPTY, MARKERS COMPLETE (R82 to R86, R89 to R93, R95, R161, R164 to R166, R217 to R221, R233, R304): what an entry
that may leave does: a load takes the core's own bytes and asks the home for the others, a store enters the hold window, an atomic
and an addition go where R190 and R218 send them, a faulting lane is abandoned or logged; the window's head exits after 256 cycles, and a copy
or a transfer begins, once what its core sent before is applied; a release completes when everything older has reached its point, an acquire when everything older is complete.
Where the manual leaves it open this is the model's choice, log 20, 22, 24, 26, 28, 30, 31, 65, 67 and 95. -/
def Obligations.PathEvents : Prop :=
  (∀ (s : State) (uid seq : Nat) (t : Slat) (e : QEnt), s.slat? uid = some t → t.qent? seq = some e →
    let gone := fun (s' : State) => ∃ t', s'.slat? uid = some t' ∧ t'.qent? seq = none
    let others := fun (s' : State) => s'.mem = s.mem ∧ s'.hub = s.hub ∧ s'.teams = s.teams ∧ (∀ x, x ≠ uid → s'.slat? x = s.slat? x)
    let regs := fun (s' : State) => ∃ t', s'.slat? uid = some t' ∧ t'.v = t.v ∧ t'.s = t.s ∧ t'.p = t.p ∧ t'.q = t.q ∧ t'.b = t.b
    let ws := s.walksFor t.core t.ctx t.part (s.entVas t e)
    (s.mayLeave t e = true → s.hubOk true ws = false → Yields (.pathEntryLeave uid seq) s (fun s' =>
      (∀ l, l ∈ ws → ∃ r, r ∈ s'.home.reqs ∧ r.msg = .hub true ∧ r.line = l)
      ∧ s' = { s with next := s'.next, home := { s.home with reqs := s'.home.reqs } }))
    ∧ (s.mayLeave t e = true → s.hubOk true ws = true →
      let reqs0 := (s.hubFree true ws).home.reqs
      let queued := (e.lanes.filter (fun x => x.st == .queued)).map
        (fun x => if x.data.isNone then { x with data := t.capture e.op x.l } else x)
      let s1 := (s.checkLanes t e.op.ask e.regen queued).2
      let fs := (s.checkLanes t e.op.ask e.regen queued).1
      let ps := passedOf fs
      let c := s1.core t.core
      let win := s1.window t.core
      let moves := match e.op with
        | .load _ _ _ _ => true
        | .store _ _ _ _ => true
        | .record _ => true
        | .atomic _ _ _ _ _ _ => true
        | .clamp _ _ _ => true
        | .acc _ _ => true
        | .ldt _ _ => true
        | _ => false
      let leaves := fun (P : State → Prop) => Yields (.pathEntryLeave uid seq) s (fun s' => P s' ∧ others s')
      let clean := fun (line : Nat) => t.markedLanes e = [] ∧ (∀ x, x ∈ e.lanes → x.st = .queued) ∧ (e.lanes.map Lane.l).Nodup ∧ ps.map Passed.lane = queued ∧ ps ≠ []
        ∧ (∀ p, p ∈ ps → p.bank = none ∧ p.perm.mail = false ∧ p.a / 128 = line)
      let enters := fun (s' : State) (line : Nat) (m : Msg) => ∃ h, (s'.core t.core).hw = c.hw ++ [h] ∧ h.since = s.now ∧ h.req.msg = m
        ∧ h.req.tgt = .mem ∧ h.req.line = line ∧ h.req.uid = uid ∧ h.req.seq = seq ∧ h.req.core = t.core
      (∀ line, clean line →
        (∀ w dst hint, e.op = .load w false dst hint → (∀ p, p ∈ ps → s1.bounded t p.lane.loc p.perm = none ∧ t.has p.lane.l = true) →
          let own := fun (p : Passed) => captured win .mem p.a (2 ^ w)
          let near := fun (p : Passed) => allOwn (own p) (2 ^ w) || (c.l1? line).isSome
          let far := ps.filter (fun p => !(near p))
          leaves (fun s' =>
            (∀ p k, p ∈ ps → near p = true → k < wregs w → ∃ t', s'.slat? uid = some t' ∧ t'.vget (dst + k) p.lane.l
                = BitVec.ofNat 32 ((laneBytes ((c.l1? line).elim LineVal.zero L1Line.val) p.a (2 ^ w) (some (own p))).1 / 2 ^ (32 * k)))
            ∧ (far = [] → s'.home.reqs = reqs0 ∧ gone s')
            ∧ (far ≠ [] → ∃ r, s'.home.reqs = reqs0 ++ [r] ∧ r.line = line ∧ r.uid = uid ∧ r.seq = seq
                ∧ r.msg = .read (2 ^ w) (far.map (fun p => (p.lane.l, p.a))) none)))
        ∧ (c.rec? line = none →
            (∀ w d hint, e.op = .store w false d hint → (ps.map Passed.a).Nodup →
              let bs := (ps.map (fun p => at_ p.a (leBytes (2 ^ w) (p.lane.data.getD 0)))).flatten
              leaves (fun s' => gone s' ∧ regs s' ∧ enters s' line (.write bs) ∧ s'.home.reqs = reqs0
                ∧ (∀ x, c.l1? line = some x → x.owned = false → (s'.core t.core).l1? line = some { x with val := x.val.put (bytesIn line bs) })))
            ∧ (∀ n w g f dst d, e.op = .atomic n w g f dst d →
              let ls := ps.map (fun p => (⟨p.lane.l, p.a, p.lane.data.getD 0 % 2 ^ 128, p.lane.data.getD 0 / 2 ^ 128⟩ : ALane))
              leaves (fun s' => regs s' ∧ (enters s' line (.atomic n w g f ls)
                  ∨ (enters s' line (.own n w g f ls) ∧ w ≠ 4 ∧ ∀ p, ps.head? = some p → p.perm.bnd = false))
                ∧ s'.home.reqs = reqs0))
            ∧ (∀ k sp sel, e.op = .clamp k sp sel → (∀ ph q, k ≠ .wait ph ∧ k ≠ .test q ph) → ∀ p, ps = [p] →
                leaves (fun s' => regs s' ∧ enters s' line (.clamp k p.a))))
        ∧ (∀ k sp sel p, e.op = .clamp k sp sel → ps = [p] → ((∃ ph, k = .wait ph) ∨ ∃ q ph, k = .test q ph) →
            leaves (fun s' => regs s' ∧ ∃ r, s'.home.reqs = reqs0 ++ [r] ∧ r.msg = .clamp k p.a ∧ r.line = line))
        ∧ (∀ bf d, e.op = .acc bf d →
            let adds := ps.map (fun p => (p.a % 128 / elemBytes bf,
              if bf then toF32 (b16 (p.lane.data.getD 0 % 65536)) else BitVec.ofNat 32 (p.lane.data.getD 0)))
            ∀ p, ps.head? = some p →
              (s1.bounded t p.lane.loc p.perm = none → leaves (fun s' => regs s' ∧ enters s' line (.homeAdd bf adds)))
              ∧ (∀ g, s1.bounded t p.lane.loc p.perm = some g → c.rec? line = none →
                  leaves (fun s' => regs s' ∧ enters s' line (.grant bf g.num adds)))
              ∧ (∀ g r, s1.bounded t p.lane.loc p.perm = some g → c.rec? line = some r →
                  let m := gaugeMax 0#32 (gaugePass r.gauge adds)
                  flt (f32 r.share) (f32 m) = false → leaves (fun s' => gone s' ∧ regs s' ∧ (s'.core t.core).hw = c.hw
                    ∧ (s'.core t.core).rec? line = some { r with
                        gauge := m
                        delta := adds.foldl (fun x a => sput x a.1 (f32add (sget 0#32 x a.1) a.2)) r.delta }))))
      ∧ (∀ x, e.lanes = [x] → x.st = .queued → t.markedLanes e = [] → moves = true →
          (∀ y code reason, fs = [(y, .sync code reason)] → e.cid ∉ t.told → leaves (fun s' => gone s' ∧ regs s'
            ∧ ∃ t' k, s'.slat? uid = some t' ∧ k ∈ t'.pend ∧ k.code = code ∧ k.reason = reason))
          ∧ (∀ y r tok s2, fs = [(y, .served r)] → t.logFull = false →
              (s1.modSlat uid (fun t => t.setQent { e with lanes := queued })).serve (t.setQent { e with lanes := queued }) r.kind
                e.op.ask.access r.page r.size (match r.lane.loc with
                  | .glob va _ => va
                  | _ => 0#64) (lanesMask [r.lane]) r.leaf r.link = (some tok, s2) →
              Yields (.pathEntryLeave uid seq) s (fun s' => ∃ t' k, s'.slat? uid = some t' ∧ k ∈ t'.log ∧ k.seq = seq ∧ k.word = e.word
                ∧ k.lanes = lanesMask [r.lane] ∧ k.kind = r.kind ∧ k.token = tok)))
      ∧ (∀ dst x p, e.op = .grd dst → e.lanes.head? = some x → s.lanePa t x.loc = some p →
          leaves (fun s' => gone s' ∧ ∃ t', s'.slat? uid = some t' ∧ t'.sget dst = (match (s.core t.core).rec? (p.1 / 128) with
            | some r => r.share.setWidth 64 <<< 32 ||| r.gauge.setWidth 64
            | none => 0#64)))
      ∧ (∀ mode arg, e.op = .drn mode arg → leaves (fun s' => regs s'
          ∧ (∀ r, r ∈ s.drnRecs t mode arg e.lanes → ∃ h, h ∈ (s'.core t.core).hw ∧ h.req.msg = .drain r.bf r.carried ∧ h.req.line = r.line)
          ∧ (s.drnRecs t mode arg e.lanes = [] → gone s')))
      ∧ (∀ k plan s2, e.op = .copy k → k.op ≠ 7 → s.coreReady t.core (s.descAs t k e.regen) = true → s.checkCopy t k e.regen = (.ok plan, s2) → leaves (fun s' => regs s'
          ∧ ∃ y, s'.home.copies = s.home.copies ++ [y] ∧ y.ops = k ∧ y.uid = uid ∧ y.seq = seq ∧ y.src = plan.src ∧ y.dst = plan.dst
            ∧ y.xf = plan.xf ∧ y.out = false ∧ ∃ h, (s'.core t.core).hw.getLast? = some h ∧ h.req.msg = .copy y.id))
      ∧ (∀ x segs s2, e.op = .xfer x → s.xferForm t x = none → (if x.op = 2 then s.rangeOk t Need.xferDst e.regen x.d x.n.toNat 2
            else s.rangeOk t Need.xferSrc e.regen x.s x.n.toNat 1) = (.ok segs, s2) → leaves (fun s' => regs s'
          ∧ ∃ y, s'.fab.xfers = s.fab.xfers ++ [y] ∧ y.ops = x ∧ y.uid = uid ∧ y.seq = seq ∧ y.st = 0
            ∧ y.todo = (if x.op = 2 then 1 else (x.n.toNat + 3967) / 3968)
            ∧ ∃ h, (s'.core t.core).hw.getLast? = some h ∧ h.req.msg = .xfer y.id)))
    ∧ (∀ m, e.op = .marker m → seq < s.next → (∀ f, f ∈ t.older e → f.on e.paths = true → f.op.isMarker = false) → m.rel = true →
        let drains := m.home = true ∧ Path.ac ∈ e.paths
        (drains → m.stage = 0 → (∀ f bf d, f ∈ t.older e → f.op ≠ .acc bf d) → Yields (.releaseMarkerComplete uid seq) s (fun s' =>
          (∃ t' f, s'.slat? uid = some t' ∧ t'.qent? seq = some f ∧ f.op = .marker { m with stage := 1, since := s'.next } ∧ t'.accd = [])
          ∧ (∀ r, r ∈ (s.core t.core).recs → r.line ∈ t.accd → r.draining = false →
              ∃ h, h ∈ (s'.core t.core).hw ∧ h.req.msg = .drain r.bf r.carried ∧ h.req.line = r.line)))
        ∧ ((drains → m.stage ≠ 0 ∧ s.undrained t.core m.since = false) → s.reached t e m = true →
            Yields (.releaseMarkerComplete uid seq) s (fun s' => gone s' ∧ s'.mem = s.mem
              ∧ ∃ t', s'.slat? uid = some t' ∧ (m.fst = true → t'.fst = BitVec.ofNat 64 m.status)
                ∧ (t.park = .xfen → t.parkArg = BitVec.ofNat 64 seq → t'.park = .none))))
    ∧ (∀ m, e.op = .marker m → m.rel = false → (∀ f, f ∈ t.older e → f.on e.paths = false) →
        (let cores := m.promote.elim [] (s.promoted t)
         (cores ≠ [] → 2 ≤ m.stage) → (∀ c, c ∈ cores → s.undrained c m.since = false) →
          Yields (.acquireMarkerComplete uid seq) s (fun s' => gone s' ∧ others s'
            ∧ (∀ c, c ∈ cores ∨ (m.home = true ∧ c = t.core) → (s'.core c).l1 = (s.core c).l1.filter L1Line.owned)
            ∧ (∀ c, c ∉ cores → (m.home = true → c ≠ t.core) → s'.core c = s.core c)
            ∧ ∃ t', s'.slat? uid = some t' ∧ (m.fst = true → t'.fst = BitVec.ofNat 64 m.status)
              ∧ (if t.park = .tbar ∧ t.parkArg = BitVec.ofNat 64 seq then
                  t'.park = .none ∧ t' = { t with queue := t'.queue, fst := t'.fst, park := .none, parkAt := 0, watch := none, bst := t'.bst }
                else t' = { t with queue := t'.queue, fst := t'.fst })))))
  ∧ (∀ (s : State) (core : Nat),
      let begins := fun (r : Req) (hw : List HwEnt) => s.owed r.core r.id = false →
        let begun := fun (P : State → Prop) => Yields (.holdWindowExit core) s (fun s' => P s' ∧ (s'.core core).hw = hw ∧ s'.mem = s.mem
          ∧ ∀ o, o ∈ s'.home.starts → o.id ≠ r.id)
        (∀ id, r.msg = .copy id → ((s.copy? id).elim [] s.collapseLines).all s.ripe = true →
          begun (fun s' => ∀ k, s'.copy? id = some k → (s.copy? id).isSome = true ∧ k.out = true))
        ∧ (∀ id x, r.msg = .xfer id → s.xfer? id = some x → s.hubOk true (s.xferLines id) = true →
          begun (fun s' => ∃ y, y ∈ s'.fab.xfers ∧ y.id = id ∧ y.st = 1
            ∧ (x.ops.op ≠ 2 → y.bytes = (List.range x.ops.n.toNat).map (fun i => s.hubByte (segAddr x.src i)))))
      (∀ r, s.home.starts.find? (fun r => r.core == core) = some r → begins r (s.core core).hw)
      ∧ (∀ h rest, (s.core core).hw = h :: rest → h.since + 256 ≤ s.now →
          (∀ r, s.home.starts.find? (fun r => r.core == core) = some r → s.owed r.core r.id = true) →
          let exits := fun (P : State → Prop) => Yields (.holdWindowExit core) s (fun s' => P s' ∧ (s'.core core).hw = rest ∧ s'.mem = s.mem)
          ((∀ id, h.req.msg ≠ .copy id) → (∀ id, h.req.msg ≠ .xfer id) → h.req.tgt = .mem → Yields (.holdWindowExit core) s (fun s' =>
            s' = (s.modCore core (fun c => { c with hw := rest })).modHome (fun x => { x with reqs := x.reqs ++ [h.req] })))
          ∧ (∀ bs k, h.req.msg = .write bs → h.req.tgt = .spad k →
            (bs ≠ [] → s.owed h.req.core h.req.id = true → exits (fun s' => s'.home = { s.home with reqs := s.home.reqs ++ [h.req] }))
            ∧ (bs ≠ [] → s.owed h.req.core h.req.id = false → exits (fun s' => s'.home = s.home
                ∧ (Memory.wf (s.core k).spad = true → ∀ a, (∀ b, b ∈ bs → b.1 ≠ a) →
                    Memory.read (s'.core k).spad a = Memory.read (s.core k).spad a)
                ∧ (Memory.wf (s.core k).spad = true → (bs.map Prod.fst).Nodup → ∀ b, b ∈ bs → Memory.read (s'.core k).spad b.1 = b.2)))
            ∧ (bs = [] → exits (fun s' => s' = s.modCore core (fun c => { c with hw := rest }))))
          ∧ begins h.req rest
          ∧ ((∃ id, h.req.msg = .copy id ∨ h.req.msg = .xfer id) → s.owed h.req.core h.req.id = true →
              exits (fun s' => s'.home = { s.home with starts := s.home.starts ++ [h.req] }))))

/-- REQUESTS AT THEIR HOMES (R18, R83, R86, R87, R173, R190, R191, R194, R195, R203, R244, R248): a request whose turn it is, and that what a
write-class step settles first does not keep waiting, is performed and gone: a read delivers and fills L1, a store writes, an atomic
replaces and delivers the old values, a clamp steps, an owned line is granted; a copy is recalled, evicted or dropped.
Where the manual leaves it open this is the model's choice, log 28, 58, 69, 70 and 92. -/
def Obligations.HomeEvents : Prop :=
  (∀ (s : State) (r : Req), s.req? r.id = some r → r.mail = false → s.turn r = true →
    let i := r.id
    let gone := fun (s' : State) => ∀ x, x ∈ s'.home.reqs → x.id ≠ i
    let still := fun (s' : State) => s'.mem = s.mem ∧ s'.hub = s.hub ∧ s'.teams = s.teams
    let others := fun (s' : State) => ∀ x, x ≠ r.uid → s'.slat? x = s.slat? x
    let delivers := fun (s' : State) (ls : List (Nat × Nat)) => ∀ t e w dst hint, s.slat? r.uid = some t → t.qent? r.seq = some e →
      e.op = .load w false dst hint ∨ (∃ n g f d, e.op = .atomic n w g f dst d) → (ls.map Prod.fst).Nodup →
      (∀ x, x ∈ ls → t.has x.1 = true ∧ ∃ y, y ∈ e.lanes ∧ y.l = x.1 ∧ y.st ≠ .logged) → (e.lanes.map Lane.l).Nodup →
      ∀ x k, x ∈ ls → k < wregs w → ∃ t', s'.slat? r.uid = some t' ∧ t'.vget (dst + k) x.1 = BitVec.ofNat 32 (x.2 / 2 ^ (32 * k))
    let l2 := fun (s' : State) (v : LineVal) =>
      (paRegion (r.line * 128) ≠ .host → ∃ x, s'.l2? r.line = some x ∧ x.val = v ∧ x.dirty = true) ∧ (∀ x, s'.l2? r.line = some x → x.val = v)
    (∀ w ls, r.msg = .read w ls none → r.tgt = .mem → s.budget? r.line = none → s.drainHeld r = false → ∀ v, s.atHand r.line = some v →
        let mine := ((s.core r.core).l1? r.line).elim v L1Line.val
        Yields (.homeRead i) s (fun s' => gone s' ∧ still s' ∧ others s' ∧ s'.home.l2 = (s.usedUp r.line).home.l2
          ∧ delivers s' (ls.map (fun x => (x.1, (laneBytes mine x.2 w (s.ahead r w x)).1)))
          ∧ (r.hint ≠ 3 → (s.core r.core).l1? r.line = none → (s.core r.core).rec? r.line = none → (s.core r.core).l1Room r.line = true →
              (s'.core r.core).l1? r.line = some ⟨r.line, false, overlay (s.window r.core) r.line v, (s.core r.core).l1Hint r.line r.hint⟩)))
    ∧ (r.msg = .prefetch → r.tgt = .mem → s.budget? r.line ≠ none ∨ s.atHand r.line ≠ none → s.drainHeld r = false →
        Yields (.homeRead i) s (fun s' => gone s' ∧ still s' ∧ others s' ∧ s'.home.l2 = (s.usedUp r.line).home.l2))
    ∧ (∀ dst t, r.msg = .stat dst → s.drainHeld r = false → s.slat? r.uid = some t →
        Yields (.homeRead i) s (fun s' => gone s' ∧ still s' ∧ others s' ∧ ∃ t', s'.slat? r.uid = some t' ∧ t'.sget dst = s.vstatWord r.line
          ∧ t'.qent? r.seq = none ∧ t'.v = t.v))
    ∧ (∀ q ph a t e sp sel, r.msg = .clamp (.test q ph) a → s.drainHeld r = false → s.owner? r.line = none → s.present r.line = true → s.slat? r.uid = some t →
        t.qent? r.seq = some e → e.op = .clamp (.test q ph) sp sel → q < 7 →
        let c := s.clampAt (.mem a)
        Yields (.homeRead i) s (fun s' => gone s' ∧ still s' ∧ others s'
          ∧ ∃ t', s'.slat? r.uid = some t' ∧ t'.qget q = (decide (c.phase ≠ ph) || c.err) ∧ t'.s = t.s ∧ t'.v = t.v))
    ∧ (∀ ph a t e, r.msg = .clamp (.wait ph) a → s.drainHeld r = false → s.owner? r.line = none → s.present r.line = true → s.slat? r.uid = some t →
        t.qent? r.seq = some e →
        let c := s.clampAt (.mem a)
        Yields (.homeRead i) s (fun s' => gone s' ∧ still s' ∧ others s' ∧ ∃ t', s'.slat? r.uid = some t' ∧ t'.s = t.s ∧ t'.v = t.v
          ∧ (c.phase = ph → c.err = false → (s.team? t.team).elim false Team.aband = false → t'.park = .clmw ∧ t'.watch ≠ none)
          ∧ (c.phase ≠ ph ∨ c.err = true ∨ (s.team? t.team).elim false Team.aband = true → t'.park = .none ∧ t'.watch = none)))
    ∧ (∀ bs, r.msg = .write bs →
        (∀ c, r.tgt = .spad c → Yields (.homeWrite i) s (fun s' => gone s' ∧ still s' ∧ s'.slats = s.slats
          ∧ (Memory.wf (s.core c).spad = true → (∀ a, (∀ b, b ∈ bs → b.1 ≠ a) → Memory.read (s'.core c).spad a = Memory.read (s.core c).spad a)
              ∧ ((bs.map Prod.fst).Nodup → ∀ b, b ∈ bs → Memory.read (s'.core c).spad b.1 = b.2))))
        ∧ (r.tgt = .mem → s.owner? r.line = none → r.st ≠ .fresh ∨ s.writable r.line bs = true → ∀ s1, s.settled r = (s1, true) →
            Yields (.homeWrite i) s (fun s' => gone s' ∧ s'.mem = s.mem ∧ l2 s' ((s1.homeVal r.line).put (bytesIn r.line bs))
              ∧ (paRegion (r.line * 128) = .host → s'.host.queue = s1.host.queue
                  ++ [(r.uid, r.seq, (bytesIn r.line bs).map (fun b => (r.line * 128 + b.1, b.2)))]))))
    ∧ (∀ n w g f ls, r.msg = .atomic n w g f ls →
        (∀ c, r.tgt = .spad c → (s.core c).badLanes w ls = 0#32 →
            let x := atomicLanes n w g f 0 (s.core c).spad ls
            Yields (.atomicStep i) s (fun s' => gone s' ∧ still s' ∧ others s' ∧ delivers s' x.2
              ∧ (Memory.wf (s.core c).spad = true → ∀ a, a ∈ ls → ∀ k, k < 2 ^ w → Memory.read (s'.core c).spad (a.a + k) = sget 0#8 x.1 (a.a + k))))
        ∧ (r.tgt = .mem → s.owner? r.line = some r.core → ∀ y, (s.core r.core).l1? r.line = some y → y.val.badLanes w ls = 0#32 →
            let x := atomicLanes n w g f (r.line * 128) y.val.bytes ls
            Yields (.atomicStep i) s (fun s' => gone s' ∧ still s' ∧ others s' ∧ delivers s' x.2
              ∧ (s'.core r.core).l1? r.line = some { y with val := { y.val with bytes := x.1 } }
              ∧ s'.home.l2 = (s.usedUp r.line).home.l2))
        ∧ (r.tgt = .mem → s.owner? r.line = none → r.st ≠ .fresh ∨ s.ripe r.line = true → ∀ s1, s.settled r = (s1, true) →
            (s1.homeVal r.line).badLanes w ls = 0#32 → s1.slats = s.slats →
            let x := atomicLanes n w g f (r.line * 128) (s1.homeVal r.line).bytes ls
            Yields (.atomicStep i) s (fun s' => gone s' ∧ s'.mem = s.mem ∧ others s' ∧ delivers s' x.2
              ∧ l2 s' { s1.homeVal r.line with bytes := x.1 })))
    ∧ (∀ k a, r.msg = .clamp k a → (∀ q ph, k ≠ .wait ph ∧ k ≠ .test q ph) →
        (r.tgt = .mem → s.owner? r.line = none → r.st ≠ .fresh ∨ s.ripe r.line = true → ∀ s1, s.settled r = (s1, true) →
          Yields (.atomicStep i) s (fun s' => gone s' ∧ s' = ((s1.clampDo (.mem a) k r.fn r.uid r.seq).doneLanes r.uid r.seq [0]).served r))
        ∧ (∀ c x, r.tgt = .spad c → s.spadPlace c a = some x →
          Yields (.atomicStep i) s (fun s' => gone s'
            ∧ s' = ((s.clampDo (.spad x.1 x.2.1 x.2.2) k r.fn r.uid r.seq).doneLanes r.uid r.seq [0]).served r)))
    ∧ (∀ n w g f ls, r.msg = .own n w g f ls → r.tgt = .mem →
        (s.owner? r.line = none → r.st ≠ .fresh ∨ s.ripe r.line = true → (s.core r.core).l1Room r.line = true →
            ∀ s1, s.settled r = (s1, true) → ls = [] → Yields (.ownedLineGrant i) s (fun s' => s' = s1.served r))
        ∧ (s.owner? r.line = none → r.st ≠ .fresh ∨ s.ripe r.line = true → (s.core r.core).l1Room r.line = true →
            ∀ s1, s.settled r = (s1, true) → s1.owner? r.line = none → (s1.core r.core).l1Room r.line = true → ls ≠ [] →
          Yields (.ownedLineGrant i) s (fun s' => s'.owner? r.line = some r.core ∧ s'.mem = s.mem ∧ s'.slats = s1.slats
            ∧ (s'.core r.core).l1? r.line = some ⟨r.line, true, s1.homeVal r.line, 0⟩
            ∧ s'.req? i = some { r with st := .fresh })))
    ∧ (∀ rd, r.msg = .hub rd → r.tgt = .mem → r.st ≠ .drains [] → s.owner? r.line = none →
        r.st ≠ .fresh ∨ (if rd then s.present r.line else s.ripe r.line) = true → ∀ s1, s.settled r = (s1, true) →
          Yields (.homeWrite i) s (fun s' => s' = s1.setReq { r with st := .drains [] }))
    ∧ (∀ flush, r.msg = .clear flush → r.tgt = .mem → s.owner? r.line = none → r.st ≠ .fresh ∨ s.clearable flush r.line = true →
        ∀ s1, s.settled r = (s1, true) → Yields (.homeWrite i) s (fun s' => gone s' ∧ s'.l2? r.line = none ∧ s'.mem = s.mem
          ∧ (∀ k c x, (k, c) ∈ s'.cores → x ∈ c.l1 → x.line = r.line → x.owned = true)
          ∧ (∀ x, s1.l2? r.line = some x → flush = true → x.dirty = true → paRegion (r.line * 128) = .host →
              s'.host.queue = s1.host.queue ++ [(0, r.seq, (List.range 128).map (fun i => (r.line * 128 + i, x.val.get i)))])
          ∧ (flush = false → s'.host = s1.host))))
  ∧ (∀ (s : State) (core line : Nat), s.owner? line = some core →
      let back := fun (ev : Instr) => Yields ev s (fun s' => s'.owner? line = none ∧ (s'.core core).l1? line = none
        ∧ (∀ x, (s.core core).l1? line = some x → ∃ y, s'.l2? line = some y ∧ y.val = x.val
            ∧ (paRegion (line * 128) ≠ .host → y.dirty = true))
        ∧ s'.mem = s.mem ∧ s'.slats = s.slats ∧ s'.hub = s.hub)
      back (.ownedCopyEviction core line) ∧ (s.wanted core line = true → back (.ownedCopyRecall core line)))
  ∧ (∀ (s : State) (core line : Nat) (x : L1Line), (s.core core).l1? line = some x → x.owned = false →
        Yields (.l1Drop core line) s (fun s' => (s'.core core).l1? line = none ∧ (∀ l, l ≠ line → (s'.core core).l1? l = (s.core core).l1? l)
          ∧ (∀ c, c ≠ core → s'.core c = s.core c) ∧ s' = { s with cores := s'.cores }))

/-- BOUNDED REGIONS (R210 to R215, R219, R222): a grant request adds at the home and is answered with a share of what the region's limit is
split into, or with none; a reply sets up a record, for which the core's L1 makes room; drains, give-ups and replies add what they carry and are acknowledged, taken out of
the sharers, or counted towards what waits; a force-drain empties or deletes the record; a tolerant read is answered once the sharers
its tolerance does not cover are drained.
Where the manual leaves it open this is the model's choice, log 29, 35, 69 and 93. -/
def Obligations.BoundedEvents : Prop :=
  ∀ (s : State),
    let added := fun (s1 s' : State) (line : Nat) (bf : Bool) (adds : List Add) =>
      (paRegion (line * 128) ≠ .host → (s'.l2? line).isSome)
      ∧ (∀ x, s'.l2? line = some x → x.val = adds.foldl (fun v a => addElem bf v a) (s1.homeVal line))
    (∀ r, s.req? r.id = some r →
      let gone := fun (s' : State) => ∀ x, x ∈ s'.home.reqs → x.id ≠ r.id
      (s.owner? r.line = none → r.st ≠ .fresh ∨ s.ripe r.line = true → s.turn r = true → ∀ s1, s.settled r = (s1, true) →
        (∀ bf region adds, r.msg = .grant bf region adds → Yields (.grantRequest r.id) s (fun s' => gone s' ∧ s'.mem = s.mem
          ∧ added s1 s' r.line bf adds
          ∧ ∃ n sh, s'.home.net = s1.home.net ++ [n] ∧ n.core = r.core ∧ n.msg = .reply r.line ((s'.budget? r.line).elim bf Budget.bf) sh r.ctx region
            ∧ (∀ b, s1.budget? r.line = some b → sh = some b.share ∧ ∃ b', s'.budget? r.line = some b' ∧ b'.share = b.share
                ∧ ∃ q, (r.core, q) ∈ b'.sharers)
            ∧ (s1.budget? r.line = none → ∀ x, sh = some x → ∃ g b', g ∈ s1.home.regions ∧ g.ctx = r.ctx ∧ g.num = region
                ∧ x = shareOf g.limit g.split ∧ s'.budget? r.line = some b' ∧ b'.share = x ∧ b'.n = g.split ∧ b'.bf = g.bf
                ∧ b'.sharers = [(r.core, 0)])))
        ∧ (∀ bf adds, r.msg = .homeAdd bf adds → Yields (.homeAdd r.id) s (fun s' => gone s' ∧ s'.mem = s.mem ∧ added s1 s' r.line bf adds
            ∧ s'.budget? r.line = s1.budget? r.line)))
      ∧ (s.settleReady r = true →
          let s1 := (s.materialise r.line 0 r.id).settleSource r.line
          (∀ bf d, r.msg = .drain bf d → Yields (.drain r.id) s (fun s' => gone s' ∧ s'.mem = s.mem ∧ added s1 s' r.line bf d
            ∧ s'.budget? r.line = s.budget? r.line ∧ ∃ n, n ∈ s'.home.net ∧ n.core = r.core ∧ n.msg = .ack r.line))
          ∧ (∀ bf d, r.msg = .giveUp bf d → Yields (.giveUp r.id) s (fun s' => gone s' ∧ s'.mem = s.mem ∧ added s1 s' r.line bf d
            ∧ (∀ b q, s'.budget? r.line = some b → (r.core, q) ∉ b.sharers)
            ∧ (∀ w cs, w ∈ s'.home.reqs → w.tgt = .mem → w.line = r.line → w.st = .drains cs → r.core ∉ cs)))
          ∧ (∀ bf d g dest, r.msg = .reply bf d g dest → Yields (.forceDrainReply r.id) s (fun s' => s'.mem = s.mem ∧ added s1 s' r.line bf d
            ∧ (dest ≠ r.id → gone s')
            ∧ (∀ w cs, dest ≠ r.id → s.req? dest = some w → w.st = .drains cs → r.core ∈ cs →
                s'.req? dest = some { w with st := .drains (cs.filter (fun c => c != r.core)) }
                ∧ (g = true → ∀ b q, s'.budget? r.line = some b → (r.core, q) ∉ b.sharers))
            ∧ (∀ w cs, s'.req? dest = some w → w.st = .drains cs → r.core ∉ cs))))
      ∧ (∀ w ls tol v, r.msg = .read w ls tol → r.mail = false → s.turn r = true → s.drainHeld r = false → tol ≠ none ∨ s.budget? r.line ≠ none →
          s.atHand r.line = some v →
          (r.st = .drains [] ∨ s.budget? r.line = none ∨ (∃ b, r.st = .fresh ∧ s.budget? r.line = some b ∧ b.toDrain r.core (tol.getD 0#32) = []) →
            (∀ c cs, r.st ≠ .drains (c :: cs)) →
            Yields (.tolerantRead r.id) s (fun s' => gone s' ∧ s' = (s.answerTol r tol.isSome w ls v).served r ∧ s'.mem = s.mem ∧ s'.cores = s.cores))
          ∧ (∀ b cs, r.st = .fresh → s.budget? r.line = some b → b.toDrain r.core (tol.getD 0#32) = cs → cs ≠ [] →
              Yields (.tolerantRead r.id) s (fun s' => s'.req? r.id = some { r with st := .drains cs }
                ∧ (∀ c, c ∈ cs → ∃ n, n ∈ s'.home.net ∧ n.core = c ∧ n.msg = .force r.line false r.id) ∧ s'.slats = s.slats))))
    ∧ (∀ n core line bf sh ctx region ent, s.net? n = some ⟨n, core, .reply line bf (some sh) ctx region, ent⟩ →
        (s.core core).rec? line = none → ent.elim true (fun e => e.2.2) = true →
        let taken := fun (s' : State) => (∀ x, x ∈ s'.home.net ↔ x ∈ s.home.net ∧ x.id ≠ n) ∧ s'.mem = s.mem
          ∧ s'.slats = (ent.elim s (fun e => s.doneSent e.1 e.2.1)).slats
        let lines := if bf then 2 else 1
        let c := (s.core core).dropL1 line
        (ctx ≠ noCtx → c.recs.length < 384 → c.l1.length + c.recLines (fun _ => true) + lines ≤ Config.l1Lines →
          (c.l1.filter (fun y => sameL1Set y.line line)).length + c.recLines (sameL1Set line) + lines ≤ Config.l1Ways →
          Yields (.grantReply n) s (fun s' => taken s' ∧ (s'.core core).rec? line = some ⟨line, bf, [], 0#32, sh, false, s.next, ctx, region⟩
            ∧ (s'.core core).l1 = c.l1 ∧ (∀ l, l ≠ line → (s'.core core).rec? l = (s.core core).rec? l)))
        ∧ (ctx ≠ noCtx → ∀ s2, ((s.modCore core (fun c => c.dropL1 line)).roomRec core).roomL1 core line lines (2 * Config.l1Lines) = some s2 →
          Yields (.grantReply n) s (fun s' => taken s' ∧ (s'.core core).rec? line = some ⟨line, bf, [], 0#32, sh, false, s2.next, ctx, region⟩
            ∧ (s'.core core).l1? line = none ∧ (s'.core core).l1.length + (s'.core core).recLines (fun _ => true) ≤ Config.l1Lines))
        ∧ (ctx = noCtx → Yields (.grantReply n) s (fun s' => taken s' ∧ (s'.core core).rec? line = none
            ∧ ∃ h, (s'.core core).hw = (s.core core).hw ++ [h] ∧ h.req.line = line
              ∧ h.req.msg = .giveUp bf (⟨line, bf, [], 0#32, sh, false, 0, noCtx, region⟩ : DeltaRec).carried)))
    ∧ (∀ n core line bf sh ctx region uid seq, s.net? n = some ⟨n, core, .reply line bf sh ctx region, some (uid, seq, false)⟩ →
        Yields (.grantReply n) s (fun s' => s'.cores = (s.doneSent uid seq).cores ∧ s'.slats = (s.doneSent uid seq).slats
          ∧ (∀ x, x ∈ s'.home.net ↔ x ∈ s.home.net ∧ x.id ≠ n)))
    ∧ (∀ n core line g req ent, s.net? n = some ⟨n, core, .force line g req, ent⟩ →
        Yields (.forceDrain n) s (fun s' => s'.mem = s.mem ∧ s'.slats = s.slats ∧ (∀ x, x ∈ s'.home.net ↔ x ∈ s.home.net ∧ x.id ≠ n)
          ∧ (∀ d, (s.core core).rec? line = some d → (s'.core core).rec? line = (if g then none else some { d with delta := [], gauge := 0#32 })
              ∧ ∃ h, (s'.core core).hw = (s.core core).hw ++ [h] ∧ h.req.msg = .reply d.bf d.carried g req ∧ h.req.line = line)
          ∧ ((s.core core).rec? line = none → (s'.core core).rec? line = none
              ∧ ∃ h, (s'.core core).hw = (s.core core).hw ++ [h] ∧ h.req.msg = .reply false [] g req ∧ h.req.line = line)))
    ∧ (∀ n core line d, s.home.net.find? (fun n => n.core == core && n.msg == .ack line) = some n → s.net? n.id = some n →
        (s.core core).rec? line = some d →
        Yields (.drainAck core line) s (fun s' => (s'.core core).rec? line = some { d with draining := false } ∧ n ∉ s'.home.net
          ∧ (∀ t, t ∈ s'.slats → t.core = core → ∃ u, u ∈ s.slats ∧ t = u.drained line) ∧ s'.mem = s.mem))
    ∧ (∀ core line d, (s.core core).rec? line = some d → d.draining = false →
        Yields (.spontaneousDrain core line) s (fun s' =>
          (s'.core core).rec? line = some { d with delta := [], gauge := 0#32, draining := true }
          ∧ (∃ h, (s'.core core).hw = (s.core core).hw ++ [h] ∧ h.since = s.now ∧ h.req.msg = .drain d.bf d.carried ∧ h.req.line = line)
          ∧ s' = { s with next := s.next + 1, cores := s'.cores }))

/-- COPIES AND VENEERS (R200, R230 to R233, R247 to R251, R254, R258, R397): a source step takes the line's snapshot; a destination step, all
sources taken, joins the line to its entry or performs it; a fill gathers its sources and resolves the line; a materialised line is
real, dirty and in no entry; a transfer's bytes are counted at its clamp, or its error marked.
Where the manual leaves it open this is the model's choice, log 28, 36, 38, 70 and 72. -/
def Obligations.CopyEvents : Prop :=
  ∀ (s : State) (line : Nat),
    (∀ c x, (s.unvia c.id).copy? c.id = some c → line ∈ c.srcTodo → s.owed c.core c.id = false → s.owner? line = none →
        s.readable line = true → (s.unvia c.id).copyReq? c.id line = none → s.budget? line = none → s.atHand line = some x →
        s.dstOf line = none ∨ (∀ v, v ∈ s.home.veneers → v.copy = c.id → line ∉ v.unread) →
        Yields (.copySourceStep c.id line) s (fun s' => s'.mem = s.mem ∧ s'.home.l2 = (s.usedUp line).home.l2
          ∧ (∀ k, s'.copy? c.id = some k → sget LineVal.zero k.snaps line = x ∧ (∀ l, l ∈ k.srcTodo ↔ l ∈ c.srcTodo ∧ l ≠ line)
              ∧ k.dstTodo = c.dstTodo)
          ∧ (∀ v, v ∈ s'.home.veneers → v.copy = c.id → line ∉ v.unread)
          ∧ (c.dstTodo ≠ [] ∨ c.banks ≠ [] → (s'.copy? c.id).isSome)))
    ∧ (∀ c, s.copy? c.id = some c → c.out = true → c.srcTodo = [] → s.owed c.core c.id = false →
        let left := fun (s' : State) => ∀ k, s'.copy? c.id = some k → ∀ l, l ∈ k.dstTodo ↔ l ∈ c.dstTodo ∧ l ≠ line
        let plain := s.dependents line = [] ∧ s.depsLeft line true = false ∧ s.budget? line = none ∧ s.dstOf line = none
        (c.banks = [] → line ∈ c.dstTodo → s.owner? line = none → s.waiting line = false → s.copyReq? c.id line = none →
          (s.stepDeps c line).all s.near = true →
          (c.ops.op = 5 →
            Yields (.copyDestinationStep c.id line) s (fun s' => left s' ∧ s'.mem = s.mem
              ∧ (∀ v, s.dstOf line = some v → (s.materialise line c.uid c.seq).dstOf line = none →
                  (paRegion (line * 128) ≠ .host → ∃ x, s'.l2? line = some x ∧ x.val = s.resolved v line ∧ x.dirty = true)
                  ∧ (∀ x, s'.l2? line = some x → x.val = s.resolved v line))))
          ∧ (c.ops.op = 6 → s.budget? line = none → Yields (.copyDestinationStep c.id line) s (fun s' => left s' ∧ s'.mem = s.mem
            ∧ s'.dstOf line = (s.dropLine line).dstOf line ∧ (∀ k l, (s'.core k).l1? line = some l → l.owned = true)))
          ∧ (c.ops.op ≤ 2 → plain → s.joining c line = none →
            Yields (.copyDestinationStep c.id line) s (fun s' => left s' ∧ s'.mem = s.mem
              ∧ (∃ x, s'.l2? line = some x ∧ x.val = (s.homeVal line).putMarked (c.lineBytes line).1 (c.lineBytes line).2
                  ∧ (paRegion (line * 128) ≠ .host → x.dirty = true))
              ∧ (∀ k l, (s'.core k).l1? line = some l → l.owned = true)))
          ∧ (∀ v, c.ops.op ≤ 2 → plain → s.joining c line = some v →
              line ∉ c.perform → (∀ b, b ∈ (c.lineBytes line).1 → (s.resolved v line).get b.1 = b.2) →
              Yields (.copyDestinationStep c.id line) s (fun s' => left s' ∧ s'.mem = s.mem ∧ s'.home.l2 = s.home.l2
                ∧ ∃ w, s'.dstOf line = some w ∧ w.covers line = true)))
        ∧ (∀ b core a, c.banks.find? (fun b => b.2.1 == line) = some b → s.spadByte b.1 b.2.1 b.2.2 = some (core, a) →
            Memory.wf (s.core core).spad = true →
            Yields (.copyDestinationStep c.id line) s (fun s' =>
              (∀ i, i < c.ops.n.toNat → Memory.read (s'.core core).spad (a + i) = c.byte i)
              ∧ (∀ i, i < a ∨ a + c.ops.n.toNat ≤ i → Memory.read (s'.core core).spad i = Memory.read (s.core core).spad i)
              ∧ (∀ o, c.coff = some o → ∃ k, s'.home.counts = s.home.counts ++ [k] ∧ k.loc = .spad b.1 b.2.1 o ∧ k.n = c.ops.n.toNat
                  ∧ k.err = false ∧ k.copy = c.id) ∧ s'.mem = s.mem)))
    ∧ (∀ src v x, s.dstOf line = some v → s.fillWanted line = true → src ∈ v.deps line → s.readable src = true → s.owner? src = none →
        s.held src = some x → Yields (.resolutionRead line src) s (fun s' => (∃ f, s'.home.filling.find? (fun f => f.line == line) = some f
            ∧ sget LineVal.zero f.got src = x) ∧ s' = { s with home := { s.home with filling := s'.home.filling } }))
    ∧ (∀ v f, s.dstOf line = some v → s.home.filling.find? (fun f => f.line == line) = some f →
        (∀ d, d ∈ v.deps line → ∃ g, g ∈ f.got ∧ g.1 = d) →
        let src := fun (a : Nat) => sget LineVal.zero f.got (a / 128)
        Yields (.veneerFill line) s (fun s' => s'.atHand line = (if (s.owner? line).isSome then none
              else some (v.resolve line (fun a => (src a).get (a % 128)) (fun a => (src a).marked (a % 128) 1)))
          ∧ (∀ w, w ∈ s'.home.veneers → w.idx = v.idx → w.heat = min (v.heat + 1) (2 ^ 32 - 1) ∧
              ((s.fn v.fn).thr ≠ 0 → (s.fn v.fn).thr ≤ min (v.heat + 1) (2 ^ 32 - 1) → w.promoting = true))
          ∧ s'.mem = s.mem ∧ s'.slats = s.slats
          ∧ (∀ x, x ∈ s'.home.l2 → ∃ y, y ∈ s.home.l2 ∧ y.line = x.line ∧ y.val = x.val ∧ y.dirty = x.dirty)))
    ∧ (let real := fun (ev : Instr) (m : Nat) => ∀ v, s.dstOf m = some v → s.ripe m = true → Yields ev s (fun s' =>
          (paRegion (m * 128) ≠ .host → ∃ x, s'.l2? m = some x ∧ x.val = s.resolved v m ∧ x.dirty = true)
          ∧ (∀ x, s'.l2? m = some x → x.val = s.resolved v m) ∧ s'.mem = s.mem ∧ s'.slats = s.slats
          ∧ (∀ w, w ∈ s'.home.veneers → w.idx = v.idx → w.covers m = false))
       (s.waiting line = false → (∃ r, r ∈ s.home.reqs ∧ r.tgt = .mem ∧ r.st = .mat ∧ line ∈ s.joinedDependents r.line) →
          real (.materialiseRequest line) line)
       ∧ (∀ e v m, s.home.veneers.find? (fun v => v.idx == e && v.promoting) = some v → v.lines.find? (fun m => v.isDst m) = some m →
          s.waiting m = false → real (.hotMaterialise e) m))
    ∧ (∀ r, s.req? r.id = some r → r.st = .mat → s.depsLeft r.line r.isCopy = false →
        (s.budget? r.line = none → Yields (.materialiseComplete r.id) s (fun s' => s' = (s.markDeps r.line).access r))
        ∧ (∀ b, s.budget? r.line = some b → (∀ bf a, r.msg ≠ .homeAdd bf a) → (∀ bf g a, r.msg ≠ .grant bf g a) →
            Yields (.materialiseComplete r.id) s (fun s' => s'.req? r.id = some { r with st := .drains (b.bySeq.map Prod.fst) })))
    ∧ (∀ k, s.home.counts.find? (fun x => x.id == k.id) = some k →
        (k.err = false → s.hubOk false k.loc.lines = true → Yields (.clampByteCount k.id) s (fun s' => (∀ x, x ∈ s'.home.counts → x.id ≠ k.id)
          ∧ (∀ y, s'.copy? k.copy = some y → ∃ z, s.copy? k.copy = some z ∧ y.pend = z.pend - 1)
          ∧ s'.home.l2 = ((s.clampDo k.loc (.count k.n) k.fn 0 0).hubFree false k.loc.lines).home.l2 ∧ s'.cores = (s.clampDo k.loc (.count k.n) k.fn 0 0).cores))
        ∧ (k.err = true → s.hubOk false k.loc.lines = true → Yields (.clampErrMark k.id) s (fun s' => s' = ((s.clampDo k.loc .mark k.fn 0 0).modHome (fun h => { h with
            counts := h.counts.filter (fun x => x.id != k.id) })).hubFree false k.loc.lines))
        ∧ (∀ c, (c : Clamp).step (.count k.n) = (if c.abytes + k.n ≤ 2 ^ 32 - 1 then { c with abytes := c.abytes + k.n }
              else { c with abytes := 2 ^ 32 - 1, ovr := true } : Clamp).settle ∧ c.step .mark = ({ c with err := true } : Clamp).settle))
end

