-- ==== Sys2Proof/Laws/Sparse.lean ====
section
/-! SUPPORT. Finite maps and memories: a read after a write, and that writing keeps the canonical form. -/

namespace Sys2Proof

@[simp] theorem sget_sput_same {β : Type} (d : β) (m : List (Nat × β)) (i : Nat) (x : β) : sget d (sput m i x) i = x := by
  induction m with
  | nil => simp [sput, sget]
  | cons c t ih =>
    obtain ⟨k, v⟩ := c
    simp only [sput]
    split
    · simp [sget]
    · split
      · simp [sget]
      · have : k ≠ i := by omega
        simp [sget, this, ih]

theorem sget_sput_other {β : Type} (d : β) (m : List (Nat × β)) (i j : Nat) (x : β) (h : j ≠ i) :
    sget d (sput m i x) j = sget d m j := by
  have h' : ¬ i = j := fun e => h e.symm
  induction m with
  | nil => simp [sput, sget, h']
  | cons c t ih =>
    obtain ⟨k, v⟩ := c
    simp only [sput]
    split
    · simp [sget, h']
    · split
      · next e => subst e; simp [sget, h']
      · simp [sget, ih]

theorem wfFrom_mono {β : Type} [DecidableEq β] {d : β} {m : List (Nat × β)} {a b : Nat} (h : a ≤ b) (w : wfFrom d b m = true) :
    wfFrom d a m = true := by
  cases m with
  | nil => rfl
  | cons c t =>
    obtain ⟨k, v⟩ := c
    simp only [wfFrom, Bool.and_eq_true, decide_eq_true_eq] at w ⊢
    exact ⟨⟨by omega, w.1.2⟩, w.2⟩

theorem wfFrom_cput {β : Type} [DecidableEq β] {d : β} (m : List (Nat × β)) (i : Nat) (x : β) :
    ∀ lo, lo ≤ i → wfFrom d lo m = true → wfFrom d lo (cput d m i x) = true := by
  induction m with
  | nil =>
    intro lo h _
    by_cases hx : x = d <;> simp [cput, wfFrom, hx, h]
  | cons c t ih =>
    obtain ⟨k, v⟩ := c
    intro lo h w
    simp only [wfFrom, Bool.and_eq_true, decide_eq_true_eq] at w
    obtain ⟨⟨hk, hv⟩, ht⟩ := w
    simp only [cput]
    split
    · split
      · simp [wfFrom, hk, hv, ht]
      · simp only [wfFrom, Bool.and_eq_true, decide_eq_true_eq]
        exact ⟨⟨h, by assumption⟩, ⟨by omega, hv⟩, ht⟩
    · split
      · next e =>
        subst e
        split
        · exact wfFrom_mono (by omega) ht
        · simp only [wfFrom, Bool.and_eq_true, decide_eq_true_eq]
          exact ⟨⟨h, by assumption⟩, ht⟩
      · simp only [wfFrom, Bool.and_eq_true, decide_eq_true_eq]
        exact ⟨⟨hk, hv⟩, ih (k + 1) (by omega) ht⟩

theorem sget_below {β : Type} [DecidableEq β] {d : β} {m : List (Nat × β)} :
    ∀ {lo i : Nat}, i < lo → wfFrom d lo m = true → sget d m i = d := by
  induction m with
  | nil => intros; rfl
  | cons c t ih =>
    obtain ⟨k, v⟩ := c
    intro lo i h w
    simp only [wfFrom, Bool.and_eq_true, decide_eq_true_eq] at w
    have : k ≠ i := by omega
    simp only [sget, this, if_false]
    exact ih (by omega) w.2

theorem sget_cput {β : Type} [DecidableEq β] {d : β} (m : List (Nat × β)) (i j : Nat) (x : β) :
    ∀ lo, wfFrom d lo m = true → sget d (cput d m i x) j = if j = i then x else sget d m j := by
  induction m with
  | nil =>
    intro lo _
    by_cases hx : x = d
    · simp [cput, sget, hx]
    · by_cases hj : j = i
      · simp [cput, sget, hx, hj]
      · have hj' : ¬ i = j := fun e => hj e.symm
        simp [cput, sget, hx, hj, hj']
  | cons c t ih =>
    obtain ⟨k, v⟩ := c
    intro lo w
    have w0 := w
    simp only [wfFrom, Bool.and_eq_true, decide_eq_true_eq] at w
    obtain ⟨⟨hk, hv⟩, ht⟩ := w
    simp only [cput]
    by_cases hj : j = i
    · subst hj
      simp only [if_true]
      split
      · split
        · next e => subst e; exact sget_below (lo := k) (by omega) (by simp [wfFrom, hv, ht])
        · simp [sget]
      · split
        · next e =>
          subst e
          split
          · next e => subst e; exact sget_below (lo := j + 1) (by omega) ht
          · simp [sget]
        · have : k ≠ j := by omega
          simp only [sget, this, if_false]
          rw [ih (k + 1) ht]; simp
    · have hj' : i ≠ j := fun e => hj e.symm
      simp only [hj, if_false]
      split
      · split
        · rfl
        · simp [sget, hj']
      · split
        · next e =>
          subst e
          split <;> simp [sget, hj']
        · by_cases hkj : k = j
          · simp [sget, hkj]
          · simp only [sget, hkj, if_false]
            rw [ih (k + 1) ht]; simp [hj]

/-- A write keeps the canonical form. -/
theorem Memory.wf_write {m : List (Nat × BitVec 8)} (a : Nat) (b : BitVec 8) (h : Memory.wf m = true) :
    Memory.wf (Memory.write m a b) = true := wfFrom_cput m a b 0 (Nat.zero_le a) h

/-- What a byte reads as after a write. -/
theorem Memory.read_write {m : List (Nat × BitVec 8)} (a x : Nat) (b : BitVec 8) (h : Memory.wf m = true) :
    Memory.read (Memory.write m a b) x = if x = a then b else Memory.read m x := sget_cput m a x b 0 h

theorem Memory.wf_writeAll (bs : List (BitVec 8)) : ∀ {m : List (Nat × BitVec 8)} (a : Nat), Memory.wf m = true →
    Memory.wf (Memory.writeAll m a bs) = true := by
  induction bs with
  | nil => intro m a h; exact h
  | cons b t ih => intro m a h; exact ih (a + 1) (Memory.wf_write a b h)

theorem Memory.wf_writeEach (bs : List (Nat × BitVec 8)) : ∀ {m : List (Nat × BitVec 8)}, Memory.wf m = true →
    Memory.wf (Memory.writeEach m bs) = true := by
  induction bs with
  | nil => intro m h; exact h
  | cons b t ih => intro m h; exact ih (Memory.wf_write b.1 b.2 h)

/-- Bytes written elsewhere leave a byte alone. -/
theorem Memory.read_writeEach_other (x : Nat) (bs : List (Nat × BitVec 8)) : ∀ {m : List (Nat × BitVec 8)}, Memory.wf m = true →
    (∀ b, b ∈ bs → b.1 ≠ x) → Memory.read (Memory.writeEach m bs) x = Memory.read m x := by
  induction bs with
  | nil => intros; rfl
  | cons b t ih =>
    intro m h k
    have hb : ¬ x = b.1 := fun e => k b (by simp) e.symm
    calc Memory.read (Memory.writeEach (Memory.write m b.1 b.2) t) x
        = Memory.read (Memory.write m b.1 b.2) x := ih (Memory.wf_write _ _ h) (fun c hc => k c (by simp [hc]))
      _ = Memory.read m x := by rw [Memory.read_write _ _ _ h]; simp [hb]

/-- A part of a memory taken out by any test keeps the canonical form. -/
theorem wfFrom_filter {β : Type} [DecidableEq β] {d : β} (p : Nat × β → Bool) (m : List (Nat × β)) :
    ∀ lo, wfFrom d lo m = true → wfFrom d lo (m.filter p) = true := by
  induction m with
  | nil => intros; rfl
  | cons c t ih =>
    obtain ⟨k, v⟩ := c
    intro lo w
    simp only [wfFrom, Bool.and_eq_true, decide_eq_true_eq] at w
    obtain ⟨⟨hk, hv⟩, ht⟩ := w
    by_cases hp : p (k, v)
    · simp only [List.filter_cons, hp, if_true, wfFrom, Bool.and_eq_true, decide_eq_true_eq]
      exact ⟨⟨hk, hv⟩, ih (k + 1) ht⟩
    · simp only [List.filter_cons, hp]
      exact wfFrom_mono (by omega) (ih (k + 1) ht)

theorem Memory.wf_filter {m : List (Nat × BitVec 8)} (p : Nat × BitVec 8 → Bool) (h : Memory.wf m = true) :
    Memory.wf (m.filter p) = true := wfFrom_filter p m 0 h

end Sys2Proof
end

