-- ==== Sys2Proof/Laws/State.lean ====
section
/-! SUPPORT. Each update of the state and of a slat, field by field; what reading what was put gives. -/

namespace Sys2Proof.Machine

@[simp] theorem State.setSlat_now (s : State) (t : Slat) : (s.setSlat t).now = s.now := rfl
@[simp] theorem State.setSlat_agenda (s : State) (t : Slat) : (s.setSlat t).agenda = s.agenda := rfl
@[simp] theorem State.setSlat_focus (s : State) (t : Slat) : (s.setSlat t).focus = s.focus := rfl
@[simp] theorem State.setSlat_snap (s : State) (t : Slat) : (s.setSlat t).snap = s.snap := rfl
@[simp] theorem State.setSlat_free (s : State) (t : Slat) : (s.setSlat t).free = s.free := rfl
@[simp] theorem State.setSlat_next (s : State) (t : Slat) : (s.setSlat t).next = s.next := rfl
@[simp] theorem State.setSlat_slats (s : State) (t : Slat) : (s.setSlat t).slats = replaceBy Slat.uid t s.slats := rfl
@[simp] theorem State.setSlat_cores (s : State) (t : Slat) : (s.setSlat t).cores = s.cores := rfl
@[simp] theorem State.setSlat_teams (s : State) (t : Slat) : (s.setSlat t).teams = s.teams := rfl
@[simp] theorem State.setSlat_dieTlb (s : State) (t : Slat) : (s.setSlat t).dieTlb = s.dieTlb := rfl
@[simp] theorem State.setSlat_mem (s : State) (t : Slat) : (s.setSlat t).mem = s.mem := rfl
@[simp] theorem State.setSlat_marks (s : State) (t : Slat) : (s.setSlat t).marks = s.marks := rfl
@[simp] theorem State.setSlat_home (s : State) (t : Slat) : (s.setSlat t).home = s.home := rfl
@[simp] theorem State.setSlat_links (s : State) (t : Slat) : (s.setSlat t).links = s.links := rfl
@[simp] theorem State.setSlat_stc (s : State) (t : Slat) : (s.setSlat t).stc = s.stc := rfl
@[simp] theorem State.setSlat_hub (s : State) (t : Slat) : (s.setSlat t).hub = s.hub := rfl
@[simp] theorem State.setSlat_fab (s : State) (t : Slat) : (s.setSlat t).fab = s.fab := rfl
@[simp] theorem State.setSlat_trust (s : State) (t : Slat) : (s.setSlat t).trust = s.trust := rfl
@[simp] theorem State.setSlat_boot (s : State) (t : Slat) : (s.setSlat t).boot = s.boot := rfl
@[simp] theorem State.setSlat_host (s : State) (t : Slat) : (s.setSlat t).host = s.host := rfl
@[simp] theorem State.setSlat_past (s : State) (t : Slat) : (s.setSlat t).past = s.past := rfl
@[simp] theorem State.setSlat_answers (s : State) (t : Slat) : (s.setSlat t).answers = s.answers := rfl

@[simp] theorem State.setTeam_now (s : State) (t : Team) : (s.setTeam t).now = s.now := rfl
@[simp] theorem State.setTeam_agenda (s : State) (t : Team) : (s.setTeam t).agenda = s.agenda := rfl
@[simp] theorem State.setTeam_focus (s : State) (t : Team) : (s.setTeam t).focus = s.focus := rfl
@[simp] theorem State.setTeam_snap (s : State) (t : Team) : (s.setTeam t).snap = s.snap := rfl
@[simp] theorem State.setTeam_free (s : State) (t : Team) : (s.setTeam t).free = s.free := rfl
@[simp] theorem State.setTeam_next (s : State) (t : Team) : (s.setTeam t).next = s.next := rfl
@[simp] theorem State.setTeam_slats (s : State) (t : Team) : (s.setTeam t).slats = s.slats := rfl
@[simp] theorem State.setTeam_cores (s : State) (t : Team) : (s.setTeam t).cores = s.cores := rfl
@[simp] theorem State.setTeam_teams (s : State) (t : Team) : (s.setTeam t).teams = replaceBy Team.uid t s.teams := rfl
@[simp] theorem State.setTeam_dieTlb (s : State) (t : Team) : (s.setTeam t).dieTlb = s.dieTlb := rfl
@[simp] theorem State.setTeam_mem (s : State) (t : Team) : (s.setTeam t).mem = s.mem := rfl
@[simp] theorem State.setTeam_marks (s : State) (t : Team) : (s.setTeam t).marks = s.marks := rfl
@[simp] theorem State.setTeam_home (s : State) (t : Team) : (s.setTeam t).home = s.home := rfl
@[simp] theorem State.setTeam_links (s : State) (t : Team) : (s.setTeam t).links = s.links := rfl
@[simp] theorem State.setTeam_stc (s : State) (t : Team) : (s.setTeam t).stc = s.stc := rfl
@[simp] theorem State.setTeam_hub (s : State) (t : Team) : (s.setTeam t).hub = s.hub := rfl
@[simp] theorem State.setTeam_fab (s : State) (t : Team) : (s.setTeam t).fab = s.fab := rfl
@[simp] theorem State.setTeam_trust (s : State) (t : Team) : (s.setTeam t).trust = s.trust := rfl
@[simp] theorem State.setTeam_boot (s : State) (t : Team) : (s.setTeam t).boot = s.boot := rfl
@[simp] theorem State.setTeam_host (s : State) (t : Team) : (s.setTeam t).host = s.host := rfl
@[simp] theorem State.setTeam_past (s : State) (t : Team) : (s.setTeam t).past = s.past := rfl
@[simp] theorem State.setTeam_answers (s : State) (t : Team) : (s.setTeam t).answers = s.answers := rfl

@[simp] theorem State.setCore_now (s : State) (c : Nat) (x : Core) : (s.setCore c x).now = s.now := rfl
@[simp] theorem State.setCore_agenda (s : State) (c : Nat) (x : Core) : (s.setCore c x).agenda = s.agenda := rfl
@[simp] theorem State.setCore_focus (s : State) (c : Nat) (x : Core) : (s.setCore c x).focus = s.focus := rfl
@[simp] theorem State.setCore_snap (s : State) (c : Nat) (x : Core) : (s.setCore c x).snap = s.snap := rfl
@[simp] theorem State.setCore_free (s : State) (c : Nat) (x : Core) : (s.setCore c x).free = s.free := rfl
@[simp] theorem State.setCore_next (s : State) (c : Nat) (x : Core) : (s.setCore c x).next = s.next := rfl
@[simp] theorem State.setCore_slats (s : State) (c : Nat) (x : Core) : (s.setCore c x).slats = s.slats := rfl
@[simp] theorem State.setCore_cores (s : State) (c : Nat) (x : Core) : (s.setCore c x).cores = sput s.cores c x := rfl
@[simp] theorem State.setCore_teams (s : State) (c : Nat) (x : Core) : (s.setCore c x).teams = s.teams := rfl
@[simp] theorem State.setCore_dieTlb (s : State) (c : Nat) (x : Core) : (s.setCore c x).dieTlb = s.dieTlb := rfl
@[simp] theorem State.setCore_mem (s : State) (c : Nat) (x : Core) : (s.setCore c x).mem = s.mem := rfl
@[simp] theorem State.setCore_marks (s : State) (c : Nat) (x : Core) : (s.setCore c x).marks = s.marks := rfl
@[simp] theorem State.setCore_home (s : State) (c : Nat) (x : Core) : (s.setCore c x).home = s.home := rfl
@[simp] theorem State.setCore_links (s : State) (c : Nat) (x : Core) : (s.setCore c x).links = s.links := rfl
@[simp] theorem State.setCore_stc (s : State) (c : Nat) (x : Core) : (s.setCore c x).stc = s.stc := rfl
@[simp] theorem State.setCore_hub (s : State) (c : Nat) (x : Core) : (s.setCore c x).hub = s.hub := rfl
@[simp] theorem State.setCore_fab (s : State) (c : Nat) (x : Core) : (s.setCore c x).fab = s.fab := rfl
@[simp] theorem State.setCore_trust (s : State) (c : Nat) (x : Core) : (s.setCore c x).trust = s.trust := rfl
@[simp] theorem State.setCore_boot (s : State) (c : Nat) (x : Core) : (s.setCore c x).boot = s.boot := rfl
@[simp] theorem State.setCore_host (s : State) (c : Nat) (x : Core) : (s.setCore c x).host = s.host := rfl
@[simp] theorem State.setCore_past (s : State) (c : Nat) (x : Core) : (s.setCore c x).past = s.past := rfl
@[simp] theorem State.setCore_answers (s : State) (c : Nat) (x : Core) : (s.setCore c x).answers = s.answers := rfl

@[simp] theorem State.modCore_now (s : State) (c : Nat) (f : Core → Core) : (s.modCore c f).now = s.now := rfl
@[simp] theorem State.modCore_agenda (s : State) (c : Nat) (f : Core → Core) : (s.modCore c f).agenda = s.agenda := rfl
@[simp] theorem State.modCore_focus (s : State) (c : Nat) (f : Core → Core) : (s.modCore c f).focus = s.focus := rfl
@[simp] theorem State.modCore_snap (s : State) (c : Nat) (f : Core → Core) : (s.modCore c f).snap = s.snap := rfl
@[simp] theorem State.modCore_free (s : State) (c : Nat) (f : Core → Core) : (s.modCore c f).free = s.free := rfl
@[simp] theorem State.modCore_next (s : State) (c : Nat) (f : Core → Core) : (s.modCore c f).next = s.next := rfl
@[simp] theorem State.modCore_slats (s : State) (c : Nat) (f : Core → Core) : (s.modCore c f).slats = s.slats := rfl
@[simp] theorem State.modCore_cores (s : State) (c : Nat) (f : Core → Core) : (s.modCore c f).cores = sput s.cores c (f (s.core c)) := rfl
@[simp] theorem State.modCore_teams (s : State) (c : Nat) (f : Core → Core) : (s.modCore c f).teams = s.teams := rfl
@[simp] theorem State.modCore_dieTlb (s : State) (c : Nat) (f : Core → Core) : (s.modCore c f).dieTlb = s.dieTlb := rfl
@[simp] theorem State.modCore_mem (s : State) (c : Nat) (f : Core → Core) : (s.modCore c f).mem = s.mem := rfl
@[simp] theorem State.modCore_marks (s : State) (c : Nat) (f : Core → Core) : (s.modCore c f).marks = s.marks := rfl
@[simp] theorem State.modCore_home (s : State) (c : Nat) (f : Core → Core) : (s.modCore c f).home = s.home := rfl
@[simp] theorem State.modCore_links (s : State) (c : Nat) (f : Core → Core) : (s.modCore c f).links = s.links := rfl
@[simp] theorem State.modCore_stc (s : State) (c : Nat) (f : Core → Core) : (s.modCore c f).stc = s.stc := rfl
@[simp] theorem State.modCore_hub (s : State) (c : Nat) (f : Core → Core) : (s.modCore c f).hub = s.hub := rfl
@[simp] theorem State.modCore_fab (s : State) (c : Nat) (f : Core → Core) : (s.modCore c f).fab = s.fab := rfl
@[simp] theorem State.modCore_trust (s : State) (c : Nat) (f : Core → Core) : (s.modCore c f).trust = s.trust := rfl
@[simp] theorem State.modCore_boot (s : State) (c : Nat) (f : Core → Core) : (s.modCore c f).boot = s.boot := rfl
@[simp] theorem State.modCore_host (s : State) (c : Nat) (f : Core → Core) : (s.modCore c f).host = s.host := rfl
@[simp] theorem State.modCore_past (s : State) (c : Nat) (f : Core → Core) : (s.modCore c f).past = s.past := rfl
@[simp] theorem State.modCore_answers (s : State) (c : Nat) (f : Core → Core) : (s.modCore c f).answers = s.answers := rfl

@[simp] theorem State.mapCores_now (s : State) (f : Nat → Core → Core) : (s.mapCores f).now = s.now := rfl
@[simp] theorem State.mapCores_agenda (s : State) (f : Nat → Core → Core) : (s.mapCores f).agenda = s.agenda := rfl
@[simp] theorem State.mapCores_focus (s : State) (f : Nat → Core → Core) : (s.mapCores f).focus = s.focus := rfl
@[simp] theorem State.mapCores_snap (s : State) (f : Nat → Core → Core) : (s.mapCores f).snap = s.snap := rfl
@[simp] theorem State.mapCores_free (s : State) (f : Nat → Core → Core) : (s.mapCores f).free = s.free := rfl
@[simp] theorem State.mapCores_next (s : State) (f : Nat → Core → Core) : (s.mapCores f).next = s.next := rfl
@[simp] theorem State.mapCores_slats (s : State) (f : Nat → Core → Core) : (s.mapCores f).slats = s.slats := rfl
@[simp] theorem State.mapCores_cores (s : State) (f : Nat → Core → Core) : (s.mapCores f).cores = s.cores.map (fun c => (c.1, f c.1 c.2)) := rfl
@[simp] theorem State.mapCores_teams (s : State) (f : Nat → Core → Core) : (s.mapCores f).teams = s.teams := rfl
@[simp] theorem State.mapCores_dieTlb (s : State) (f : Nat → Core → Core) : (s.mapCores f).dieTlb = s.dieTlb := rfl
@[simp] theorem State.mapCores_mem (s : State) (f : Nat → Core → Core) : (s.mapCores f).mem = s.mem := rfl
@[simp] theorem State.mapCores_marks (s : State) (f : Nat → Core → Core) : (s.mapCores f).marks = s.marks := rfl
@[simp] theorem State.mapCores_home (s : State) (f : Nat → Core → Core) : (s.mapCores f).home = s.home := rfl
@[simp] theorem State.mapCores_links (s : State) (f : Nat → Core → Core) : (s.mapCores f).links = s.links := rfl
@[simp] theorem State.mapCores_stc (s : State) (f : Nat → Core → Core) : (s.mapCores f).stc = s.stc := rfl
@[simp] theorem State.mapCores_hub (s : State) (f : Nat → Core → Core) : (s.mapCores f).hub = s.hub := rfl
@[simp] theorem State.mapCores_fab (s : State) (f : Nat → Core → Core) : (s.mapCores f).fab = s.fab := rfl
@[simp] theorem State.mapCores_trust (s : State) (f : Nat → Core → Core) : (s.mapCores f).trust = s.trust := rfl
@[simp] theorem State.mapCores_boot (s : State) (f : Nat → Core → Core) : (s.mapCores f).boot = s.boot := rfl
@[simp] theorem State.mapCores_host (s : State) (f : Nat → Core → Core) : (s.mapCores f).host = s.host := rfl
@[simp] theorem State.mapCores_past (s : State) (f : Nat → Core → Core) : (s.mapCores f).past = s.past := rfl
@[simp] theorem State.mapCores_answers (s : State) (f : Nat → Core → Core) : (s.mapCores f).answers = s.answers := rfl

@[simp] theorem State.mapSlats_now (s : State) (f : Slat → Slat) : (s.mapSlats f).now = s.now := rfl
@[simp] theorem State.mapSlats_agenda (s : State) (f : Slat → Slat) : (s.mapSlats f).agenda = s.agenda := rfl
@[simp] theorem State.mapSlats_focus (s : State) (f : Slat → Slat) : (s.mapSlats f).focus = s.focus := rfl
@[simp] theorem State.mapSlats_snap (s : State) (f : Slat → Slat) : (s.mapSlats f).snap = s.snap := rfl
@[simp] theorem State.mapSlats_free (s : State) (f : Slat → Slat) : (s.mapSlats f).free = s.free := rfl
@[simp] theorem State.mapSlats_next (s : State) (f : Slat → Slat) : (s.mapSlats f).next = s.next := rfl
@[simp] theorem State.mapSlats_slats (s : State) (f : Slat → Slat) : (s.mapSlats f).slats = s.slats.map f := rfl
@[simp] theorem State.mapSlats_cores (s : State) (f : Slat → Slat) : (s.mapSlats f).cores = s.cores := rfl
@[simp] theorem State.mapSlats_teams (s : State) (f : Slat → Slat) : (s.mapSlats f).teams = s.teams := rfl
@[simp] theorem State.mapSlats_dieTlb (s : State) (f : Slat → Slat) : (s.mapSlats f).dieTlb = s.dieTlb := rfl
@[simp] theorem State.mapSlats_mem (s : State) (f : Slat → Slat) : (s.mapSlats f).mem = s.mem := rfl
@[simp] theorem State.mapSlats_marks (s : State) (f : Slat → Slat) : (s.mapSlats f).marks = s.marks := rfl
@[simp] theorem State.mapSlats_home (s : State) (f : Slat → Slat) : (s.mapSlats f).home = s.home := rfl
@[simp] theorem State.mapSlats_links (s : State) (f : Slat → Slat) : (s.mapSlats f).links = s.links := rfl
@[simp] theorem State.mapSlats_stc (s : State) (f : Slat → Slat) : (s.mapSlats f).stc = s.stc := rfl
@[simp] theorem State.mapSlats_hub (s : State) (f : Slat → Slat) : (s.mapSlats f).hub = s.hub := rfl
@[simp] theorem State.mapSlats_fab (s : State) (f : Slat → Slat) : (s.mapSlats f).fab = s.fab := rfl
@[simp] theorem State.mapSlats_trust (s : State) (f : Slat → Slat) : (s.mapSlats f).trust = s.trust := rfl
@[simp] theorem State.mapSlats_boot (s : State) (f : Slat → Slat) : (s.mapSlats f).boot = s.boot := rfl
@[simp] theorem State.mapSlats_host (s : State) (f : Slat → Slat) : (s.mapSlats f).host = s.host := rfl
@[simp] theorem State.mapSlats_past (s : State) (f : Slat → Slat) : (s.mapSlats f).past = s.past := rfl
@[simp] theorem State.mapSlats_answers (s : State) (f : Slat → Slat) : (s.mapSlats f).answers = s.answers := rfl

@[simp] theorem State.modFn_now (s : State) (n : Nat) (g : Fn → Fn) : (s.modFn n g).now = s.now := rfl
@[simp] theorem State.modFn_agenda (s : State) (n : Nat) (g : Fn → Fn) : (s.modFn n g).agenda = s.agenda := rfl
@[simp] theorem State.modFn_focus (s : State) (n : Nat) (g : Fn → Fn) : (s.modFn n g).focus = s.focus := rfl
@[simp] theorem State.modFn_snap (s : State) (n : Nat) (g : Fn → Fn) : (s.modFn n g).snap = s.snap := rfl
@[simp] theorem State.modFn_free (s : State) (n : Nat) (g : Fn → Fn) : (s.modFn n g).free = s.free := rfl
@[simp] theorem State.modFn_next (s : State) (n : Nat) (g : Fn → Fn) : (s.modFn n g).next = s.next := rfl
@[simp] theorem State.modFn_slats (s : State) (n : Nat) (g : Fn → Fn) : (s.modFn n g).slats = s.slats := rfl
@[simp] theorem State.modFn_cores (s : State) (n : Nat) (g : Fn → Fn) : (s.modFn n g).cores = s.cores := rfl
@[simp] theorem State.modFn_teams (s : State) (n : Nat) (g : Fn → Fn) : (s.modFn n g).teams = s.teams := rfl
@[simp] theorem State.modFn_dieTlb (s : State) (n : Nat) (g : Fn → Fn) : (s.modFn n g).dieTlb = s.dieTlb := rfl
@[simp] theorem State.modFn_mem (s : State) (n : Nat) (g : Fn → Fn) : (s.modFn n g).mem = s.mem := rfl
@[simp] theorem State.modFn_marks (s : State) (n : Nat) (g : Fn → Fn) : (s.modFn n g).marks = s.marks := rfl
@[simp] theorem State.modFn_home (s : State) (n : Nat) (g : Fn → Fn) : (s.modFn n g).home = s.home := rfl
@[simp] theorem State.modFn_links (s : State) (n : Nat) (g : Fn → Fn) : (s.modFn n g).links = s.links := rfl
@[simp] theorem State.modFn_stc (s : State) (n : Nat) (g : Fn → Fn) : (s.modFn n g).stc = s.stc := rfl
@[simp] theorem State.modFn_hub (s : State) (n : Nat) (g : Fn → Fn) : (s.modFn n g).hub = { s.hub with fns := sput s.hub.fns n (g (s.fn n)) } := rfl
@[simp] theorem State.modFn_fab (s : State) (n : Nat) (g : Fn → Fn) : (s.modFn n g).fab = s.fab := rfl
@[simp] theorem State.modFn_trust (s : State) (n : Nat) (g : Fn → Fn) : (s.modFn n g).trust = s.trust := rfl
@[simp] theorem State.modFn_boot (s : State) (n : Nat) (g : Fn → Fn) : (s.modFn n g).boot = s.boot := rfl
@[simp] theorem State.modFn_host (s : State) (n : Nat) (g : Fn → Fn) : (s.modFn n g).host = s.host := rfl
@[simp] theorem State.modFn_past (s : State) (n : Nat) (g : Fn → Fn) : (s.modFn n g).past = s.past := rfl
@[simp] theorem State.modFn_answers (s : State) (n : Nat) (g : Fn → Fn) : (s.modFn n g).answers = s.answers := rfl

@[simp] theorem State.modQueue_now (s : State) (q : Nat) (g : Queue → Queue) : (s.modQueue q g).now = s.now := rfl
@[simp] theorem State.modQueue_agenda (s : State) (q : Nat) (g : Queue → Queue) : (s.modQueue q g).agenda = s.agenda := rfl
@[simp] theorem State.modQueue_focus (s : State) (q : Nat) (g : Queue → Queue) : (s.modQueue q g).focus = s.focus := rfl
@[simp] theorem State.modQueue_snap (s : State) (q : Nat) (g : Queue → Queue) : (s.modQueue q g).snap = s.snap := rfl
@[simp] theorem State.modQueue_free (s : State) (q : Nat) (g : Queue → Queue) : (s.modQueue q g).free = s.free := rfl
@[simp] theorem State.modQueue_next (s : State) (q : Nat) (g : Queue → Queue) : (s.modQueue q g).next = s.next := rfl
@[simp] theorem State.modQueue_slats (s : State) (q : Nat) (g : Queue → Queue) : (s.modQueue q g).slats = s.slats := rfl
@[simp] theorem State.modQueue_cores (s : State) (q : Nat) (g : Queue → Queue) : (s.modQueue q g).cores = s.cores := rfl
@[simp] theorem State.modQueue_teams (s : State) (q : Nat) (g : Queue → Queue) : (s.modQueue q g).teams = s.teams := rfl
@[simp] theorem State.modQueue_dieTlb (s : State) (q : Nat) (g : Queue → Queue) : (s.modQueue q g).dieTlb = s.dieTlb := rfl
@[simp] theorem State.modQueue_mem (s : State) (q : Nat) (g : Queue → Queue) : (s.modQueue q g).mem = s.mem := rfl
@[simp] theorem State.modQueue_marks (s : State) (q : Nat) (g : Queue → Queue) : (s.modQueue q g).marks = s.marks := rfl
@[simp] theorem State.modQueue_home (s : State) (q : Nat) (g : Queue → Queue) : (s.modQueue q g).home = s.home := rfl
@[simp] theorem State.modQueue_links (s : State) (q : Nat) (g : Queue → Queue) : (s.modQueue q g).links = s.links := rfl
@[simp] theorem State.modQueue_stc (s : State) (q : Nat) (g : Queue → Queue) : (s.modQueue q g).stc = s.stc := rfl
@[simp] theorem State.modQueue_hub (s : State) (q : Nat) (g : Queue → Queue) : (s.modQueue q g).hub = { s.hub with queues := sput s.hub.queues q (g (s.queue q)) } := rfl
@[simp] theorem State.modQueue_fab (s : State) (q : Nat) (g : Queue → Queue) : (s.modQueue q g).fab = s.fab := rfl
@[simp] theorem State.modQueue_trust (s : State) (q : Nat) (g : Queue → Queue) : (s.modQueue q g).trust = s.trust := rfl
@[simp] theorem State.modQueue_boot (s : State) (q : Nat) (g : Queue → Queue) : (s.modQueue q g).boot = s.boot := rfl
@[simp] theorem State.modQueue_host (s : State) (q : Nat) (g : Queue → Queue) : (s.modQueue q g).host = s.host := rfl
@[simp] theorem State.modQueue_past (s : State) (q : Nat) (g : Queue → Queue) : (s.modQueue q g).past = s.past := rfl
@[simp] theorem State.modQueue_answers (s : State) (q : Nat) (g : Queue → Queue) : (s.modQueue q g).answers = s.answers := rfl

@[simp] theorem State.modContext_now (s : State) (c : Nat) (g : Context → Context) : (s.modContext c g).now = s.now := rfl
@[simp] theorem State.modContext_agenda (s : State) (c : Nat) (g : Context → Context) : (s.modContext c g).agenda = s.agenda := rfl
@[simp] theorem State.modContext_focus (s : State) (c : Nat) (g : Context → Context) : (s.modContext c g).focus = s.focus := rfl
@[simp] theorem State.modContext_snap (s : State) (c : Nat) (g : Context → Context) : (s.modContext c g).snap = s.snap := rfl
@[simp] theorem State.modContext_free (s : State) (c : Nat) (g : Context → Context) : (s.modContext c g).free = s.free := rfl
@[simp] theorem State.modContext_next (s : State) (c : Nat) (g : Context → Context) : (s.modContext c g).next = s.next := rfl
@[simp] theorem State.modContext_slats (s : State) (c : Nat) (g : Context → Context) : (s.modContext c g).slats = s.slats := rfl
@[simp] theorem State.modContext_cores (s : State) (c : Nat) (g : Context → Context) : (s.modContext c g).cores = s.cores := rfl
@[simp] theorem State.modContext_teams (s : State) (c : Nat) (g : Context → Context) : (s.modContext c g).teams = s.teams := rfl
@[simp] theorem State.modContext_dieTlb (s : State) (c : Nat) (g : Context → Context) : (s.modContext c g).dieTlb = s.dieTlb := rfl
@[simp] theorem State.modContext_mem (s : State) (c : Nat) (g : Context → Context) : (s.modContext c g).mem = s.mem := rfl
@[simp] theorem State.modContext_marks (s : State) (c : Nat) (g : Context → Context) : (s.modContext c g).marks = s.marks := rfl
@[simp] theorem State.modContext_home (s : State) (c : Nat) (g : Context → Context) : (s.modContext c g).home = s.home := rfl
@[simp] theorem State.modContext_links (s : State) (c : Nat) (g : Context → Context) : (s.modContext c g).links = s.links := rfl
@[simp] theorem State.modContext_stc (s : State) (c : Nat) (g : Context → Context) : (s.modContext c g).stc = s.stc := rfl
@[simp] theorem State.modContext_hub (s : State) (c : Nat) (g : Context → Context) : (s.modContext c g).hub = { s.hub with contexts := s.hub.contexts.map (fun x => if x.ctx = c then g x else x) } := rfl
@[simp] theorem State.modContext_fab (s : State) (c : Nat) (g : Context → Context) : (s.modContext c g).fab = s.fab := rfl
@[simp] theorem State.modContext_trust (s : State) (c : Nat) (g : Context → Context) : (s.modContext c g).trust = s.trust := rfl
@[simp] theorem State.modContext_boot (s : State) (c : Nat) (g : Context → Context) : (s.modContext c g).boot = s.boot := rfl
@[simp] theorem State.modContext_host (s : State) (c : Nat) (g : Context → Context) : (s.modContext c g).host = s.host := rfl
@[simp] theorem State.modContext_past (s : State) (c : Nat) (g : Context → Context) : (s.modContext c g).past = s.past := rfl
@[simp] theorem State.modContext_answers (s : State) (c : Nat) (g : Context → Context) : (s.modContext c g).answers = s.answers := rfl

@[simp] theorem State.modGrid_now (s : State) (i : Nat) (f : Grid → Grid) : (s.modGrid i f).now = s.now := rfl
@[simp] theorem State.modGrid_agenda (s : State) (i : Nat) (f : Grid → Grid) : (s.modGrid i f).agenda = s.agenda := rfl
@[simp] theorem State.modGrid_focus (s : State) (i : Nat) (f : Grid → Grid) : (s.modGrid i f).focus = s.focus := rfl
@[simp] theorem State.modGrid_snap (s : State) (i : Nat) (f : Grid → Grid) : (s.modGrid i f).snap = s.snap := rfl
@[simp] theorem State.modGrid_free (s : State) (i : Nat) (f : Grid → Grid) : (s.modGrid i f).free = s.free := rfl
@[simp] theorem State.modGrid_next (s : State) (i : Nat) (f : Grid → Grid) : (s.modGrid i f).next = s.next := rfl
@[simp] theorem State.modGrid_slats (s : State) (i : Nat) (f : Grid → Grid) : (s.modGrid i f).slats = s.slats := rfl
@[simp] theorem State.modGrid_cores (s : State) (i : Nat) (f : Grid → Grid) : (s.modGrid i f).cores = s.cores := rfl
@[simp] theorem State.modGrid_teams (s : State) (i : Nat) (f : Grid → Grid) : (s.modGrid i f).teams = s.teams := rfl
@[simp] theorem State.modGrid_dieTlb (s : State) (i : Nat) (f : Grid → Grid) : (s.modGrid i f).dieTlb = s.dieTlb := rfl
@[simp] theorem State.modGrid_mem (s : State) (i : Nat) (f : Grid → Grid) : (s.modGrid i f).mem = s.mem := rfl
@[simp] theorem State.modGrid_marks (s : State) (i : Nat) (f : Grid → Grid) : (s.modGrid i f).marks = s.marks := rfl
@[simp] theorem State.modGrid_home (s : State) (i : Nat) (f : Grid → Grid) : (s.modGrid i f).home = s.home := rfl
@[simp] theorem State.modGrid_links (s : State) (i : Nat) (f : Grid → Grid) : (s.modGrid i f).links = s.links := rfl
@[simp] theorem State.modGrid_stc (s : State) (i : Nat) (f : Grid → Grid) : (s.modGrid i f).stc = s.stc := rfl
@[simp] theorem State.modGrid_hub (s : State) (i : Nat) (f : Grid → Grid) : (s.modGrid i f).hub = { s.hub with grids := s.hub.grids.map (fun x => if x.id = i then f x else x) } := rfl
@[simp] theorem State.modGrid_fab (s : State) (i : Nat) (f : Grid → Grid) : (s.modGrid i f).fab = s.fab := rfl
@[simp] theorem State.modGrid_trust (s : State) (i : Nat) (f : Grid → Grid) : (s.modGrid i f).trust = s.trust := rfl
@[simp] theorem State.modGrid_boot (s : State) (i : Nat) (f : Grid → Grid) : (s.modGrid i f).boot = s.boot := rfl
@[simp] theorem State.modGrid_host (s : State) (i : Nat) (f : Grid → Grid) : (s.modGrid i f).host = s.host := rfl
@[simp] theorem State.modGrid_past (s : State) (i : Nat) (f : Grid → Grid) : (s.modGrid i f).past = s.past := rfl
@[simp] theorem State.modGrid_answers (s : State) (i : Nat) (f : Grid → Grid) : (s.modGrid i f).answers = s.answers := rfl

@[simp] theorem State.modLink_now (s : State) (n : Nat) (f : Link → Link) : (s.modLink n f).now = s.now := rfl
@[simp] theorem State.modLink_agenda (s : State) (n : Nat) (f : Link → Link) : (s.modLink n f).agenda = s.agenda := rfl
@[simp] theorem State.modLink_focus (s : State) (n : Nat) (f : Link → Link) : (s.modLink n f).focus = s.focus := rfl
@[simp] theorem State.modLink_snap (s : State) (n : Nat) (f : Link → Link) : (s.modLink n f).snap = s.snap := rfl
@[simp] theorem State.modLink_free (s : State) (n : Nat) (f : Link → Link) : (s.modLink n f).free = s.free := rfl
@[simp] theorem State.modLink_next (s : State) (n : Nat) (f : Link → Link) : (s.modLink n f).next = s.next := rfl
@[simp] theorem State.modLink_slats (s : State) (n : Nat) (f : Link → Link) : (s.modLink n f).slats = s.slats := rfl
@[simp] theorem State.modLink_cores (s : State) (n : Nat) (f : Link → Link) : (s.modLink n f).cores = s.cores := rfl
@[simp] theorem State.modLink_teams (s : State) (n : Nat) (f : Link → Link) : (s.modLink n f).teams = s.teams := rfl
@[simp] theorem State.modLink_dieTlb (s : State) (n : Nat) (f : Link → Link) : (s.modLink n f).dieTlb = s.dieTlb := rfl
@[simp] theorem State.modLink_mem (s : State) (n : Nat) (f : Link → Link) : (s.modLink n f).mem = s.mem := rfl
@[simp] theorem State.modLink_marks (s : State) (n : Nat) (f : Link → Link) : (s.modLink n f).marks = s.marks := rfl
@[simp] theorem State.modLink_home (s : State) (n : Nat) (f : Link → Link) : (s.modLink n f).home = s.home := rfl
@[simp] theorem State.modLink_links (s : State) (n : Nat) (f : Link → Link) : (s.modLink n f).links = sput s.links n (f (s.link n)) := rfl
@[simp] theorem State.modLink_stc (s : State) (n : Nat) (f : Link → Link) : (s.modLink n f).stc = s.stc := rfl
@[simp] theorem State.modLink_hub (s : State) (n : Nat) (f : Link → Link) : (s.modLink n f).hub = s.hub := rfl
@[simp] theorem State.modLink_fab (s : State) (n : Nat) (f : Link → Link) : (s.modLink n f).fab = s.fab := rfl
@[simp] theorem State.modLink_trust (s : State) (n : Nat) (f : Link → Link) : (s.modLink n f).trust = s.trust := rfl
@[simp] theorem State.modLink_boot (s : State) (n : Nat) (f : Link → Link) : (s.modLink n f).boot = s.boot := rfl
@[simp] theorem State.modLink_host (s : State) (n : Nat) (f : Link → Link) : (s.modLink n f).host = s.host := rfl
@[simp] theorem State.modLink_past (s : State) (n : Nat) (f : Link → Link) : (s.modLink n f).past = s.past := rfl
@[simp] theorem State.modLink_answers (s : State) (n : Nat) (f : Link → Link) : (s.modLink n f).answers = s.answers := rfl

@[simp] theorem State.modFlink_now (s : State) (n : Nat) (f : Link → Link) : (s.modFlink n f).now = s.now := rfl
@[simp] theorem State.modFlink_agenda (s : State) (n : Nat) (f : Link → Link) : (s.modFlink n f).agenda = s.agenda := rfl
@[simp] theorem State.modFlink_focus (s : State) (n : Nat) (f : Link → Link) : (s.modFlink n f).focus = s.focus := rfl
@[simp] theorem State.modFlink_snap (s : State) (n : Nat) (f : Link → Link) : (s.modFlink n f).snap = s.snap := rfl
@[simp] theorem State.modFlink_free (s : State) (n : Nat) (f : Link → Link) : (s.modFlink n f).free = s.free := rfl
@[simp] theorem State.modFlink_next (s : State) (n : Nat) (f : Link → Link) : (s.modFlink n f).next = s.next := rfl
@[simp] theorem State.modFlink_slats (s : State) (n : Nat) (f : Link → Link) : (s.modFlink n f).slats = s.slats := rfl
@[simp] theorem State.modFlink_cores (s : State) (n : Nat) (f : Link → Link) : (s.modFlink n f).cores = s.cores := rfl
@[simp] theorem State.modFlink_teams (s : State) (n : Nat) (f : Link → Link) : (s.modFlink n f).teams = s.teams := rfl
@[simp] theorem State.modFlink_dieTlb (s : State) (n : Nat) (f : Link → Link) : (s.modFlink n f).dieTlb = s.dieTlb := rfl
@[simp] theorem State.modFlink_mem (s : State) (n : Nat) (f : Link → Link) : (s.modFlink n f).mem = s.mem := rfl
@[simp] theorem State.modFlink_marks (s : State) (n : Nat) (f : Link → Link) : (s.modFlink n f).marks = s.marks := rfl
@[simp] theorem State.modFlink_home (s : State) (n : Nat) (f : Link → Link) : (s.modFlink n f).home = s.home := rfl
@[simp] theorem State.modFlink_links (s : State) (n : Nat) (f : Link → Link) : (s.modFlink n f).links = s.links := rfl
@[simp] theorem State.modFlink_stc (s : State) (n : Nat) (f : Link → Link) : (s.modFlink n f).stc = s.stc := rfl
@[simp] theorem State.modFlink_hub (s : State) (n : Nat) (f : Link → Link) : (s.modFlink n f).hub = s.hub := rfl
@[simp] theorem State.modFlink_fab (s : State) (n : Nat) (f : Link → Link) : (s.modFlink n f).fab = { s.fab with links := sput s.fab.links n (f (s.flink n)) } := rfl
@[simp] theorem State.modFlink_trust (s : State) (n : Nat) (f : Link → Link) : (s.modFlink n f).trust = s.trust := rfl
@[simp] theorem State.modFlink_boot (s : State) (n : Nat) (f : Link → Link) : (s.modFlink n f).boot = s.boot := rfl
@[simp] theorem State.modFlink_host (s : State) (n : Nat) (f : Link → Link) : (s.modFlink n f).host = s.host := rfl
@[simp] theorem State.modFlink_past (s : State) (n : Nat) (f : Link → Link) : (s.modFlink n f).past = s.past := rfl
@[simp] theorem State.modFlink_answers (s : State) (n : Nat) (f : Link → Link) : (s.modFlink n f).answers = s.answers := rfl

@[simp] theorem State.modHome_now (s : State) (f : Home → Home) : (s.modHome f).now = s.now := rfl
@[simp] theorem State.modHome_agenda (s : State) (f : Home → Home) : (s.modHome f).agenda = s.agenda := rfl
@[simp] theorem State.modHome_focus (s : State) (f : Home → Home) : (s.modHome f).focus = s.focus := rfl
@[simp] theorem State.modHome_snap (s : State) (f : Home → Home) : (s.modHome f).snap = s.snap := rfl
@[simp] theorem State.modHome_free (s : State) (f : Home → Home) : (s.modHome f).free = s.free := rfl
@[simp] theorem State.modHome_next (s : State) (f : Home → Home) : (s.modHome f).next = s.next := rfl
@[simp] theorem State.modHome_slats (s : State) (f : Home → Home) : (s.modHome f).slats = s.slats := rfl
@[simp] theorem State.modHome_cores (s : State) (f : Home → Home) : (s.modHome f).cores = s.cores := rfl
@[simp] theorem State.modHome_teams (s : State) (f : Home → Home) : (s.modHome f).teams = s.teams := rfl
@[simp] theorem State.modHome_dieTlb (s : State) (f : Home → Home) : (s.modHome f).dieTlb = s.dieTlb := rfl
@[simp] theorem State.modHome_mem (s : State) (f : Home → Home) : (s.modHome f).mem = s.mem := rfl
@[simp] theorem State.modHome_marks (s : State) (f : Home → Home) : (s.modHome f).marks = s.marks := rfl
@[simp] theorem State.modHome_home (s : State) (f : Home → Home) : (s.modHome f).home = f s.home := rfl
@[simp] theorem State.modHome_links (s : State) (f : Home → Home) : (s.modHome f).links = s.links := rfl
@[simp] theorem State.modHome_stc (s : State) (f : Home → Home) : (s.modHome f).stc = s.stc := rfl
@[simp] theorem State.modHome_hub (s : State) (f : Home → Home) : (s.modHome f).hub = s.hub := rfl
@[simp] theorem State.modHome_fab (s : State) (f : Home → Home) : (s.modHome f).fab = s.fab := rfl
@[simp] theorem State.modHome_trust (s : State) (f : Home → Home) : (s.modHome f).trust = s.trust := rfl
@[simp] theorem State.modHome_boot (s : State) (f : Home → Home) : (s.modHome f).boot = s.boot := rfl
@[simp] theorem State.modHome_host (s : State) (f : Home → Home) : (s.modHome f).host = s.host := rfl
@[simp] theorem State.modHome_past (s : State) (f : Home → Home) : (s.modHome f).past = s.past := rfl
@[simp] theorem State.modHome_answers (s : State) (f : Home → Home) : (s.modHome f).answers = s.answers := rfl

@[simp] theorem State.modHub_now (s : State) (f : Hub → Hub) : (s.modHub f).now = s.now := rfl
@[simp] theorem State.modHub_agenda (s : State) (f : Hub → Hub) : (s.modHub f).agenda = s.agenda := rfl
@[simp] theorem State.modHub_focus (s : State) (f : Hub → Hub) : (s.modHub f).focus = s.focus := rfl
@[simp] theorem State.modHub_snap (s : State) (f : Hub → Hub) : (s.modHub f).snap = s.snap := rfl
@[simp] theorem State.modHub_free (s : State) (f : Hub → Hub) : (s.modHub f).free = s.free := rfl
@[simp] theorem State.modHub_next (s : State) (f : Hub → Hub) : (s.modHub f).next = s.next := rfl
@[simp] theorem State.modHub_slats (s : State) (f : Hub → Hub) : (s.modHub f).slats = s.slats := rfl
@[simp] theorem State.modHub_cores (s : State) (f : Hub → Hub) : (s.modHub f).cores = s.cores := rfl
@[simp] theorem State.modHub_teams (s : State) (f : Hub → Hub) : (s.modHub f).teams = s.teams := rfl
@[simp] theorem State.modHub_dieTlb (s : State) (f : Hub → Hub) : (s.modHub f).dieTlb = s.dieTlb := rfl
@[simp] theorem State.modHub_mem (s : State) (f : Hub → Hub) : (s.modHub f).mem = s.mem := rfl
@[simp] theorem State.modHub_marks (s : State) (f : Hub → Hub) : (s.modHub f).marks = s.marks := rfl
@[simp] theorem State.modHub_home (s : State) (f : Hub → Hub) : (s.modHub f).home = s.home := rfl
@[simp] theorem State.modHub_links (s : State) (f : Hub → Hub) : (s.modHub f).links = s.links := rfl
@[simp] theorem State.modHub_stc (s : State) (f : Hub → Hub) : (s.modHub f).stc = s.stc := rfl
@[simp] theorem State.modHub_hub (s : State) (f : Hub → Hub) : (s.modHub f).hub = f s.hub := rfl
@[simp] theorem State.modHub_fab (s : State) (f : Hub → Hub) : (s.modHub f).fab = s.fab := rfl
@[simp] theorem State.modHub_trust (s : State) (f : Hub → Hub) : (s.modHub f).trust = s.trust := rfl
@[simp] theorem State.modHub_boot (s : State) (f : Hub → Hub) : (s.modHub f).boot = s.boot := rfl
@[simp] theorem State.modHub_host (s : State) (f : Hub → Hub) : (s.modHub f).host = s.host := rfl
@[simp] theorem State.modHub_past (s : State) (f : Hub → Hub) : (s.modHub f).past = s.past := rfl
@[simp] theorem State.modHub_answers (s : State) (f : Hub → Hub) : (s.modHub f).answers = s.answers := rfl

@[simp] theorem State.modStc_now (s : State) (f : Stc → Stc) : (s.modStc f).now = s.now := rfl
@[simp] theorem State.modStc_agenda (s : State) (f : Stc → Stc) : (s.modStc f).agenda = s.agenda := rfl
@[simp] theorem State.modStc_focus (s : State) (f : Stc → Stc) : (s.modStc f).focus = s.focus := rfl
@[simp] theorem State.modStc_snap (s : State) (f : Stc → Stc) : (s.modStc f).snap = s.snap := rfl
@[simp] theorem State.modStc_free (s : State) (f : Stc → Stc) : (s.modStc f).free = s.free := rfl
@[simp] theorem State.modStc_next (s : State) (f : Stc → Stc) : (s.modStc f).next = s.next := rfl
@[simp] theorem State.modStc_slats (s : State) (f : Stc → Stc) : (s.modStc f).slats = s.slats := rfl
@[simp] theorem State.modStc_cores (s : State) (f : Stc → Stc) : (s.modStc f).cores = s.cores := rfl
@[simp] theorem State.modStc_teams (s : State) (f : Stc → Stc) : (s.modStc f).teams = s.teams := rfl
@[simp] theorem State.modStc_dieTlb (s : State) (f : Stc → Stc) : (s.modStc f).dieTlb = s.dieTlb := rfl
@[simp] theorem State.modStc_mem (s : State) (f : Stc → Stc) : (s.modStc f).mem = s.mem := rfl
@[simp] theorem State.modStc_marks (s : State) (f : Stc → Stc) : (s.modStc f).marks = s.marks := rfl
@[simp] theorem State.modStc_home (s : State) (f : Stc → Stc) : (s.modStc f).home = s.home := rfl
@[simp] theorem State.modStc_links (s : State) (f : Stc → Stc) : (s.modStc f).links = s.links := rfl
@[simp] theorem State.modStc_stc (s : State) (f : Stc → Stc) : (s.modStc f).stc = f s.stc := rfl
@[simp] theorem State.modStc_hub (s : State) (f : Stc → Stc) : (s.modStc f).hub = s.hub := rfl
@[simp] theorem State.modStc_fab (s : State) (f : Stc → Stc) : (s.modStc f).fab = s.fab := rfl
@[simp] theorem State.modStc_trust (s : State) (f : Stc → Stc) : (s.modStc f).trust = s.trust := rfl
@[simp] theorem State.modStc_boot (s : State) (f : Stc → Stc) : (s.modStc f).boot = s.boot := rfl
@[simp] theorem State.modStc_host (s : State) (f : Stc → Stc) : (s.modStc f).host = s.host := rfl
@[simp] theorem State.modStc_past (s : State) (f : Stc → Stc) : (s.modStc f).past = s.past := rfl
@[simp] theorem State.modStc_answers (s : State) (f : Stc → Stc) : (s.modStc f).answers = s.answers := rfl

@[simp] theorem State.modHost_now (s : State) (f : HostPort → HostPort) : (s.modHost f).now = s.now := rfl
@[simp] theorem State.modHost_agenda (s : State) (f : HostPort → HostPort) : (s.modHost f).agenda = s.agenda := rfl
@[simp] theorem State.modHost_focus (s : State) (f : HostPort → HostPort) : (s.modHost f).focus = s.focus := rfl
@[simp] theorem State.modHost_snap (s : State) (f : HostPort → HostPort) : (s.modHost f).snap = s.snap := rfl
@[simp] theorem State.modHost_free (s : State) (f : HostPort → HostPort) : (s.modHost f).free = s.free := rfl
@[simp] theorem State.modHost_next (s : State) (f : HostPort → HostPort) : (s.modHost f).next = s.next := rfl
@[simp] theorem State.modHost_slats (s : State) (f : HostPort → HostPort) : (s.modHost f).slats = s.slats := rfl
@[simp] theorem State.modHost_cores (s : State) (f : HostPort → HostPort) : (s.modHost f).cores = s.cores := rfl
@[simp] theorem State.modHost_teams (s : State) (f : HostPort → HostPort) : (s.modHost f).teams = s.teams := rfl
@[simp] theorem State.modHost_dieTlb (s : State) (f : HostPort → HostPort) : (s.modHost f).dieTlb = s.dieTlb := rfl
@[simp] theorem State.modHost_mem (s : State) (f : HostPort → HostPort) : (s.modHost f).mem = s.mem := rfl
@[simp] theorem State.modHost_marks (s : State) (f : HostPort → HostPort) : (s.modHost f).marks = s.marks := rfl
@[simp] theorem State.modHost_home (s : State) (f : HostPort → HostPort) : (s.modHost f).home = s.home := rfl
@[simp] theorem State.modHost_links (s : State) (f : HostPort → HostPort) : (s.modHost f).links = s.links := rfl
@[simp] theorem State.modHost_stc (s : State) (f : HostPort → HostPort) : (s.modHost f).stc = s.stc := rfl
@[simp] theorem State.modHost_hub (s : State) (f : HostPort → HostPort) : (s.modHost f).hub = s.hub := rfl
@[simp] theorem State.modHost_fab (s : State) (f : HostPort → HostPort) : (s.modHost f).fab = s.fab := rfl
@[simp] theorem State.modHost_trust (s : State) (f : HostPort → HostPort) : (s.modHost f).trust = s.trust := rfl
@[simp] theorem State.modHost_boot (s : State) (f : HostPort → HostPort) : (s.modHost f).boot = s.boot := rfl
@[simp] theorem State.modHost_host (s : State) (f : HostPort → HostPort) : (s.modHost f).host = f s.host := rfl
@[simp] theorem State.modHost_past (s : State) (f : HostPort → HostPort) : (s.modHost f).past = s.past := rfl
@[simp] theorem State.modHost_answers (s : State) (f : HostPort → HostPort) : (s.modHost f).answers = s.answers := rfl

@[simp] theorem State.note_now (s : State) (uid seq kind : Nat) (lanes : List (Nat × Nat × W32)) (cause : Option Cause) : (s.note uid seq kind lanes cause).now = s.now := rfl
@[simp] theorem State.note_agenda (s : State) (uid seq kind : Nat) (lanes : List (Nat × Nat × W32)) (cause : Option Cause) : (s.note uid seq kind lanes cause).agenda = s.agenda := rfl
@[simp] theorem State.note_focus (s : State) (uid seq kind : Nat) (lanes : List (Nat × Nat × W32)) (cause : Option Cause) : (s.note uid seq kind lanes cause).focus = s.focus := rfl
@[simp] theorem State.note_snap (s : State) (uid seq kind : Nat) (lanes : List (Nat × Nat × W32)) (cause : Option Cause) : (s.note uid seq kind lanes cause).snap = s.snap := rfl
@[simp] theorem State.note_free (s : State) (uid seq kind : Nat) (lanes : List (Nat × Nat × W32)) (cause : Option Cause) : (s.note uid seq kind lanes cause).free = s.free := rfl
@[simp] theorem State.note_next (s : State) (uid seq kind : Nat) (lanes : List (Nat × Nat × W32)) (cause : Option Cause) : (s.note uid seq kind lanes cause).next = s.next := rfl
@[simp] theorem State.note_slats (s : State) (uid seq kind : Nat) (lanes : List (Nat × Nat × W32)) (cause : Option Cause) : (s.note uid seq kind lanes cause).slats = s.slats := rfl
@[simp] theorem State.note_cores (s : State) (uid seq kind : Nat) (lanes : List (Nat × Nat × W32)) (cause : Option Cause) : (s.note uid seq kind lanes cause).cores = s.cores := rfl
@[simp] theorem State.note_teams (s : State) (uid seq kind : Nat) (lanes : List (Nat × Nat × W32)) (cause : Option Cause) : (s.note uid seq kind lanes cause).teams = s.teams := rfl
@[simp] theorem State.note_dieTlb (s : State) (uid seq kind : Nat) (lanes : List (Nat × Nat × W32)) (cause : Option Cause) : (s.note uid seq kind lanes cause).dieTlb = s.dieTlb := rfl
@[simp] theorem State.note_mem (s : State) (uid seq kind : Nat) (lanes : List (Nat × Nat × W32)) (cause : Option Cause) : (s.note uid seq kind lanes cause).mem = s.mem := rfl
@[simp] theorem State.note_marks (s : State) (uid seq kind : Nat) (lanes : List (Nat × Nat × W32)) (cause : Option Cause) : (s.note uid seq kind lanes cause).marks = s.marks := rfl
@[simp] theorem State.note_home (s : State) (uid seq kind : Nat) (lanes : List (Nat × Nat × W32)) (cause : Option Cause) : (s.note uid seq kind lanes cause).home = s.home := rfl
@[simp] theorem State.note_links (s : State) (uid seq kind : Nat) (lanes : List (Nat × Nat × W32)) (cause : Option Cause) : (s.note uid seq kind lanes cause).links = s.links := rfl
@[simp] theorem State.note_stc (s : State) (uid seq kind : Nat) (lanes : List (Nat × Nat × W32)) (cause : Option Cause) : (s.note uid seq kind lanes cause).stc = s.stc := rfl
@[simp] theorem State.note_hub (s : State) (uid seq kind : Nat) (lanes : List (Nat × Nat × W32)) (cause : Option Cause) : (s.note uid seq kind lanes cause).hub = s.hub := rfl
@[simp] theorem State.note_fab (s : State) (uid seq kind : Nat) (lanes : List (Nat × Nat × W32)) (cause : Option Cause) : (s.note uid seq kind lanes cause).fab = s.fab := rfl
@[simp] theorem State.note_trust (s : State) (uid seq kind : Nat) (lanes : List (Nat × Nat × W32)) (cause : Option Cause) : (s.note uid seq kind lanes cause).trust = s.trust := rfl
@[simp] theorem State.note_boot (s : State) (uid seq kind : Nat) (lanes : List (Nat × Nat × W32)) (cause : Option Cause) : (s.note uid seq kind lanes cause).boot = s.boot := rfl
@[simp] theorem State.note_host (s : State) (uid seq kind : Nat) (lanes : List (Nat × Nat × W32)) (cause : Option Cause) : (s.note uid seq kind lanes cause).host = s.host := rfl
@[simp] theorem State.note_past (s : State) (uid seq kind : Nat) (lanes : List (Nat × Nat × W32)) (cause : Option Cause) : (s.note uid seq kind lanes cause).past = s.past := rfl
@[simp] theorem State.note_answers (s : State) (uid seq kind : Nat) (lanes : List (Nat × Nat × W32)) (cause : Option Cause) : (s.note uid seq kind lanes cause).answers = s.answers ++ [⟨s.now, uid, seq, kind, lanes, cause⟩] := rfl

@[simp] theorem State.withAgenda_now (s : State) (rest : List Due) : (s.withAgenda rest).now = s.now := rfl
@[simp] theorem State.withAgenda_agenda (s : State) (rest : List Due) : (s.withAgenda rest).agenda = rest := rfl
@[simp] theorem State.withAgenda_focus (s : State) (rest : List Due) : (s.withAgenda rest).focus = s.focus := rfl
@[simp] theorem State.withAgenda_snap (s : State) (rest : List Due) : (s.withAgenda rest).snap = s.snap := rfl
@[simp] theorem State.withAgenda_free (s : State) (rest : List Due) : (s.withAgenda rest).free = s.free := rfl
@[simp] theorem State.withAgenda_next (s : State) (rest : List Due) : (s.withAgenda rest).next = s.next := rfl
@[simp] theorem State.withAgenda_slats (s : State) (rest : List Due) : (s.withAgenda rest).slats = s.slats := rfl
@[simp] theorem State.withAgenda_cores (s : State) (rest : List Due) : (s.withAgenda rest).cores = s.cores := rfl
@[simp] theorem State.withAgenda_teams (s : State) (rest : List Due) : (s.withAgenda rest).teams = s.teams := rfl
@[simp] theorem State.withAgenda_dieTlb (s : State) (rest : List Due) : (s.withAgenda rest).dieTlb = s.dieTlb := rfl
@[simp] theorem State.withAgenda_mem (s : State) (rest : List Due) : (s.withAgenda rest).mem = s.mem := rfl
@[simp] theorem State.withAgenda_marks (s : State) (rest : List Due) : (s.withAgenda rest).marks = s.marks := rfl
@[simp] theorem State.withAgenda_home (s : State) (rest : List Due) : (s.withAgenda rest).home = s.home := rfl
@[simp] theorem State.withAgenda_links (s : State) (rest : List Due) : (s.withAgenda rest).links = s.links := rfl
@[simp] theorem State.withAgenda_stc (s : State) (rest : List Due) : (s.withAgenda rest).stc = s.stc := rfl
@[simp] theorem State.withAgenda_hub (s : State) (rest : List Due) : (s.withAgenda rest).hub = s.hub := rfl
@[simp] theorem State.withAgenda_fab (s : State) (rest : List Due) : (s.withAgenda rest).fab = s.fab := rfl
@[simp] theorem State.withAgenda_trust (s : State) (rest : List Due) : (s.withAgenda rest).trust = s.trust := rfl
@[simp] theorem State.withAgenda_boot (s : State) (rest : List Due) : (s.withAgenda rest).boot = s.boot := rfl
@[simp] theorem State.withAgenda_host (s : State) (rest : List Due) : (s.withAgenda rest).host = s.host := rfl
@[simp] theorem State.withAgenda_past (s : State) (rest : List Due) : (s.withAgenda rest).past = s.past := rfl
@[simp] theorem State.withAgenda_answers (s : State) (rest : List Due) : (s.withAgenda rest).answers = s.answers := rfl

@[simp] theorem State.advance_now (s : State) (t : Slat) (u : Issue) : (s.advance t u).now = s.now := rfl
@[simp] theorem State.advance_agenda (s : State) (t : Slat) (u : Issue) : (s.advance t u).agenda = s.agenda := rfl
@[simp] theorem State.advance_focus (s : State) (t : Slat) (u : Issue) : (s.advance t u).focus = s.focus := rfl
@[simp] theorem State.advance_snap (s : State) (t : Slat) (u : Issue) : (s.advance t u).snap = s.snap := rfl
@[simp] theorem State.advance_free (s : State) (t : Slat) (u : Issue) : (s.advance t u).free = s.free := rfl
@[simp] theorem State.advance_next (s : State) (t : Slat) (u : Issue) : (s.advance t u).next = s.next := rfl
@[simp] theorem State.advance_cores (s : State) (t : Slat) (u : Issue) : (s.advance t u).cores = s.cores := rfl
@[simp] theorem State.advance_teams (s : State) (t : Slat) (u : Issue) : (s.advance t u).teams = s.teams := rfl
@[simp] theorem State.advance_dieTlb (s : State) (t : Slat) (u : Issue) : (s.advance t u).dieTlb = s.dieTlb := rfl
@[simp] theorem State.advance_mem (s : State) (t : Slat) (u : Issue) : (s.advance t u).mem = s.mem := rfl
@[simp] theorem State.advance_marks (s : State) (t : Slat) (u : Issue) : (s.advance t u).marks = s.marks := rfl
@[simp] theorem State.advance_home (s : State) (t : Slat) (u : Issue) : (s.advance t u).home = s.home := rfl
@[simp] theorem State.advance_links (s : State) (t : Slat) (u : Issue) : (s.advance t u).links = s.links := rfl
@[simp] theorem State.advance_stc (s : State) (t : Slat) (u : Issue) : (s.advance t u).stc = s.stc := rfl
@[simp] theorem State.advance_hub (s : State) (t : Slat) (u : Issue) : (s.advance t u).hub = s.hub := rfl
@[simp] theorem State.advance_fab (s : State) (t : Slat) (u : Issue) : (s.advance t u).fab = s.fab := rfl
@[simp] theorem State.advance_trust (s : State) (t : Slat) (u : Issue) : (s.advance t u).trust = s.trust := rfl
@[simp] theorem State.advance_boot (s : State) (t : Slat) (u : Issue) : (s.advance t u).boot = s.boot := rfl
@[simp] theorem State.advance_host (s : State) (t : Slat) (u : Issue) : (s.advance t u).host = s.host := rfl
@[simp] theorem State.advance_past (s : State) (t : Slat) (u : Issue) : (s.advance t u).past = s.past := rfl
@[simp] theorem State.advance_answers (s : State) (t : Slat) (u : Issue) : (s.advance t u).answers = s.answers := rfl

@[simp] theorem State.modSlat_now (s : State) (uid : Nat) (g : Slat → Slat) : (s.modSlat uid g).now = s.now := by
  simp only [State.modSlat]; split <;> rfl
@[simp] theorem State.modSlat_agenda (s : State) (uid : Nat) (g : Slat → Slat) : (s.modSlat uid g).agenda = s.agenda := by
  simp only [State.modSlat]; split <;> rfl
@[simp] theorem State.modSlat_focus (s : State) (uid : Nat) (g : Slat → Slat) : (s.modSlat uid g).focus = s.focus := by
  simp only [State.modSlat]; split <;> rfl
@[simp] theorem State.modSlat_snap (s : State) (uid : Nat) (g : Slat → Slat) : (s.modSlat uid g).snap = s.snap := by
  simp only [State.modSlat]; split <;> rfl
@[simp] theorem State.modSlat_free (s : State) (uid : Nat) (g : Slat → Slat) : (s.modSlat uid g).free = s.free := by
  simp only [State.modSlat]; split <;> rfl
@[simp] theorem State.modSlat_next (s : State) (uid : Nat) (g : Slat → Slat) : (s.modSlat uid g).next = s.next := by
  simp only [State.modSlat]; split <;> rfl
@[simp] theorem State.modSlat_cores (s : State) (uid : Nat) (g : Slat → Slat) : (s.modSlat uid g).cores = s.cores := by
  simp only [State.modSlat]; split <;> rfl
@[simp] theorem State.modSlat_teams (s : State) (uid : Nat) (g : Slat → Slat) : (s.modSlat uid g).teams = s.teams := by
  simp only [State.modSlat]; split <;> rfl
@[simp] theorem State.modSlat_dieTlb (s : State) (uid : Nat) (g : Slat → Slat) : (s.modSlat uid g).dieTlb = s.dieTlb := by
  simp only [State.modSlat]; split <;> rfl
@[simp] theorem State.modSlat_mem (s : State) (uid : Nat) (g : Slat → Slat) : (s.modSlat uid g).mem = s.mem := by
  simp only [State.modSlat]; split <;> rfl
@[simp] theorem State.modSlat_marks (s : State) (uid : Nat) (g : Slat → Slat) : (s.modSlat uid g).marks = s.marks := by
  simp only [State.modSlat]; split <;> rfl
@[simp] theorem State.modSlat_home (s : State) (uid : Nat) (g : Slat → Slat) : (s.modSlat uid g).home = s.home := by
  simp only [State.modSlat]; split <;> rfl
@[simp] theorem State.modSlat_links (s : State) (uid : Nat) (g : Slat → Slat) : (s.modSlat uid g).links = s.links := by
  simp only [State.modSlat]; split <;> rfl
@[simp] theorem State.modSlat_stc (s : State) (uid : Nat) (g : Slat → Slat) : (s.modSlat uid g).stc = s.stc := by
  simp only [State.modSlat]; split <;> rfl
@[simp] theorem State.modSlat_hub (s : State) (uid : Nat) (g : Slat → Slat) : (s.modSlat uid g).hub = s.hub := by
  simp only [State.modSlat]; split <;> rfl
@[simp] theorem State.modSlat_fab (s : State) (uid : Nat) (g : Slat → Slat) : (s.modSlat uid g).fab = s.fab := by
  simp only [State.modSlat]; split <;> rfl
@[simp] theorem State.modSlat_trust (s : State) (uid : Nat) (g : Slat → Slat) : (s.modSlat uid g).trust = s.trust := by
  simp only [State.modSlat]; split <;> rfl
@[simp] theorem State.modSlat_boot (s : State) (uid : Nat) (g : Slat → Slat) : (s.modSlat uid g).boot = s.boot := by
  simp only [State.modSlat]; split <;> rfl
@[simp] theorem State.modSlat_host (s : State) (uid : Nat) (g : Slat → Slat) : (s.modSlat uid g).host = s.host := by
  simp only [State.modSlat]; split <;> rfl
@[simp] theorem State.modSlat_past (s : State) (uid : Nat) (g : Slat → Slat) : (s.modSlat uid g).past = s.past := by
  simp only [State.modSlat]; split <;> rfl
@[simp] theorem State.modSlat_answers (s : State) (uid : Nat) (g : Slat → Slat) : (s.modSlat uid g).answers = s.answers := by
  simp only [State.modSlat]; split <;> rfl

@[simp] theorem Slat.vput_uid (t : Slat) (n l : Nat) (x : W32) (m : Bool) : (t.vput n l x m).uid = t.uid := rfl
@[simp] theorem Slat.vput_core (t : Slat) (n l : Nat) (x : W32) (m : Bool) : (t.vput n l x m).core = t.core := rfl
@[simp] theorem Slat.vput_slot (t : Slat) (n l : Nat) (x : W32) (m : Bool) : (t.vput n l x m).slot = t.slot := rfl
@[simp] theorem Slat.vput_team (t : Slat) (n l : Nat) (x : W32) (m : Bool) : (t.vput n l x m).team = t.team := rfl
@[simp] theorem Slat.vput_idx (t : Slat) (n l : Nat) (x : W32) (m : Bool) : (t.vput n l x m).idx = t.idx := rfl
@[simp] theorem Slat.vput_grid (t : Slat) (n l : Nat) (x : W32) (m : Bool) : (t.vput n l x m).grid = t.grid := rfl
@[simp] theorem Slat.vput_fn (t : Slat) (n l : Nat) (x : W32) (m : Bool) : (t.vput n l x m).fn = t.fn := rfl
@[simp] theorem Slat.vput_ctx (t : Slat) (n l : Nat) (x : W32) (m : Bool) : (t.vput n l x m).ctx = t.ctx := rfl
@[simp] theorem Slat.vput_part (t : Slat) (n l : Nat) (x : W32) (m : Bool) : (t.vput n l x m).part = t.part := rfl
@[simp] theorem Slat.vput_level (t : Slat) (n l : Nat) (x : W32) (m : Bool) : (t.vput n l x m).level = t.level := rfl
@[simp] theorem Slat.vput_text (t : Slat) (n l : Nat) (x : W32) (m : Bool) : (t.vput n l x m).text = t.text := rfl
@[simp] theorem Slat.vput_tlen (t : Slat) (n l : Nat) (x : W32) (m : Bool) : (t.vput n l x m).tlen = t.tlen := rfl
@[simp] theorem Slat.vput_v (t : Slat) (n l : Nat) (x : W32) (m : Bool) : (t.vput n l x m).v = Sys2Proof.sput t.v (32 * n + l) x := rfl
@[simp] theorem Slat.vput_vp (t : Slat) (n l : Nat) (x : W32) (m : Bool) : (t.vput n l x m).vp = cput false t.vp (32 * n + l) m := rfl
@[simp] theorem Slat.vput_s (t : Slat) (n l : Nat) (x : W32) (m : Bool) : (t.vput n l x m).s = t.s := rfl
@[simp] theorem Slat.vput_sp (t : Slat) (n l : Nat) (x : W32) (m : Bool) : (t.vput n l x m).sp = t.sp := rfl
@[simp] theorem Slat.vput_p (t : Slat) (n l : Nat) (x : W32) (m : Bool) : (t.vput n l x m).p = t.p := rfl
@[simp] theorem Slat.vput_q (t : Slat) (n l : Nat) (x : W32) (m : Bool) : (t.vput n l x m).q = t.q := rfl
@[simp] theorem Slat.vput_b (t : Slat) (n l : Nat) (x : W32) (m : Bool) : (t.vput n l x m).b = t.b := rfl
@[simp] theorem Slat.vput_width (t : Slat) (n l : Nat) (x : W32) (m : Bool) : (t.vput n l x m).width = t.width := rfl
@[simp] theorem Slat.vput_d (t : Slat) (n l : Nat) (x : W32) (m : Bool) : (t.vput n l x m).d = t.d := rfl
@[simp] theorem Slat.vput_split (t : Slat) (n l : Nat) (x : W32) (m : Bool) : (t.vput n l x m).split = t.split := rfl
@[simp] theorem Slat.vput_recs (t : Slat) (n l : Nat) (x : W32) (m : Bool) : (t.vput n l x m).recs = t.recs := rfl
@[simp] theorem Slat.vput_log (t : Slat) (n l : Nat) (x : W32) (m : Bool) : (t.vput n l x m).log = t.log := rfl
@[simp] theorem Slat.vput_queue (t : Slat) (n l : Nat) (x : W32) (m : Bool) : (t.vput n l x m).queue = t.queue := rfl
@[simp] theorem Slat.vput_insts (t : Slat) (n l : Nat) (x : W32) (m : Bool) : (t.vput n l x m).insts = t.insts := rfl
@[simp] theorem Slat.vput_tvec (t : Slat) (n l : Nat) (x : W32) (m : Bool) : (t.vput n l x m).tvec = t.tvec := rfl
@[simp] theorem Slat.vput_tepc (t : Slat) (n l : Nat) (x : W32) (m : Bool) : (t.vput n l x m).tepc = t.tepc := rfl
@[simp] theorem Slat.vput_tinfo (t : Slat) (n l : Nat) (x : W32) (m : Bool) : (t.vput n l x m).tinfo = t.tinfo := rfl
@[simp] theorem Slat.vput_tcause (t : Slat) (n l : Nat) (x : W32) (m : Bool) : (t.vput n l x m).tcause = t.tcause := rfl
@[simp] theorem Slat.vput_inh (t : Slat) (n l : Nat) (x : W32) (m : Bool) : (t.vput n l x m).inh = t.inh := rfl
@[simp] theorem Slat.vput_hand (t : Slat) (n l : Nat) (x : W32) (m : Bool) : (t.vput n l x m).hand = t.hand := rfl
@[simp] theorem Slat.vput_slim (t : Slat) (n l : Nat) (x : W32) (m : Bool) : (t.vput n l x m).slim = t.slim := rfl
@[simp] theorem Slat.vput_bst (t : Slat) (n l : Nat) (x : W32) (m : Bool) : (t.vput n l x m).bst = t.bst := rfl
@[simp] theorem Slat.vput_fst (t : Slat) (n l : Nat) (x : W32) (m : Bool) : (t.vput n l x m).fst = t.fst := rfl
@[simp] theorem Slat.vput_pend (t : Slat) (n l : Nat) (x : W32) (m : Bool) : (t.vput n l x m).pend = t.pend := rfl
@[simp] theorem Slat.vput_park (t : Slat) (n l : Nat) (x : W32) (m : Bool) : (t.vput n l x m).park = t.park := rfl
@[simp] theorem Slat.vput_parkArg (t : Slat) (n l : Nat) (x : W32) (m : Bool) : (t.vput n l x m).parkArg = t.parkArg := rfl
@[simp] theorem Slat.vput_parkDst (t : Slat) (n l : Nat) (x : W32) (m : Bool) : (t.vput n l x m).parkDst = t.parkDst := rfl
@[simp] theorem Slat.vput_parkAt (t : Slat) (n l : Nat) (x : W32) (m : Bool) : (t.vput n l x m).parkAt = t.parkAt := rfl
@[simp] theorem Slat.vput_watch (t : Slat) (n l : Nat) (x : W32) (m : Bool) : (t.vput n l x m).watch = t.watch := rfl
@[simp] theorem Slat.vput_issue (t : Slat) (n l : Nat) (x : W32) (m : Bool) : (t.vput n l x m).issue = t.issue := rfl
@[simp] theorem Slat.vput_accd (t : Slat) (n l : Nat) (x : W32) (m : Bool) : (t.vput n l x m).accd = t.accd := rfl
@[simp] theorem Slat.vput_told (t : Slat) (n l : Nat) (x : W32) (m : Bool) : (t.vput n l x m).told = t.told := rfl
@[simp] theorem Slat.vput_begun (t : Slat) (n l : Nat) (x : W32) (m : Bool) : (t.vput n l x m).begun = t.begun := rfl
@[simp] theorem Slat.vput_redo (t : Slat) (n l : Nat) (x : W32) (m : Bool) : (t.vput n l x m).redo = t.redo := rfl
@[simp] theorem Slat.vput_bars (t : Slat) (n l : Nat) (x : W32) (m : Bool) : (t.vput n l x m).bars = t.bars := rfl
@[simp] theorem Slat.vput_ended (t : Slat) (n l : Nat) (x : W32) (m : Bool) : (t.vput n l x m).ended = t.ended := rfl

@[simp] theorem Slat.sput_uid (t : Slat) (n : Nat) (x : W64) (m : Bool) : (t.sput n x m).uid = t.uid := rfl
@[simp] theorem Slat.sput_core (t : Slat) (n : Nat) (x : W64) (m : Bool) : (t.sput n x m).core = t.core := rfl
@[simp] theorem Slat.sput_slot (t : Slat) (n : Nat) (x : W64) (m : Bool) : (t.sput n x m).slot = t.slot := rfl
@[simp] theorem Slat.sput_team (t : Slat) (n : Nat) (x : W64) (m : Bool) : (t.sput n x m).team = t.team := rfl
@[simp] theorem Slat.sput_idx (t : Slat) (n : Nat) (x : W64) (m : Bool) : (t.sput n x m).idx = t.idx := rfl
@[simp] theorem Slat.sput_grid (t : Slat) (n : Nat) (x : W64) (m : Bool) : (t.sput n x m).grid = t.grid := rfl
@[simp] theorem Slat.sput_fn (t : Slat) (n : Nat) (x : W64) (m : Bool) : (t.sput n x m).fn = t.fn := rfl
@[simp] theorem Slat.sput_ctx (t : Slat) (n : Nat) (x : W64) (m : Bool) : (t.sput n x m).ctx = t.ctx := rfl
@[simp] theorem Slat.sput_part (t : Slat) (n : Nat) (x : W64) (m : Bool) : (t.sput n x m).part = t.part := rfl
@[simp] theorem Slat.sput_level (t : Slat) (n : Nat) (x : W64) (m : Bool) : (t.sput n x m).level = t.level := rfl
@[simp] theorem Slat.sput_text (t : Slat) (n : Nat) (x : W64) (m : Bool) : (t.sput n x m).text = t.text := rfl
@[simp] theorem Slat.sput_tlen (t : Slat) (n : Nat) (x : W64) (m : Bool) : (t.sput n x m).tlen = t.tlen := rfl
@[simp] theorem Slat.sput_v (t : Slat) (n : Nat) (x : W64) (m : Bool) : (t.sput n x m).v = t.v := rfl
@[simp] theorem Slat.sput_vp (t : Slat) (n : Nat) (x : W64) (m : Bool) : (t.sput n x m).vp = t.vp := rfl
@[simp] theorem Slat.sput_s (t : Slat) (n : Nat) (x : W64) (m : Bool) : (t.sput n x m).s = Sys2Proof.sput t.s n x := rfl
@[simp] theorem Slat.sput_sp (t : Slat) (n : Nat) (x : W64) (m : Bool) : (t.sput n x m).sp = cput false t.sp n m := rfl
@[simp] theorem Slat.sput_p (t : Slat) (n : Nat) (x : W64) (m : Bool) : (t.sput n x m).p = t.p := rfl
@[simp] theorem Slat.sput_q (t : Slat) (n : Nat) (x : W64) (m : Bool) : (t.sput n x m).q = t.q := rfl
@[simp] theorem Slat.sput_b (t : Slat) (n : Nat) (x : W64) (m : Bool) : (t.sput n x m).b = t.b := rfl
@[simp] theorem Slat.sput_width (t : Slat) (n : Nat) (x : W64) (m : Bool) : (t.sput n x m).width = t.width := rfl
@[simp] theorem Slat.sput_d (t : Slat) (n : Nat) (x : W64) (m : Bool) : (t.sput n x m).d = t.d := rfl
@[simp] theorem Slat.sput_split (t : Slat) (n : Nat) (x : W64) (m : Bool) : (t.sput n x m).split = t.split := rfl
@[simp] theorem Slat.sput_recs (t : Slat) (n : Nat) (x : W64) (m : Bool) : (t.sput n x m).recs = t.recs := rfl
@[simp] theorem Slat.sput_log (t : Slat) (n : Nat) (x : W64) (m : Bool) : (t.sput n x m).log = t.log := rfl
@[simp] theorem Slat.sput_queue (t : Slat) (n : Nat) (x : W64) (m : Bool) : (t.sput n x m).queue = t.queue := rfl
@[simp] theorem Slat.sput_insts (t : Slat) (n : Nat) (x : W64) (m : Bool) : (t.sput n x m).insts = t.insts := rfl
@[simp] theorem Slat.sput_tvec (t : Slat) (n : Nat) (x : W64) (m : Bool) : (t.sput n x m).tvec = t.tvec := rfl
@[simp] theorem Slat.sput_tepc (t : Slat) (n : Nat) (x : W64) (m : Bool) : (t.sput n x m).tepc = t.tepc := rfl
@[simp] theorem Slat.sput_tinfo (t : Slat) (n : Nat) (x : W64) (m : Bool) : (t.sput n x m).tinfo = t.tinfo := rfl
@[simp] theorem Slat.sput_tcause (t : Slat) (n : Nat) (x : W64) (m : Bool) : (t.sput n x m).tcause = t.tcause := rfl
@[simp] theorem Slat.sput_inh (t : Slat) (n : Nat) (x : W64) (m : Bool) : (t.sput n x m).inh = t.inh := rfl
@[simp] theorem Slat.sput_hand (t : Slat) (n : Nat) (x : W64) (m : Bool) : (t.sput n x m).hand = t.hand := rfl
@[simp] theorem Slat.sput_slim (t : Slat) (n : Nat) (x : W64) (m : Bool) : (t.sput n x m).slim = t.slim := rfl
@[simp] theorem Slat.sput_bst (t : Slat) (n : Nat) (x : W64) (m : Bool) : (t.sput n x m).bst = t.bst := rfl
@[simp] theorem Slat.sput_fst (t : Slat) (n : Nat) (x : W64) (m : Bool) : (t.sput n x m).fst = t.fst := rfl
@[simp] theorem Slat.sput_pend (t : Slat) (n : Nat) (x : W64) (m : Bool) : (t.sput n x m).pend = t.pend := rfl
@[simp] theorem Slat.sput_park (t : Slat) (n : Nat) (x : W64) (m : Bool) : (t.sput n x m).park = t.park := rfl
@[simp] theorem Slat.sput_parkArg (t : Slat) (n : Nat) (x : W64) (m : Bool) : (t.sput n x m).parkArg = t.parkArg := rfl
@[simp] theorem Slat.sput_parkDst (t : Slat) (n : Nat) (x : W64) (m : Bool) : (t.sput n x m).parkDst = t.parkDst := rfl
@[simp] theorem Slat.sput_parkAt (t : Slat) (n : Nat) (x : W64) (m : Bool) : (t.sput n x m).parkAt = t.parkAt := rfl
@[simp] theorem Slat.sput_watch (t : Slat) (n : Nat) (x : W64) (m : Bool) : (t.sput n x m).watch = t.watch := rfl
@[simp] theorem Slat.sput_issue (t : Slat) (n : Nat) (x : W64) (m : Bool) : (t.sput n x m).issue = t.issue := rfl
@[simp] theorem Slat.sput_accd (t : Slat) (n : Nat) (x : W64) (m : Bool) : (t.sput n x m).accd = t.accd := rfl
@[simp] theorem Slat.sput_told (t : Slat) (n : Nat) (x : W64) (m : Bool) : (t.sput n x m).told = t.told := rfl
@[simp] theorem Slat.sput_begun (t : Slat) (n : Nat) (x : W64) (m : Bool) : (t.sput n x m).begun = t.begun := rfl
@[simp] theorem Slat.sput_redo (t : Slat) (n : Nat) (x : W64) (m : Bool) : (t.sput n x m).redo = t.redo := rfl
@[simp] theorem Slat.sput_bars (t : Slat) (n : Nat) (x : W64) (m : Bool) : (t.sput n x m).bars = t.bars := rfl
@[simp] theorem Slat.sput_ended (t : Slat) (n : Nat) (x : W64) (m : Bool) : (t.sput n x m).ended = t.ended := rfl

@[simp] theorem Slat.pput_uid (t : Slat) (n : Nat) (lanes vals : W32) : (t.pput n lanes vals).uid = t.uid := rfl
@[simp] theorem Slat.pput_core (t : Slat) (n : Nat) (lanes vals : W32) : (t.pput n lanes vals).core = t.core := rfl
@[simp] theorem Slat.pput_slot (t : Slat) (n : Nat) (lanes vals : W32) : (t.pput n lanes vals).slot = t.slot := rfl
@[simp] theorem Slat.pput_team (t : Slat) (n : Nat) (lanes vals : W32) : (t.pput n lanes vals).team = t.team := rfl
@[simp] theorem Slat.pput_idx (t : Slat) (n : Nat) (lanes vals : W32) : (t.pput n lanes vals).idx = t.idx := rfl
@[simp] theorem Slat.pput_grid (t : Slat) (n : Nat) (lanes vals : W32) : (t.pput n lanes vals).grid = t.grid := rfl
@[simp] theorem Slat.pput_fn (t : Slat) (n : Nat) (lanes vals : W32) : (t.pput n lanes vals).fn = t.fn := rfl
@[simp] theorem Slat.pput_ctx (t : Slat) (n : Nat) (lanes vals : W32) : (t.pput n lanes vals).ctx = t.ctx := rfl
@[simp] theorem Slat.pput_part (t : Slat) (n : Nat) (lanes vals : W32) : (t.pput n lanes vals).part = t.part := rfl
@[simp] theorem Slat.pput_level (t : Slat) (n : Nat) (lanes vals : W32) : (t.pput n lanes vals).level = t.level := rfl
@[simp] theorem Slat.pput_text (t : Slat) (n : Nat) (lanes vals : W32) : (t.pput n lanes vals).text = t.text := rfl
@[simp] theorem Slat.pput_tlen (t : Slat) (n : Nat) (lanes vals : W32) : (t.pput n lanes vals).tlen = t.tlen := rfl
@[simp] theorem Slat.pput_v (t : Slat) (n : Nat) (lanes vals : W32) : (t.pput n lanes vals).v = t.v := rfl
@[simp] theorem Slat.pput_vp (t : Slat) (n : Nat) (lanes vals : W32) : (t.pput n lanes vals).vp = t.vp := rfl
@[simp] theorem Slat.pput_s (t : Slat) (n : Nat) (lanes vals : W32) : (t.pput n lanes vals).s = t.s := rfl
@[simp] theorem Slat.pput_sp (t : Slat) (n : Nat) (lanes vals : W32) : (t.pput n lanes vals).sp = t.sp := rfl
@[simp] theorem Slat.pput_p (t : Slat) (n : Nat) (lanes vals : W32) : (t.pput n lanes vals).p = Sys2Proof.sput t.p n ((t.pmask n &&& ~~~lanes) ||| (vals &&& lanes)) := rfl
@[simp] theorem Slat.pput_q (t : Slat) (n : Nat) (lanes vals : W32) : (t.pput n lanes vals).q = t.q := rfl
@[simp] theorem Slat.pput_b (t : Slat) (n : Nat) (lanes vals : W32) : (t.pput n lanes vals).b = t.b := rfl
@[simp] theorem Slat.pput_width (t : Slat) (n : Nat) (lanes vals : W32) : (t.pput n lanes vals).width = t.width := rfl
@[simp] theorem Slat.pput_d (t : Slat) (n : Nat) (lanes vals : W32) : (t.pput n lanes vals).d = t.d := rfl
@[simp] theorem Slat.pput_split (t : Slat) (n : Nat) (lanes vals : W32) : (t.pput n lanes vals).split = t.split := rfl
@[simp] theorem Slat.pput_recs (t : Slat) (n : Nat) (lanes vals : W32) : (t.pput n lanes vals).recs = t.recs := rfl
@[simp] theorem Slat.pput_log (t : Slat) (n : Nat) (lanes vals : W32) : (t.pput n lanes vals).log = t.log := rfl
@[simp] theorem Slat.pput_queue (t : Slat) (n : Nat) (lanes vals : W32) : (t.pput n lanes vals).queue = t.queue := rfl
@[simp] theorem Slat.pput_insts (t : Slat) (n : Nat) (lanes vals : W32) : (t.pput n lanes vals).insts = t.insts := rfl
@[simp] theorem Slat.pput_tvec (t : Slat) (n : Nat) (lanes vals : W32) : (t.pput n lanes vals).tvec = t.tvec := rfl
@[simp] theorem Slat.pput_tepc (t : Slat) (n : Nat) (lanes vals : W32) : (t.pput n lanes vals).tepc = t.tepc := rfl
@[simp] theorem Slat.pput_tinfo (t : Slat) (n : Nat) (lanes vals : W32) : (t.pput n lanes vals).tinfo = t.tinfo := rfl
@[simp] theorem Slat.pput_tcause (t : Slat) (n : Nat) (lanes vals : W32) : (t.pput n lanes vals).tcause = t.tcause := rfl
@[simp] theorem Slat.pput_inh (t : Slat) (n : Nat) (lanes vals : W32) : (t.pput n lanes vals).inh = t.inh := rfl
@[simp] theorem Slat.pput_hand (t : Slat) (n : Nat) (lanes vals : W32) : (t.pput n lanes vals).hand = t.hand := rfl
@[simp] theorem Slat.pput_slim (t : Slat) (n : Nat) (lanes vals : W32) : (t.pput n lanes vals).slim = t.slim := rfl
@[simp] theorem Slat.pput_bst (t : Slat) (n : Nat) (lanes vals : W32) : (t.pput n lanes vals).bst = t.bst := rfl
@[simp] theorem Slat.pput_fst (t : Slat) (n : Nat) (lanes vals : W32) : (t.pput n lanes vals).fst = t.fst := rfl
@[simp] theorem Slat.pput_pend (t : Slat) (n : Nat) (lanes vals : W32) : (t.pput n lanes vals).pend = t.pend := rfl
@[simp] theorem Slat.pput_park (t : Slat) (n : Nat) (lanes vals : W32) : (t.pput n lanes vals).park = t.park := rfl
@[simp] theorem Slat.pput_parkArg (t : Slat) (n : Nat) (lanes vals : W32) : (t.pput n lanes vals).parkArg = t.parkArg := rfl
@[simp] theorem Slat.pput_parkDst (t : Slat) (n : Nat) (lanes vals : W32) : (t.pput n lanes vals).parkDst = t.parkDst := rfl
@[simp] theorem Slat.pput_parkAt (t : Slat) (n : Nat) (lanes vals : W32) : (t.pput n lanes vals).parkAt = t.parkAt := rfl
@[simp] theorem Slat.pput_watch (t : Slat) (n : Nat) (lanes vals : W32) : (t.pput n lanes vals).watch = t.watch := rfl
@[simp] theorem Slat.pput_issue (t : Slat) (n : Nat) (lanes vals : W32) : (t.pput n lanes vals).issue = t.issue := rfl
@[simp] theorem Slat.pput_accd (t : Slat) (n : Nat) (lanes vals : W32) : (t.pput n lanes vals).accd = t.accd := rfl
@[simp] theorem Slat.pput_told (t : Slat) (n : Nat) (lanes vals : W32) : (t.pput n lanes vals).told = t.told := rfl
@[simp] theorem Slat.pput_begun (t : Slat) (n : Nat) (lanes vals : W32) : (t.pput n lanes vals).begun = t.begun := rfl
@[simp] theorem Slat.pput_redo (t : Slat) (n : Nat) (lanes vals : W32) : (t.pput n lanes vals).redo = t.redo := rfl
@[simp] theorem Slat.pput_bars (t : Slat) (n : Nat) (lanes vals : W32) : (t.pput n lanes vals).bars = t.bars := rfl
@[simp] theorem Slat.pput_ended (t : Slat) (n : Nat) (lanes vals : W32) : (t.pput n lanes vals).ended = t.ended := rfl

@[simp] theorem Slat.qput_uid (t : Slat) (n : Nat) (x : Bool) : (t.qput n x).uid = t.uid := rfl
@[simp] theorem Slat.qput_core (t : Slat) (n : Nat) (x : Bool) : (t.qput n x).core = t.core := rfl
@[simp] theorem Slat.qput_slot (t : Slat) (n : Nat) (x : Bool) : (t.qput n x).slot = t.slot := rfl
@[simp] theorem Slat.qput_team (t : Slat) (n : Nat) (x : Bool) : (t.qput n x).team = t.team := rfl
@[simp] theorem Slat.qput_idx (t : Slat) (n : Nat) (x : Bool) : (t.qput n x).idx = t.idx := rfl
@[simp] theorem Slat.qput_grid (t : Slat) (n : Nat) (x : Bool) : (t.qput n x).grid = t.grid := rfl
@[simp] theorem Slat.qput_fn (t : Slat) (n : Nat) (x : Bool) : (t.qput n x).fn = t.fn := rfl
@[simp] theorem Slat.qput_ctx (t : Slat) (n : Nat) (x : Bool) : (t.qput n x).ctx = t.ctx := rfl
@[simp] theorem Slat.qput_part (t : Slat) (n : Nat) (x : Bool) : (t.qput n x).part = t.part := rfl
@[simp] theorem Slat.qput_level (t : Slat) (n : Nat) (x : Bool) : (t.qput n x).level = t.level := rfl
@[simp] theorem Slat.qput_text (t : Slat) (n : Nat) (x : Bool) : (t.qput n x).text = t.text := rfl
@[simp] theorem Slat.qput_tlen (t : Slat) (n : Nat) (x : Bool) : (t.qput n x).tlen = t.tlen := rfl
@[simp] theorem Slat.qput_v (t : Slat) (n : Nat) (x : Bool) : (t.qput n x).v = t.v := rfl
@[simp] theorem Slat.qput_vp (t : Slat) (n : Nat) (x : Bool) : (t.qput n x).vp = t.vp := rfl
@[simp] theorem Slat.qput_s (t : Slat) (n : Nat) (x : Bool) : (t.qput n x).s = t.s := rfl
@[simp] theorem Slat.qput_sp (t : Slat) (n : Nat) (x : Bool) : (t.qput n x).sp = t.sp := rfl
@[simp] theorem Slat.qput_p (t : Slat) (n : Nat) (x : Bool) : (t.qput n x).p = t.p := rfl
@[simp] theorem Slat.qput_q (t : Slat) (n : Nat) (x : Bool) : (t.qput n x).q = if x then t.q ||| (1#7 <<< n) else t.q &&& ~~~(1#7 <<< n) := rfl
@[simp] theorem Slat.qput_b (t : Slat) (n : Nat) (x : Bool) : (t.qput n x).b = t.b := rfl
@[simp] theorem Slat.qput_width (t : Slat) (n : Nat) (x : Bool) : (t.qput n x).width = t.width := rfl
@[simp] theorem Slat.qput_d (t : Slat) (n : Nat) (x : Bool) : (t.qput n x).d = t.d := rfl
@[simp] theorem Slat.qput_split (t : Slat) (n : Nat) (x : Bool) : (t.qput n x).split = t.split := rfl
@[simp] theorem Slat.qput_recs (t : Slat) (n : Nat) (x : Bool) : (t.qput n x).recs = t.recs := rfl
@[simp] theorem Slat.qput_log (t : Slat) (n : Nat) (x : Bool) : (t.qput n x).log = t.log := rfl
@[simp] theorem Slat.qput_queue (t : Slat) (n : Nat) (x : Bool) : (t.qput n x).queue = t.queue := rfl
@[simp] theorem Slat.qput_insts (t : Slat) (n : Nat) (x : Bool) : (t.qput n x).insts = t.insts := rfl
@[simp] theorem Slat.qput_tvec (t : Slat) (n : Nat) (x : Bool) : (t.qput n x).tvec = t.tvec := rfl
@[simp] theorem Slat.qput_tepc (t : Slat) (n : Nat) (x : Bool) : (t.qput n x).tepc = t.tepc := rfl
@[simp] theorem Slat.qput_tinfo (t : Slat) (n : Nat) (x : Bool) : (t.qput n x).tinfo = t.tinfo := rfl
@[simp] theorem Slat.qput_tcause (t : Slat) (n : Nat) (x : Bool) : (t.qput n x).tcause = t.tcause := rfl
@[simp] theorem Slat.qput_inh (t : Slat) (n : Nat) (x : Bool) : (t.qput n x).inh = t.inh := rfl
@[simp] theorem Slat.qput_hand (t : Slat) (n : Nat) (x : Bool) : (t.qput n x).hand = t.hand := rfl
@[simp] theorem Slat.qput_slim (t : Slat) (n : Nat) (x : Bool) : (t.qput n x).slim = t.slim := rfl
@[simp] theorem Slat.qput_bst (t : Slat) (n : Nat) (x : Bool) : (t.qput n x).bst = t.bst := rfl
@[simp] theorem Slat.qput_fst (t : Slat) (n : Nat) (x : Bool) : (t.qput n x).fst = t.fst := rfl
@[simp] theorem Slat.qput_pend (t : Slat) (n : Nat) (x : Bool) : (t.qput n x).pend = t.pend := rfl
@[simp] theorem Slat.qput_park (t : Slat) (n : Nat) (x : Bool) : (t.qput n x).park = t.park := rfl
@[simp] theorem Slat.qput_parkArg (t : Slat) (n : Nat) (x : Bool) : (t.qput n x).parkArg = t.parkArg := rfl
@[simp] theorem Slat.qput_parkDst (t : Slat) (n : Nat) (x : Bool) : (t.qput n x).parkDst = t.parkDst := rfl
@[simp] theorem Slat.qput_parkAt (t : Slat) (n : Nat) (x : Bool) : (t.qput n x).parkAt = t.parkAt := rfl
@[simp] theorem Slat.qput_watch (t : Slat) (n : Nat) (x : Bool) : (t.qput n x).watch = t.watch := rfl
@[simp] theorem Slat.qput_issue (t : Slat) (n : Nat) (x : Bool) : (t.qput n x).issue = t.issue := rfl
@[simp] theorem Slat.qput_accd (t : Slat) (n : Nat) (x : Bool) : (t.qput n x).accd = t.accd := rfl
@[simp] theorem Slat.qput_told (t : Slat) (n : Nat) (x : Bool) : (t.qput n x).told = t.told := rfl
@[simp] theorem Slat.qput_begun (t : Slat) (n : Nat) (x : Bool) : (t.qput n x).begun = t.begun := rfl
@[simp] theorem Slat.qput_redo (t : Slat) (n : Nat) (x : Bool) : (t.qput n x).redo = t.redo := rfl
@[simp] theorem Slat.qput_bars (t : Slat) (n : Nat) (x : Bool) : (t.qput n x).bars = t.bars := rfl
@[simp] theorem Slat.qput_ended (t : Slat) (n : Nat) (x : Bool) : (t.qput n x).ended = t.ended := rfl

@[simp] theorem Slat.bput_uid (t : Slat) (n : Nat) (x : TReg) : (t.bput n x).uid = t.uid := rfl
@[simp] theorem Slat.bput_core (t : Slat) (n : Nat) (x : TReg) : (t.bput n x).core = t.core := rfl
@[simp] theorem Slat.bput_slot (t : Slat) (n : Nat) (x : TReg) : (t.bput n x).slot = t.slot := rfl
@[simp] theorem Slat.bput_team (t : Slat) (n : Nat) (x : TReg) : (t.bput n x).team = t.team := rfl
@[simp] theorem Slat.bput_idx (t : Slat) (n : Nat) (x : TReg) : (t.bput n x).idx = t.idx := rfl
@[simp] theorem Slat.bput_grid (t : Slat) (n : Nat) (x : TReg) : (t.bput n x).grid = t.grid := rfl
@[simp] theorem Slat.bput_fn (t : Slat) (n : Nat) (x : TReg) : (t.bput n x).fn = t.fn := rfl
@[simp] theorem Slat.bput_ctx (t : Slat) (n : Nat) (x : TReg) : (t.bput n x).ctx = t.ctx := rfl
@[simp] theorem Slat.bput_part (t : Slat) (n : Nat) (x : TReg) : (t.bput n x).part = t.part := rfl
@[simp] theorem Slat.bput_level (t : Slat) (n : Nat) (x : TReg) : (t.bput n x).level = t.level := rfl
@[simp] theorem Slat.bput_text (t : Slat) (n : Nat) (x : TReg) : (t.bput n x).text = t.text := rfl
@[simp] theorem Slat.bput_tlen (t : Slat) (n : Nat) (x : TReg) : (t.bput n x).tlen = t.tlen := rfl
@[simp] theorem Slat.bput_v (t : Slat) (n : Nat) (x : TReg) : (t.bput n x).v = t.v := rfl
@[simp] theorem Slat.bput_vp (t : Slat) (n : Nat) (x : TReg) : (t.bput n x).vp = t.vp := rfl
@[simp] theorem Slat.bput_s (t : Slat) (n : Nat) (x : TReg) : (t.bput n x).s = t.s := rfl
@[simp] theorem Slat.bput_sp (t : Slat) (n : Nat) (x : TReg) : (t.bput n x).sp = t.sp := rfl
@[simp] theorem Slat.bput_p (t : Slat) (n : Nat) (x : TReg) : (t.bput n x).p = t.p := rfl
@[simp] theorem Slat.bput_q (t : Slat) (n : Nat) (x : TReg) : (t.bput n x).q = t.q := rfl
@[simp] theorem Slat.bput_b (t : Slat) (n : Nat) (x : TReg) : (t.bput n x).b = Sys2Proof.sput t.b n x := rfl
@[simp] theorem Slat.bput_width (t : Slat) (n : Nat) (x : TReg) : (t.bput n x).width = t.width := rfl
@[simp] theorem Slat.bput_d (t : Slat) (n : Nat) (x : TReg) : (t.bput n x).d = t.d := rfl
@[simp] theorem Slat.bput_split (t : Slat) (n : Nat) (x : TReg) : (t.bput n x).split = t.split := rfl
@[simp] theorem Slat.bput_recs (t : Slat) (n : Nat) (x : TReg) : (t.bput n x).recs = t.recs := rfl
@[simp] theorem Slat.bput_log (t : Slat) (n : Nat) (x : TReg) : (t.bput n x).log = t.log := rfl
@[simp] theorem Slat.bput_queue (t : Slat) (n : Nat) (x : TReg) : (t.bput n x).queue = t.queue := rfl
@[simp] theorem Slat.bput_insts (t : Slat) (n : Nat) (x : TReg) : (t.bput n x).insts = t.insts := rfl
@[simp] theorem Slat.bput_tvec (t : Slat) (n : Nat) (x : TReg) : (t.bput n x).tvec = t.tvec := rfl
@[simp] theorem Slat.bput_tepc (t : Slat) (n : Nat) (x : TReg) : (t.bput n x).tepc = t.tepc := rfl
@[simp] theorem Slat.bput_tinfo (t : Slat) (n : Nat) (x : TReg) : (t.bput n x).tinfo = t.tinfo := rfl
@[simp] theorem Slat.bput_tcause (t : Slat) (n : Nat) (x : TReg) : (t.bput n x).tcause = t.tcause := rfl
@[simp] theorem Slat.bput_inh (t : Slat) (n : Nat) (x : TReg) : (t.bput n x).inh = t.inh := rfl
@[simp] theorem Slat.bput_hand (t : Slat) (n : Nat) (x : TReg) : (t.bput n x).hand = t.hand := rfl
@[simp] theorem Slat.bput_slim (t : Slat) (n : Nat) (x : TReg) : (t.bput n x).slim = t.slim := rfl
@[simp] theorem Slat.bput_bst (t : Slat) (n : Nat) (x : TReg) : (t.bput n x).bst = t.bst := rfl
@[simp] theorem Slat.bput_fst (t : Slat) (n : Nat) (x : TReg) : (t.bput n x).fst = t.fst := rfl
@[simp] theorem Slat.bput_pend (t : Slat) (n : Nat) (x : TReg) : (t.bput n x).pend = t.pend := rfl
@[simp] theorem Slat.bput_park (t : Slat) (n : Nat) (x : TReg) : (t.bput n x).park = t.park := rfl
@[simp] theorem Slat.bput_parkArg (t : Slat) (n : Nat) (x : TReg) : (t.bput n x).parkArg = t.parkArg := rfl
@[simp] theorem Slat.bput_parkDst (t : Slat) (n : Nat) (x : TReg) : (t.bput n x).parkDst = t.parkDst := rfl
@[simp] theorem Slat.bput_parkAt (t : Slat) (n : Nat) (x : TReg) : (t.bput n x).parkAt = t.parkAt := rfl
@[simp] theorem Slat.bput_watch (t : Slat) (n : Nat) (x : TReg) : (t.bput n x).watch = t.watch := rfl
@[simp] theorem Slat.bput_issue (t : Slat) (n : Nat) (x : TReg) : (t.bput n x).issue = t.issue := rfl
@[simp] theorem Slat.bput_accd (t : Slat) (n : Nat) (x : TReg) : (t.bput n x).accd = t.accd := rfl
@[simp] theorem Slat.bput_told (t : Slat) (n : Nat) (x : TReg) : (t.bput n x).told = t.told := rfl
@[simp] theorem Slat.bput_begun (t : Slat) (n : Nat) (x : TReg) : (t.bput n x).begun = t.begun := rfl
@[simp] theorem Slat.bput_redo (t : Slat) (n : Nat) (x : TReg) : (t.bput n x).redo = t.redo := rfl
@[simp] theorem Slat.bput_bars (t : Slat) (n : Nat) (x : TReg) : (t.bput n x).bars = t.bars := rfl
@[simp] theorem Slat.bput_ended (t : Slat) (n : Nat) (x : TReg) : (t.bput n x).ended = t.ended := rfl

@[simp] theorem Slat.setEnt_uid (t : Slat) (e : Nat) (x : SplitEntry) : (t.setEnt e x).uid = t.uid := rfl
@[simp] theorem Slat.setEnt_core (t : Slat) (e : Nat) (x : SplitEntry) : (t.setEnt e x).core = t.core := rfl
@[simp] theorem Slat.setEnt_slot (t : Slat) (e : Nat) (x : SplitEntry) : (t.setEnt e x).slot = t.slot := rfl
@[simp] theorem Slat.setEnt_team (t : Slat) (e : Nat) (x : SplitEntry) : (t.setEnt e x).team = t.team := rfl
@[simp] theorem Slat.setEnt_idx (t : Slat) (e : Nat) (x : SplitEntry) : (t.setEnt e x).idx = t.idx := rfl
@[simp] theorem Slat.setEnt_grid (t : Slat) (e : Nat) (x : SplitEntry) : (t.setEnt e x).grid = t.grid := rfl
@[simp] theorem Slat.setEnt_fn (t : Slat) (e : Nat) (x : SplitEntry) : (t.setEnt e x).fn = t.fn := rfl
@[simp] theorem Slat.setEnt_ctx (t : Slat) (e : Nat) (x : SplitEntry) : (t.setEnt e x).ctx = t.ctx := rfl
@[simp] theorem Slat.setEnt_part (t : Slat) (e : Nat) (x : SplitEntry) : (t.setEnt e x).part = t.part := rfl
@[simp] theorem Slat.setEnt_level (t : Slat) (e : Nat) (x : SplitEntry) : (t.setEnt e x).level = t.level := rfl
@[simp] theorem Slat.setEnt_text (t : Slat) (e : Nat) (x : SplitEntry) : (t.setEnt e x).text = t.text := rfl
@[simp] theorem Slat.setEnt_tlen (t : Slat) (e : Nat) (x : SplitEntry) : (t.setEnt e x).tlen = t.tlen := rfl
@[simp] theorem Slat.setEnt_v (t : Slat) (e : Nat) (x : SplitEntry) : (t.setEnt e x).v = t.v := rfl
@[simp] theorem Slat.setEnt_vp (t : Slat) (e : Nat) (x : SplitEntry) : (t.setEnt e x).vp = t.vp := rfl
@[simp] theorem Slat.setEnt_s (t : Slat) (e : Nat) (x : SplitEntry) : (t.setEnt e x).s = t.s := rfl
@[simp] theorem Slat.setEnt_sp (t : Slat) (e : Nat) (x : SplitEntry) : (t.setEnt e x).sp = t.sp := rfl
@[simp] theorem Slat.setEnt_p (t : Slat) (e : Nat) (x : SplitEntry) : (t.setEnt e x).p = t.p := rfl
@[simp] theorem Slat.setEnt_q (t : Slat) (e : Nat) (x : SplitEntry) : (t.setEnt e x).q = t.q := rfl
@[simp] theorem Slat.setEnt_b (t : Slat) (e : Nat) (x : SplitEntry) : (t.setEnt e x).b = t.b := rfl
@[simp] theorem Slat.setEnt_width (t : Slat) (e : Nat) (x : SplitEntry) : (t.setEnt e x).width = t.width := rfl
@[simp] theorem Slat.setEnt_d (t : Slat) (e : Nat) (x : SplitEntry) : (t.setEnt e x).d = t.d := rfl
@[simp] theorem Slat.setEnt_split (t : Slat) (e : Nat) (x : SplitEntry) : (t.setEnt e x).split = Sys2Proof.sput t.split e x := rfl
@[simp] theorem Slat.setEnt_recs (t : Slat) (e : Nat) (x : SplitEntry) : (t.setEnt e x).recs = t.recs := rfl
@[simp] theorem Slat.setEnt_log (t : Slat) (e : Nat) (x : SplitEntry) : (t.setEnt e x).log = t.log := rfl
@[simp] theorem Slat.setEnt_queue (t : Slat) (e : Nat) (x : SplitEntry) : (t.setEnt e x).queue = t.queue := rfl
@[simp] theorem Slat.setEnt_insts (t : Slat) (e : Nat) (x : SplitEntry) : (t.setEnt e x).insts = t.insts := rfl
@[simp] theorem Slat.setEnt_tvec (t : Slat) (e : Nat) (x : SplitEntry) : (t.setEnt e x).tvec = t.tvec := rfl
@[simp] theorem Slat.setEnt_tepc (t : Slat) (e : Nat) (x : SplitEntry) : (t.setEnt e x).tepc = t.tepc := rfl
@[simp] theorem Slat.setEnt_tinfo (t : Slat) (e : Nat) (x : SplitEntry) : (t.setEnt e x).tinfo = t.tinfo := rfl
@[simp] theorem Slat.setEnt_tcause (t : Slat) (e : Nat) (x : SplitEntry) : (t.setEnt e x).tcause = t.tcause := rfl
@[simp] theorem Slat.setEnt_inh (t : Slat) (e : Nat) (x : SplitEntry) : (t.setEnt e x).inh = t.inh := rfl
@[simp] theorem Slat.setEnt_hand (t : Slat) (e : Nat) (x : SplitEntry) : (t.setEnt e x).hand = t.hand := rfl
@[simp] theorem Slat.setEnt_slim (t : Slat) (e : Nat) (x : SplitEntry) : (t.setEnt e x).slim = t.slim := rfl
@[simp] theorem Slat.setEnt_bst (t : Slat) (e : Nat) (x : SplitEntry) : (t.setEnt e x).bst = t.bst := rfl
@[simp] theorem Slat.setEnt_fst (t : Slat) (e : Nat) (x : SplitEntry) : (t.setEnt e x).fst = t.fst := rfl
@[simp] theorem Slat.setEnt_pend (t : Slat) (e : Nat) (x : SplitEntry) : (t.setEnt e x).pend = t.pend := rfl
@[simp] theorem Slat.setEnt_park (t : Slat) (e : Nat) (x : SplitEntry) : (t.setEnt e x).park = t.park := rfl
@[simp] theorem Slat.setEnt_parkArg (t : Slat) (e : Nat) (x : SplitEntry) : (t.setEnt e x).parkArg = t.parkArg := rfl
@[simp] theorem Slat.setEnt_parkDst (t : Slat) (e : Nat) (x : SplitEntry) : (t.setEnt e x).parkDst = t.parkDst := rfl
@[simp] theorem Slat.setEnt_parkAt (t : Slat) (e : Nat) (x : SplitEntry) : (t.setEnt e x).parkAt = t.parkAt := rfl
@[simp] theorem Slat.setEnt_watch (t : Slat) (e : Nat) (x : SplitEntry) : (t.setEnt e x).watch = t.watch := rfl
@[simp] theorem Slat.setEnt_issue (t : Slat) (e : Nat) (x : SplitEntry) : (t.setEnt e x).issue = t.issue := rfl
@[simp] theorem Slat.setEnt_accd (t : Slat) (e : Nat) (x : SplitEntry) : (t.setEnt e x).accd = t.accd := rfl
@[simp] theorem Slat.setEnt_told (t : Slat) (e : Nat) (x : SplitEntry) : (t.setEnt e x).told = t.told := rfl
@[simp] theorem Slat.setEnt_begun (t : Slat) (e : Nat) (x : SplitEntry) : (t.setEnt e x).begun = t.begun := rfl
@[simp] theorem Slat.setEnt_redo (t : Slat) (e : Nat) (x : SplitEntry) : (t.setEnt e x).redo = t.redo := rfl
@[simp] theorem Slat.setEnt_bars (t : Slat) (e : Nat) (x : SplitEntry) : (t.setEnt e x).bars = t.bars := rfl
@[simp] theorem Slat.setEnt_ended (t : Slat) (e : Nat) (x : SplitEntry) : (t.setEnt e x).ended = t.ended := rfl

@[simp] theorem Slat.setQent_uid (t : Slat) (e : QEnt) : (t.setQent e).uid = t.uid := rfl
@[simp] theorem Slat.setQent_core (t : Slat) (e : QEnt) : (t.setQent e).core = t.core := rfl
@[simp] theorem Slat.setQent_slot (t : Slat) (e : QEnt) : (t.setQent e).slot = t.slot := rfl
@[simp] theorem Slat.setQent_team (t : Slat) (e : QEnt) : (t.setQent e).team = t.team := rfl
@[simp] theorem Slat.setQent_idx (t : Slat) (e : QEnt) : (t.setQent e).idx = t.idx := rfl
@[simp] theorem Slat.setQent_grid (t : Slat) (e : QEnt) : (t.setQent e).grid = t.grid := rfl
@[simp] theorem Slat.setQent_fn (t : Slat) (e : QEnt) : (t.setQent e).fn = t.fn := rfl
@[simp] theorem Slat.setQent_ctx (t : Slat) (e : QEnt) : (t.setQent e).ctx = t.ctx := rfl
@[simp] theorem Slat.setQent_part (t : Slat) (e : QEnt) : (t.setQent e).part = t.part := rfl
@[simp] theorem Slat.setQent_level (t : Slat) (e : QEnt) : (t.setQent e).level = t.level := rfl
@[simp] theorem Slat.setQent_text (t : Slat) (e : QEnt) : (t.setQent e).text = t.text := rfl
@[simp] theorem Slat.setQent_tlen (t : Slat) (e : QEnt) : (t.setQent e).tlen = t.tlen := rfl
@[simp] theorem Slat.setQent_v (t : Slat) (e : QEnt) : (t.setQent e).v = t.v := rfl
@[simp] theorem Slat.setQent_vp (t : Slat) (e : QEnt) : (t.setQent e).vp = t.vp := rfl
@[simp] theorem Slat.setQent_s (t : Slat) (e : QEnt) : (t.setQent e).s = t.s := rfl
@[simp] theorem Slat.setQent_sp (t : Slat) (e : QEnt) : (t.setQent e).sp = t.sp := rfl
@[simp] theorem Slat.setQent_p (t : Slat) (e : QEnt) : (t.setQent e).p = t.p := rfl
@[simp] theorem Slat.setQent_q (t : Slat) (e : QEnt) : (t.setQent e).q = t.q := rfl
@[simp] theorem Slat.setQent_b (t : Slat) (e : QEnt) : (t.setQent e).b = t.b := rfl
@[simp] theorem Slat.setQent_width (t : Slat) (e : QEnt) : (t.setQent e).width = t.width := rfl
@[simp] theorem Slat.setQent_d (t : Slat) (e : QEnt) : (t.setQent e).d = t.d := rfl
@[simp] theorem Slat.setQent_split (t : Slat) (e : QEnt) : (t.setQent e).split = t.split := rfl
@[simp] theorem Slat.setQent_recs (t : Slat) (e : QEnt) : (t.setQent e).recs = t.recs := rfl
@[simp] theorem Slat.setQent_log (t : Slat) (e : QEnt) : (t.setQent e).log = t.log := rfl
@[simp] theorem Slat.setQent_queue (t : Slat) (e : QEnt) : (t.setQent e).queue = replaceBy QEnt.seq e t.queue := rfl
@[simp] theorem Slat.setQent_insts (t : Slat) (e : QEnt) : (t.setQent e).insts = t.insts := rfl
@[simp] theorem Slat.setQent_tvec (t : Slat) (e : QEnt) : (t.setQent e).tvec = t.tvec := rfl
@[simp] theorem Slat.setQent_tepc (t : Slat) (e : QEnt) : (t.setQent e).tepc = t.tepc := rfl
@[simp] theorem Slat.setQent_tinfo (t : Slat) (e : QEnt) : (t.setQent e).tinfo = t.tinfo := rfl
@[simp] theorem Slat.setQent_tcause (t : Slat) (e : QEnt) : (t.setQent e).tcause = t.tcause := rfl
@[simp] theorem Slat.setQent_inh (t : Slat) (e : QEnt) : (t.setQent e).inh = t.inh := rfl
@[simp] theorem Slat.setQent_hand (t : Slat) (e : QEnt) : (t.setQent e).hand = t.hand := rfl
@[simp] theorem Slat.setQent_slim (t : Slat) (e : QEnt) : (t.setQent e).slim = t.slim := rfl
@[simp] theorem Slat.setQent_bst (t : Slat) (e : QEnt) : (t.setQent e).bst = t.bst := rfl
@[simp] theorem Slat.setQent_fst (t : Slat) (e : QEnt) : (t.setQent e).fst = t.fst := rfl
@[simp] theorem Slat.setQent_pend (t : Slat) (e : QEnt) : (t.setQent e).pend = t.pend := rfl
@[simp] theorem Slat.setQent_park (t : Slat) (e : QEnt) : (t.setQent e).park = t.park := rfl
@[simp] theorem Slat.setQent_parkArg (t : Slat) (e : QEnt) : (t.setQent e).parkArg = t.parkArg := rfl
@[simp] theorem Slat.setQent_parkDst (t : Slat) (e : QEnt) : (t.setQent e).parkDst = t.parkDst := rfl
@[simp] theorem Slat.setQent_parkAt (t : Slat) (e : QEnt) : (t.setQent e).parkAt = t.parkAt := rfl
@[simp] theorem Slat.setQent_watch (t : Slat) (e : QEnt) : (t.setQent e).watch = t.watch := rfl
@[simp] theorem Slat.setQent_issue (t : Slat) (e : QEnt) : (t.setQent e).issue = t.issue := rfl
@[simp] theorem Slat.setQent_accd (t : Slat) (e : QEnt) : (t.setQent e).accd = t.accd := rfl
@[simp] theorem Slat.setQent_told (t : Slat) (e : QEnt) : (t.setQent e).told = t.told := rfl
@[simp] theorem Slat.setQent_begun (t : Slat) (e : QEnt) : (t.setQent e).begun = t.begun := rfl
@[simp] theorem Slat.setQent_redo (t : Slat) (e : QEnt) : (t.setQent e).redo = t.redo := rfl
@[simp] theorem Slat.setQent_bars (t : Slat) (e : QEnt) : (t.setQent e).bars = t.bars := rfl
@[simp] theorem Slat.setQent_ended (t : Slat) (e : QEnt) : (t.setQent e).ended = t.ended := rfl

@[simp] theorem Slat.dropQent_uid (t : Slat) (seq : Nat) : (t.dropQent seq).uid = t.uid := rfl
@[simp] theorem Slat.dropQent_core (t : Slat) (seq : Nat) : (t.dropQent seq).core = t.core := rfl
@[simp] theorem Slat.dropQent_slot (t : Slat) (seq : Nat) : (t.dropQent seq).slot = t.slot := rfl
@[simp] theorem Slat.dropQent_team (t : Slat) (seq : Nat) : (t.dropQent seq).team = t.team := rfl
@[simp] theorem Slat.dropQent_idx (t : Slat) (seq : Nat) : (t.dropQent seq).idx = t.idx := rfl
@[simp] theorem Slat.dropQent_grid (t : Slat) (seq : Nat) : (t.dropQent seq).grid = t.grid := rfl
@[simp] theorem Slat.dropQent_fn (t : Slat) (seq : Nat) : (t.dropQent seq).fn = t.fn := rfl
@[simp] theorem Slat.dropQent_ctx (t : Slat) (seq : Nat) : (t.dropQent seq).ctx = t.ctx := rfl
@[simp] theorem Slat.dropQent_part (t : Slat) (seq : Nat) : (t.dropQent seq).part = t.part := rfl
@[simp] theorem Slat.dropQent_level (t : Slat) (seq : Nat) : (t.dropQent seq).level = t.level := rfl
@[simp] theorem Slat.dropQent_text (t : Slat) (seq : Nat) : (t.dropQent seq).text = t.text := rfl
@[simp] theorem Slat.dropQent_tlen (t : Slat) (seq : Nat) : (t.dropQent seq).tlen = t.tlen := rfl
@[simp] theorem Slat.dropQent_v (t : Slat) (seq : Nat) : (t.dropQent seq).v = t.v := rfl
@[simp] theorem Slat.dropQent_vp (t : Slat) (seq : Nat) : (t.dropQent seq).vp = t.vp := rfl
@[simp] theorem Slat.dropQent_s (t : Slat) (seq : Nat) : (t.dropQent seq).s = t.s := rfl
@[simp] theorem Slat.dropQent_sp (t : Slat) (seq : Nat) : (t.dropQent seq).sp = t.sp := rfl
@[simp] theorem Slat.dropQent_p (t : Slat) (seq : Nat) : (t.dropQent seq).p = t.p := rfl
@[simp] theorem Slat.dropQent_q (t : Slat) (seq : Nat) : (t.dropQent seq).q = t.q := rfl
@[simp] theorem Slat.dropQent_b (t : Slat) (seq : Nat) : (t.dropQent seq).b = t.b := rfl
@[simp] theorem Slat.dropQent_width (t : Slat) (seq : Nat) : (t.dropQent seq).width = t.width := rfl
@[simp] theorem Slat.dropQent_d (t : Slat) (seq : Nat) : (t.dropQent seq).d = t.d := rfl
@[simp] theorem Slat.dropQent_split (t : Slat) (seq : Nat) : (t.dropQent seq).split = t.split := rfl
@[simp] theorem Slat.dropQent_recs (t : Slat) (seq : Nat) : (t.dropQent seq).recs = t.recs := rfl
@[simp] theorem Slat.dropQent_log (t : Slat) (seq : Nat) : (t.dropQent seq).log = t.log := rfl
@[simp] theorem Slat.dropQent_queue (t : Slat) (seq : Nat) : (t.dropQent seq).queue = t.queue.filter (fun e => e.seq != seq) := rfl
@[simp] theorem Slat.dropQent_insts (t : Slat) (seq : Nat) : (t.dropQent seq).insts = t.insts := rfl
@[simp] theorem Slat.dropQent_tvec (t : Slat) (seq : Nat) : (t.dropQent seq).tvec = t.tvec := rfl
@[simp] theorem Slat.dropQent_tepc (t : Slat) (seq : Nat) : (t.dropQent seq).tepc = t.tepc := rfl
@[simp] theorem Slat.dropQent_tinfo (t : Slat) (seq : Nat) : (t.dropQent seq).tinfo = t.tinfo := rfl
@[simp] theorem Slat.dropQent_tcause (t : Slat) (seq : Nat) : (t.dropQent seq).tcause = t.tcause := rfl
@[simp] theorem Slat.dropQent_inh (t : Slat) (seq : Nat) : (t.dropQent seq).inh = t.inh := rfl
@[simp] theorem Slat.dropQent_hand (t : Slat) (seq : Nat) : (t.dropQent seq).hand = t.hand := rfl
@[simp] theorem Slat.dropQent_slim (t : Slat) (seq : Nat) : (t.dropQent seq).slim = t.slim := rfl
@[simp] theorem Slat.dropQent_bst (t : Slat) (seq : Nat) : (t.dropQent seq).bst = t.bst := rfl
@[simp] theorem Slat.dropQent_fst (t : Slat) (seq : Nat) : (t.dropQent seq).fst = t.fst := rfl
@[simp] theorem Slat.dropQent_pend (t : Slat) (seq : Nat) : (t.dropQent seq).pend = t.pend := rfl
@[simp] theorem Slat.dropQent_park (t : Slat) (seq : Nat) : (t.dropQent seq).park = t.park := rfl
@[simp] theorem Slat.dropQent_parkArg (t : Slat) (seq : Nat) : (t.dropQent seq).parkArg = t.parkArg := rfl
@[simp] theorem Slat.dropQent_parkDst (t : Slat) (seq : Nat) : (t.dropQent seq).parkDst = t.parkDst := rfl
@[simp] theorem Slat.dropQent_parkAt (t : Slat) (seq : Nat) : (t.dropQent seq).parkAt = t.parkAt := rfl
@[simp] theorem Slat.dropQent_watch (t : Slat) (seq : Nat) : (t.dropQent seq).watch = t.watch := rfl
@[simp] theorem Slat.dropQent_issue (t : Slat) (seq : Nat) : (t.dropQent seq).issue = t.issue := rfl
@[simp] theorem Slat.dropQent_accd (t : Slat) (seq : Nat) : (t.dropQent seq).accd = t.accd := rfl
@[simp] theorem Slat.dropQent_told (t : Slat) (seq : Nat) : (t.dropQent seq).told = t.told := rfl
@[simp] theorem Slat.dropQent_begun (t : Slat) (seq : Nat) : (t.dropQent seq).begun = t.begun := rfl
@[simp] theorem Slat.dropQent_redo (t : Slat) (seq : Nat) : (t.dropQent seq).redo = t.redo := rfl
@[simp] theorem Slat.dropQent_bars (t : Slat) (seq : Nat) : (t.dropQent seq).bars = t.bars := rfl
@[simp] theorem Slat.dropQent_ended (t : Slat) (seq : Nat) : (t.dropQent seq).ended = t.ended := rfl

theorem find_replaceBy {α : Type} (key : α → Nat) (x : α) (n : Nat) (l : List α) :
    (replaceBy key x l).find? (fun y => key y == n) =
      if key x = n ∧ (l.find? (fun y => key y == n)).isSome then some x else l.find? (fun y => key y == n) := by
  induction l with
  | nil => simp [replaceBy]
  | cons y t ih =>
    simp only [replaceBy, List.map_cons, List.find?_cons] at ih ⊢
    rw [ih]
    by_cases hy : key y = key x
    · by_cases hn : key x = n
      · simp [hy, hn]
      · simp [hy, hn, beq_false_of_ne hn]
    · by_cases hk : key y = n
      · have hx : ¬ key x = n := fun h => hy (hk.trans h.symm)
        simp [hk, hx, eq_comm (a := n)]
      · simp [hy, beq_false_of_ne hk]

/-- A slat that is there reads as what is put in its place. -/
theorem State.slat?_setSlat_same {s : State} {t x : Slat} (h : s.slat? t.uid = some x) : (s.setSlat t).slat? t.uid = some t := by
  simp only [State.slat?, State.setSlat] at h ⊢
  simp [find_replaceBy, h]

/-- Every other slat reads as before. -/
theorem State.slat?_setSlat_other {s : State} {t : Slat} {n : Nat} (h : n ≠ t.uid) : (s.setSlat t).slat? n = s.slat? n := by
  simp only [State.slat?, State.setSlat, find_replaceBy]
  have : ¬ t.uid = n := fun e => h e.symm
  simp [this]

theorem State.slat?_modSlat_other {s : State} {uid n : Nat} {g : Slat → Slat} (k : ∀ t, (g t).uid = t.uid) (h : n ≠ uid) :
    (s.modSlat uid g).slat? n = s.slat? n := by
  simp only [State.modSlat]
  split
  · next t e =>
    have hu : t.uid = uid := by simpa using List.find?_some e
    exact State.slat?_setSlat_other (by rw [k, hu]; exact h)
  · rfl

@[simp] theorem State.core_setCore_same (s : State) (c : Nat) (x : Core) : (s.setCore c x).core c = x := by
  simp [State.core]

theorem State.core_setCore_other (s : State) {c k : Nat} (x : Core) (h : k ≠ c) : (s.setCore c x).core k = s.core k := by
  simp [State.core, sget_sput_other _ _ _ _ _ h]

@[simp] theorem State.core_modCore_same (s : State) (c : Nat) (f : Core → Core) : (s.modCore c f).core c = f (s.core c) := by
  simp [State.core]

theorem State.core_modCore_other (s : State) {c k : Nat} (f : Core → Core) (h : k ≠ c) : (s.modCore c f).core k = s.core k := by
  simp [State.core, sget_sput_other _ _ _ _ _ h]

@[simp] theorem State.fn_modFn_same (s : State) (f : Nat) (g : Fn → Fn) : (s.modFn f g).fn f = g (s.fn f) := by
  simp [State.fn]

theorem State.fn_modFn_other (s : State) {f k : Nat} (g : Fn → Fn) (h : k ≠ f) : (s.modFn f g).fn k = s.fn k := by
  simp [State.fn, sget_sput_other _ _ _ _ _ h]

@[simp] theorem State.queue_modQueue_same (s : State) (q : Nat) (g : Queue → Queue) : (s.modQueue q g).queue q = g (s.queue q) := by
  simp [State.queue]

theorem State.queue_modQueue_other (s : State) {q k : Nat} (g : Queue → Queue) (h : k ≠ q) : (s.modQueue q g).queue k = s.queue k := by
  simp [State.queue, sget_sput_other _ _ _ _ _ h]

@[simp] theorem State.link_modLink_same (s : State) (n : Nat) (f : Link → Link) : (s.modLink n f).link n = f (s.link n) := by
  simp [State.link]

theorem State.link_modLink_other (s : State) {n k : Nat} (f : Link → Link) (h : k ≠ n) : (s.modLink n f).link k = s.link k := by
  simp [State.link, sget_sput_other _ _ _ _ _ h]

@[simp] theorem State.flink_modFlink_same (s : State) (n : Nat) (f : Link → Link) : (s.modFlink n f).flink n = f (s.flink n) := by
  simp [State.flink]

theorem State.flink_modFlink_other (s : State) {n k : Nat} (f : Link → Link) (h : k ≠ n) : (s.modFlink n f).flink k = s.flink k := by
  simp [State.flink, sget_sput_other _ _ _ _ _ h]

/-! Memory keeps its canonical form under every operation that writes it. -/

theorem wf_memPutLine {m : List (Nat × Byte)} (line : Nat) (v : LineVal) (h : Memory.wf m = true) : Memory.wf (memPutLine m line v) = true := by
  unfold memPutLine
  generalize (List.range 128).map _ = l
  exact Memory.wf_writeEach l h

theorem State.wf_hostPut (s : State) (line : Nat) (bs : List (Nat × Byte)) (h : Memory.wf s.mem = true) : Memory.wf (s.hostPut line bs).mem = true := by
  unfold State.hostPut
  dsimp only
  generalize (List.range 128).map _ = l
  exact Memory.wf_writeEach l h

/-- Marks noted change nothing but the marks. -/
theorem State.noteMarks_frame (s : State) (line : Nat) (m : W32) : ∃ k, s.noteMarks line m = { s with marks := k } := by
  unfold State.noteMarks
  split
  · exact ⟨_, rfl⟩
  · exact ⟨s.marks, rfl⟩

theorem State.wf_putMem (s : State) (line : Nat) (v : LineVal) (h : Memory.wf s.mem = true) : Memory.wf (s.putMem line v).mem = true := by
  unfold State.putMem
  generalize (List.range 128).map _ = l
  split
  · have hw := s.wf_hostPut line l h
    generalize s.hostPut line l = x at hw ⊢
    obtain ⟨k, e⟩ := x.noteMarks_frame line v.marks
    rw [e]
    exact hw
  · simp only [wf_memPutLine line v h]

end Sys2Proof.Machine
end

