-- ==== Sys2Proof/Laws/Inv.lean ====
section
/-! SUPPORT. The invariant through the named operations: an operation that changes no memory keeps it by `Inv.of_eq`, one on a core by
`Inv.modCore`, one that writes bytes by the lemmas of its name. -/

namespace Sys2Proof.Machine

open Sys2Proof

/-- A state that agrees on memory, cores and snapshots. -/
theorem State.Inv.of_eq {s s' : State} (h : s.Inv) (hm : s'.mem = s.mem) (hc : s'.cores = s.cores) (hp : s'.past = s.past) : s'.Inv := by
  unfold State.Inv at h ⊢
  rw [hm, hc, hp]
  exact h

/-- A loop whose every turn keeps it. -/
theorem State.Inv.foldl {α : Type} {f : State → α → State} (hf : ∀ s a, s.Inv → (f s a).Inv) (l : List α) {s : State} (h : s.Inv) :
    (l.foldl f s).Inv := by
  induction l generalizing s with
  | nil => exact h
  | cons a l ih => exact ih (hf s a h)

theorem spadsWf_iff {cs : List (Nat × Core)} : spadsWf cs = true ↔ ∀ c, c ∈ cs → Memory.wf c.2.spad = true := by
  simp [spadsWf]

theorem spadsWf_sget {cs : List (Nat × Core)} (h : spadsWf cs = true) (c : Nat) : Memory.wf (sget Core.reset cs c).spad = true := by
  induction cs with
  | nil => rfl
  | cons x t ih =>
    rw [spadsWf_iff] at h ih
    simp only [sget]
    split
    · exact h x List.mem_cons_self
    · exact ih (fun y hy => h y (List.mem_cons_of_mem _ hy))

theorem spadsWf_sput {cs : List (Nat × Core)} (h : spadsWf cs = true) (c : Nat) {x : Core} (hx : Memory.wf x.spad = true) :
    spadsWf (sput cs c x) = true := by
  induction cs with
  | nil => simpa [spadsWf, sput] using hx
  | cons y t ih =>
    rw [spadsWf_iff] at h
    have ht : spadsWf t = true := spadsWf_iff.2 (fun z hz => h z (List.mem_cons_of_mem _ hz))
    have hy := h y List.mem_cons_self
    have hi := spadsWf_iff.1 (ih ht)
    obtain ⟨k, v⟩ := y
    rw [spadsWf_iff]
    simp only [sput]
    split
    · intro z hz
      rcases List.mem_cons.1 hz with rfl | hz
      · exact hx
      · exact h z hz
    · split
      · intro z hz
        rcases List.mem_cons.1 hz with rfl | hz
        · exact hx
        · exact spadsWf_iff.1 ht z hz
      · intro z hz
        rcases List.mem_cons.1 hz with rfl | hz
        · exact hy
        · exact hi z hz

/-- A core's scratchpad is in canonical form. -/
theorem State.Inv.spad {s : State} (h : s.Inv) (c : Nat) : Memory.wf (s.core c).spad = true := spadsWf_sget h.2.1 c

theorem State.Inv.setCore {s : State} (h : s.Inv) (c : Nat) {x : Core} (hx : Memory.wf x.spad = true) : (s.setCore c x).Inv :=
  ⟨h.1, spadsWf_sput h.2.1 c hx, h.2.2⟩

theorem State.Inv.modCore {s : State} (h : s.Inv) (c : Nat) {f : Core → Core} (hf : ∀ x, Memory.wf x.spad = true → Memory.wf (f x).spad = true) :
    (s.modCore c f).Inv := h.setCore c (hf _ (h.spad c))

theorem State.Inv.mapCores {s : State} (h : s.Inv) {f : Nat → Core → Core}
    (hf : ∀ c x, Memory.wf x.spad = true → Memory.wf (f c x).spad = true) : (s.mapCores f).Inv := by
  refine ⟨h.1, ?_, h.2.2⟩
  rw [spadsWf_iff]
  intro c hc
  simp only [State.mapCores, List.mem_map] at hc
  obtain ⟨y, hy, rfl⟩ := hc
  exact hf _ _ (spadsWf_iff.1 h.2.1 y hy)

theorem State.Inv.setSlat {s : State} (h : s.Inv) (t : Slat) : (s.setSlat t).Inv := h.of_eq rfl rfl rfl
theorem State.Inv.mapSlats {s : State} (h : s.Inv) (f : Slat → Slat) : (s.mapSlats f).Inv := h.of_eq rfl rfl rfl
theorem State.Inv.setTeam {s : State} (h : s.Inv) (t : Team) : (s.setTeam t).Inv := h.of_eq rfl rfl rfl
theorem State.Inv.modHome {s : State} (h : s.Inv) (f : Home → Home) : (s.modHome f).Inv := h.of_eq rfl rfl rfl
theorem State.Inv.modHub {s : State} (h : s.Inv) (f : Hub → Hub) : (s.modHub f).Inv := h.of_eq rfl rfl rfl
theorem State.Inv.modFn {s : State} (h : s.Inv) (f : Nat) (g : Fn → Fn) : (s.modFn f g).Inv := h.of_eq rfl rfl rfl
theorem State.Inv.modQueue {s : State} (h : s.Inv) (q : Nat) (g : Queue → Queue) : (s.modQueue q g).Inv := h.of_eq rfl rfl rfl
theorem State.Inv.modContext {s : State} (h : s.Inv) (c : Nat) (g : Context → Context) : (s.modContext c g).Inv := h.of_eq rfl rfl rfl
theorem State.Inv.modGrid {s : State} (h : s.Inv) (n : Nat) (g : Grid → Grid) : (s.modGrid n g).Inv := h.of_eq rfl rfl rfl
theorem State.Inv.modLink {s : State} (h : s.Inv) (n : Nat) (f : Link → Link) : (s.modLink n f).Inv := h.of_eq rfl rfl rfl
theorem State.Inv.modFlink {s : State} (h : s.Inv) (n : Nat) (f : Link → Link) : (s.modFlink n f).Inv := h.of_eq rfl rfl rfl
theorem State.Inv.modPart {s : State} (h : s.Inv) (p : Nat) (f : PartTrust → PartTrust) : (s.modPart p f).Inv := h.of_eq rfl rfl rfl
theorem State.Inv.fresh {s : State} (h : s.Inv) : s.fresh.2.Inv := h.of_eq rfl rfl rfl
theorem State.Inv.freeVal {s : State} (h : s.Inv) : s.freeVal.2.Inv := h.of_eq rfl rfl rfl
theorem State.Inv.note {s : State} (h : s.Inv) (uid seq kind : Nat) (lanes : List (Nat × Nat × W32)) (c : Option Cause) :
    (s.note uid seq kind lanes c).Inv := h.of_eq rfl rfl rfl

theorem State.Inv.modSlat {s : State} (h : s.Inv) (uid : Nat) (f : Slat → Slat) : (s.modSlat uid f).Inv := by
  unfold State.modSlat
  split
  · exact h.setSlat _
  · exact h

theorem State.Inv.irq {s : State} (h : s.Inv) (f v : Nat) : (s.irq f v).Inv := by
  unfold State.irq
  split
  · exact h
  · exact h.of_eq rfl rfl rfl

/-- Masking a vector keeps the invariant. -/
theorem State.Inv.maskVector {s : State} (h : s.Inv) (fn vec : Nat) (on : Bool) : (s.maskVector fn vec on).Inv := by
  unfold State.maskVector
  split
  · exact h
  · exact h.modFn _ _

theorem State.Inv.mark {s : State} (h : s.Inv) (uid : Nat) (ps : List Path) (m : Marker) : (s.mark uid ps m).Inv :=
  h.fresh.modSlat uid _

/-- A bank put to is in canonical form. -/
theorem Core.wf_bankPut {k : Core} (bs : List (Nat × Byte)) (h : Memory.wf k.spad = true) : Memory.wf (k.bankPut bs).spad = true :=
  Memory.wf_writeEach bs h

theorem State.Inv.bankWriteMarked {s : State} (h : s.Inv) (core : Nat) (bs : List (Nat × Byte × Bool)) : (s.bankWriteMarked core bs).Inv := by
  unfold State.bankWriteMarked
  refine (h.modCore core (fun x hx => ?_)).note _ _ _ _ _
  exact Core.wf_bankPut (k := x) _ hx

theorem State.Inv.bankWrite {s : State} (h : s.Inv) (core : Nat) (bs : List (Nat × Byte)) : (s.bankWrite core bs).Inv :=
  h.bankWriteMarked core _

theorem State.Inv.spadWrite {s : State} (h : s.Inv) (core a : Nat) (bs : List Byte) : (s.spadWrite core a bs).Inv :=
  h.modCore core (fun _ hx => Core.wf_bankPut _ hx)

theorem State.Inv.hostPut {s : State} (h : s.Inv) (line : Nat) (bs : List (Nat × Byte)) : (s.hostPut line bs).Inv := by
  refine ⟨s.wf_hostPut line bs h.1, ?_⟩
  unfold State.hostPut
  dsimp only
  exact h.2

theorem State.Inv.noteMarks {s : State} (h : s.Inv) (line : Nat) (m : W32) : (s.noteMarks line m).Inv := by
  obtain ⟨k, e⟩ := s.noteMarks_frame line m
  rw [e]
  exact h.of_eq rfl rfl rfl

theorem State.Inv.putMem {s : State} (h : s.Inv) (line : Nat) (v : LineVal) : (s.putMem line v).Inv := by
  refine ⟨s.wf_putMem line v h.1, ?_⟩
  unfold State.putMem
  generalize (List.range 128).map _ = l
  split
  · exact ((h.hostPut line l).noteMarks line v.marks).2
  · exact h.2

theorem State.Inv.dropL2 {s : State} (h : s.Inv) (line : Nat) : (s.dropL2 line).Inv := h.modHome _
theorem State.Inv.l2Out {s : State} (h : s.Inv) (line : Nat) : (s.l2Out line).Inv := h.modHome _

theorem State.Inv.putL2 {s : State} (h : s.Inv) (line : Nat) (v : LineVal) (d : Bool) (fn hint : Nat) : (s.putL2 line v d fn hint).Inv := by
  unfold State.putL2
  split
  · exact h.modHome _
  · dsimp only
    cases (s.l2Way line fn).2 with
    | none => exact h.modHome _
    | some x => exact (h.l2Out x).modHome _

theorem State.Inv.hostWrite {s : State} (h : s.Inv) (line : Nat) (bs : List (Nat × Byte)) : (s.hostWrite line bs).Inv := by
  unfold State.hostWrite
  dsimp only
  generalize (List.range 128).map _ = l
  exact ⟨Memory.wf_writeEach l h.1, h.2⟩

/-- A line's new value at its home: L2, and the host port queue (R85). -/
theorem State.Inv.putHome {s : State} (h : s.Inv) (line : Nat) (v : LineVal) (bs : List (Nat × Byte)) (fn hint uid seq : Nat) :
    (s.putHome line v bs fn hint uid seq).Inv := by
  unfold State.putHome
  refine State.Inv.noteMarks ?_ line v.marks
  unfold State.toHost
  split
  · exact (h.putL2 line v _ fn hint).of_eq rfl rfl rfl
  · exact h.putL2 _ _ _ _ _

end Sys2Proof.Machine
end

