-- ==== Sys2Proof/Laws/Shapes.lean ====
section
/-! SUPPORT. What the shapes of the ALU instructions do, once for each shape; the instructions of a family cite these. -/

namespace Sys2Proof.Machine

open Sys2Proof

theorem onFrag_next {s : State} {t : Slat} {u : Issue} (f : Slat → Issue → State) (h : s.frag = some (t, u)) :
    onFrag s f = .next (f t u) := by simp [onFrag, h]

theorem onFrag_fault {s : State} (f : Slat → Issue → State) (h : s.frag = none) : onFrag s f = .fault .noFragment := by
  simp [onFrag, h]

/-- A scalar instruction whose guards hold and whose operands are unmarked has its effect. -/
theorem scaDo_next {s : State} {t : Slat} {u : Issue} {h : Hdr} {srcs : List Src} (k : Slat → Issue → State)
    (hf : s.frag = some (t, u)) (hg : t.qHolds h = true) (hp : ∀ x, x ∈ srcs → (t.srcS x).2 = false) :
    scaDo s h srcs k = .next (k t u) := by
  have : srcs.any (fun x => (t.srcS x).2) = false := by
    simp only [List.any_eq_false]; intro x hx; simp [hp x hx]
  simp only [scaDo, onFrag_next _ hf, hg, this]; rfl

/-- A scalar instruction whose guards do not hold only moves on (R43). -/
theorem scaDo_off {s : State} {t : Slat} {u : Issue} {h : Hdr} {srcs : List Src} (k : Slat → Issue → State)
    (hf : s.frag = some (t, u)) (hg : t.qHolds h = false) : scaDo s h srcs k = .next (s.advance t u) := by
  simp [scaDo, onFrag_next _ hf, hg]

@[simp] theorem Slat.sget_sput_same (t : Slat) (n : Nat) (x : W64) (m : Bool) : (t.sput n x m).sget n = x := by
  simp [Slat.sget, Slat.sput]

theorem Slat.sget_sput_other (t : Slat) (n k : Nat) (x : W64) (m : Bool) (h : k ≠ n) : (t.sput n x m).sget k = t.sget k := by
  simp [Slat.sget, Slat.sput, Sys2Proof.sget_sput_other _ _ _ _ _ h]

/-- A state advanced with one scalar register written is what ScalarGives says. -/
theorem ScalarGives.of {i : Instr} {s : State} {t : Slat} {u : Issue} {d : Nat} {x : W64}
    (h : exec i s = .next (s.advance (t.sput d x false) u)) : ScalarGives i s t u d x :=
  ⟨_, h, by simp, fun n hn => Slat.sget_sput_other _ _ _ _ _ hn, rfl⟩

theorem vput_vget (t : Slat) (d l n x : Nat) (v : W32) (m : Bool) (hl : l < 32) (hx : x < 32) :
    (t.vput d l v m).vget n x = if n = d ∧ x = l then v else t.vget n x := by
  by_cases e : n = d ∧ x = l
  · obtain ⟨rfl, rfl⟩ := e; simp [Slat.vget, Slat.vput]
  · have : 32 * n + x ≠ 32 * d + l := by omega
    simp [Slat.vget, Slat.vput, Sys2Proof.sget_sput_other _ _ _ _ _ this, e]

/-- Lanes of one register written in turn. -/
theorem foldl_vput_vget (d : Nat) (f : Nat → W32) (ls : List Nat) : ∀ (t : Slat) (n x : Nat), x < 32 → (∀ l, l ∈ ls → l < 32) →
    ((ls.map (fun l => (l, f l))).foldl (fun (t : Slat) r => t.vput d r.1 r.2 false) t).vget n x
      = if n = d ∧ x ∈ ls then f x else t.vget n x := by
  induction ls with
  | nil => intro t n x _ _; simp
  | cons a ls ih =>
    intro t n x hx hl
    have ha : a < 32 := hl a (by simp)
    rw [List.map_cons, List.foldl_cons, ih _ _ _ hx (fun l h => hl l (by simp [h])), vput_vget _ _ _ _ _ _ _ ha hx]
    by_cases h1 : n = d
    · by_cases h2 : x ∈ ls
      · simp [h1, h2]
      · by_cases h3 : x = a
        · subst h3; simp [h1, h2]
        · simp [h1, h2, h3]
    · simp [h1]

theorem foldl_vput_same (d : Nat) (rs : List (Nat × W32)) : ∀ t : Slat,
    rs.foldl (fun (t : Slat) r => t.vput d r.1 r.2 false) t
      = { t with v := (rs.foldl (fun (t : Slat) r => t.vput d r.1 r.2 false) t).v,
                 vp := (rs.foldl (fun (t : Slat) r => t.vput d r.1 r.2 false) t).vp } := by
  induction rs with
  | nil => intro t; rfl
  | cons a rs ih =>
    intro t
    rw [List.foldl_cons]
    have h := ih (t.vput d a.1 a.2 false)
    rw [h]; rfl

theorem foldl_lat (b : Nat) (f : Nat → W32) (ls : List Nat) : ∀ (m : List (Nat × W32)) (x : Nat), x ∈ ls →
    Sys2Proof.sget 0#32 ((ls.map (fun l => (l, f l))).foldl (fun m r => Sys2Proof.sput m (b + r.1) r.2) m) (b + x) = f x := by
  have keep : ∀ (ls : List Nat) (m : List (Nat × W32)) (x : Nat), x ∉ ls →
      Sys2Proof.sget 0#32 ((ls.map (fun l => (l, f l))).foldl (fun m r => Sys2Proof.sput m (b + r.1) r.2) m) (b + x)
        = Sys2Proof.sget 0#32 m (b + x) := by
    intro ls
    induction ls with
    | nil => intros; rfl
    | cons a ls ih =>
      intro m x h
      simp only [List.mem_cons, not_or] at h
      rw [List.map_cons, List.foldl_cons, ih _ _ h.2, Sys2Proof.sget_sput_other]
      omega
  induction ls with
  | nil => intro _ _ h; simp at h
  | cons a ls ih =>
    intro m x h
    by_cases hx : x ∈ ls
    · rw [List.map_cons, List.foldl_cons]; exact ih _ _ hx
    · have : x = a := by simpa [hx] using h
      subst this
      rw [List.map_cons, List.foldl_cons, keep _ _ _ hx]; simp

theorem laneList_lt {m : W32} {l : Nat} (h : l ∈ laneList m) : l < 32 := by
  simp only [laneList, upTo, List.mem_filter, List.mem_range] at h; exact h.1

theorem active_lt {t : Slat} {u : Issue} {h : Hdr} {l : Nat} (hl : l ∈ t.active u h) : l < 32 := by
  simp only [Slat.active, List.mem_filter] at hl; exact laneList_lt hl.1

/-- Results put in a register and its latch, as LanesGive says. -/
theorem LanesGive.of {i : Instr} {s : State} {t : Slat} {u : Issue} {nw : Bool} {d : Nat} {ls : List Nat} {f : Nat → W32}
    (hl : ∀ l, l ∈ ls → l < 32)
    (h : exec i s = .next (s.advance (putRes t u nw d (ls.map (fun l => (l, f l)))).1 (putRes t u nw d (ls.map (fun l => (l, f l)))).2)) :
    LanesGive i s t u nw d ls f := by
  refine ⟨_, _, h, ?_, ?_, ?_, ?_, ?_⟩
  · intro hn l hm
    simp only [putRes, hn]
    rw [if_neg (by simp), foldl_vput_vget d f ls t d l (hl l hm) hl]; simp [hm]
  · intro n l hx hc
    cases nw
    · simp only [putRes]
      rw [if_neg (by simp), foldl_vput_vget d f ls t n l hx hl]
      have : ¬ (n = d ∧ l ∈ ls) := by
        rintro ⟨a, b⟩
        rcases hc with h | h | h
        · exact h a
        · exact h b
        · simp at h
      simp [this]
    · simp [putRes]
  · intro l hm; exact foldl_lat _ f ls _ l hm
  · cases nw
    · simp only [putRes]; rw [if_neg (by simp)]; exact foldl_vput_same d _ t
    · simp [putRes]
  · rfl

theorem laneMask_spec (l : Nat) (hl : l < 32) : ∀ (ls : List Nat), (∀ x, x ∈ ls → x < 32) → (laneMask ls).getLsbD l = decide (l ∈ ls) := by
  have go : ∀ (ls : List Nat) (m : W32), (∀ x, x ∈ ls → x < 32) →
      (ls.foldl (fun m l => m ||| (1#32 <<< l)) m).getLsbD l = (m.getLsbD l || decide (l ∈ ls)) := by
    intro ls
    induction ls with
    | nil => intro m _; simp
    | cons a ls ih =>
      intro m h
      rw [List.foldl_cons, ih _ (fun x hx => h x (by simp [hx]))]
      have ha : a < 32 := h a (by simp)
      have e : (1#32 <<< a).getLsbD l = decide (l = a) := by
        simp only [BitVec.getLsbD_shiftLeft, BitVec.getLsbD_one]
        by_cases hla : l = a
        · subst hla; simp [hl]
        · simp [hla]; omega
      simp [BitVec.getLsbD_or, e, Bool.or_assoc]
  intro ls h
  simpa [laneMask] using go ls 0#32 h

/-- A predicate written in the executing lanes, as LanesTest says. -/
theorem LanesTest.of {i : Instr} {s : State} {t : Slat} {u : Issue} {d : Nat} {ls : List Nat} {f : Nat → Bool}
    (hl : ∀ l, l ∈ ls → l < 32)
    (h : exec i s = .next (s.advance (t.pput d (laneMask ls) (laneMask (ls.filter f))) u)) : LanesTest i s t u d ls f := by
  have hf : ∀ l, l ∈ ls.filter f → l < 32 := fun l h => hl l (by simp at h; exact h.1)
  refine ⟨_, h, ?_, ?_, rfl⟩
  · intro l hm hd
    simp [Slat.pget, Slat.pput, hd, BitVec.getLsbD_or, BitVec.getLsbD_and, laneMask_spec l (hl l hm) _ hl,
      laneMask_spec l (hl l hm) _ hf, hm]
  · intro n l hx hc
    by_cases hn : n = 7
    · simp [Slat.pget, hn]
    · by_cases hd : n = d
      · subst hd
        have : l ∉ ls := by simpa using hc
        have e := laneMask_spec l hx _ hl
        simp only [this, decide_false] at e
        simp only [Slat.pget, Slat.pput, hn, Slat.pmask, if_false, Sys2Proof.sget_sput_same, BitVec.getLsbD_or, BitVec.getLsbD_and,
          BitVec.getLsbD_not, e, hx, decide_true, Bool.and_false, Bool.not_false, Bool.and_true, Bool.or_false]
      · simp [Slat.pget, Slat.pput, hn, Sys2Proof.sget_sput_other _ _ _ _ _ hd]

/-- A vector instruction none of whose executing lanes consumes a marked word has its effect. -/
theorem vecDo_next {s : State} {t : Slat} {u : Issue} {h : Hdr} {srcs : List (Src × Nat)} (k : Slat → Issue → List Nat → Slat × Issue)
    (hf : s.frag = some (t, u)) (hp : Unmarked t (t.active u h) srcs) :
    vecDo s h srcs k = .next (s.advance (k t u (t.active u h)).1 (k t u (t.active u h)).2) := by
  have : (t.active u h).filter (fun l => srcs.any (fun x => t.marked x.1 x.2 l)) = [] := by
    rw [List.filter_eq_nil_iff]
    intro l hl
    simp only [Bool.not_eq_true, List.any_eq_false]
    intro x hx; simp [hp l hl x hx]
  simp [vecDo, vecChk, onFrag_next _ hf, this]

theorem vec32_gives {i : Instr} {s : State} {t : Slat} {u : Issue} {h : Hdr} {nw : Bool} {dst : BitVec 6} {srcs : List (Src × Nat)}
    {f : Slat → Issue → Nat → W32} (he : exec i s = vec32 s h nw dst srcs f)
    (hf : s.frag = some (t, u)) (hp : Unmarked t (t.active u h) srcs) :
    LanesGive i s t u nw dst.toNat (t.active u h) (f t u) :=
  LanesGive.of (fun _ hl => active_lt hl) (by rw [he, vec32, vecDo_next _ hf hp])

theorem vputs64_get (d : Nat) (f : Nat → W64) (ls : List Nat) : ∀ (t : Slat) (n x : Nat), x < 32 → (∀ l, l ∈ ls → l < 32) →
    ((ls.map (fun l => (l, f l))).foldl
        (fun (t : Slat) r => (t.vput d r.1 (r.2.extractLsb' 0 32) false).vput (d + 1) r.1 (r.2.extractLsb' 32 32) false) t).vget n x
      = if x ∈ ls then (if n = d then (f x).extractLsb' 0 32 else if n = d + 1 then (f x).extractLsb' 32 32 else t.vget n x)
        else t.vget n x := by
  induction ls with
  | nil => intro t n x _ _; simp
  | cons a ls ih =>
    intro t n x hx hl
    have ha : a < 32 := hl a (by simp)
    rw [List.map_cons, List.foldl_cons, ih _ _ _ hx (fun l h => hl l (by simp [h])), vput_vget _ _ _ _ _ _ _ ha hx,
      vput_vget _ _ _ _ _ _ _ ha hx]
    by_cases h2 : x ∈ ls
    · simp only [h2, if_true, List.mem_cons, or_true]
      by_cases h1 : n = d
      · simp [h1]
      · by_cases h1' : n = d + 1
        · simp [h1']
        · simp [h1, h1']
    · by_cases h3 : x = a
      · subst h3
        by_cases h1 : n = d
        · simp [h1, h2]
        · simp [h1, h2]
      · simp [h2, h3]

theorem vputs64_same (d : Nat) (rs : List (Nat × W64)) : ∀ t : Slat,
    rs.foldl (fun (t : Slat) r => (t.vput d r.1 (r.2.extractLsb' 0 32) false).vput (d + 1) r.1 (r.2.extractLsb' 32 32) false) t
      = { t with
          v := (rs.foldl (fun (t : Slat) r => (t.vput d r.1 (r.2.extractLsb' 0 32) false).vput (d + 1) r.1 (r.2.extractLsb' 32 32) false) t).v,
          vp := (rs.foldl (fun (t : Slat) r => (t.vput d r.1 (r.2.extractLsb' 0 32) false).vput (d + 1) r.1 (r.2.extractLsb' 32 32) false) t).vp } := by
  induction rs with
  | nil => intro t; rfl
  | cons a rs ih => intro t; rw [List.foldl_cons, ih]; rfl

theorem halves (x : W64) : x.extractLsb' 32 32 ++ x.extractLsb' 0 32 = x := by
  apply BitVec.eq_of_getLsbD_eq
  intro i hi
  simp only [BitVec.getLsbD_append, BitVec.getLsbD_extractLsb']
  by_cases h : i < 32
  · simp [h]
  · have : 32 + (i - 32) = i := by omega
    simp only [h, this]
    have h2 : i - 32 < 32 := by omega
    simp [h2]

/-- Results put in a pair of registers, as LanesGive64 says. -/
theorem LanesGive64.of {i : Instr} {s : State} {t : Slat} {u : Issue} {d : Nat} {ls : List Nat} {f : Nat → W64}
    (hl : ∀ l, l ∈ ls → l < 32)
    (h : exec i s = .next (s.advance (putRes64 t u d (ls.map (fun l => (l, f l)))).1 (putRes64 t u d (ls.map (fun l => (l, f l)))).2)) :
    LanesGive64 i s t u d ls f := by
  refine ⟨_, _, h, ?_, ?_, vputs64_same d _ t, rfl⟩
  · intro l hm
    simp only [putRes64]
    rw [vputs64_get d f ls t (d + 1) l (hl l hm) hl, vputs64_get d f ls t d l (hl l hm) hl]
    simp [hm, halves]
  · intro n l hx hc
    simp only [putRes64]
    rw [vputs64_get d f ls t n l hx hl]
    by_cases hm : l ∈ ls
    · rcases hc with ⟨a, b⟩ | h
      · simp [a, b]
      · exact absurd hm h
    · simp [hm]

theorem vec64_gives {i : Instr} {s : State} {t : Slat} {u : Issue} {h : Hdr} {dst : BitVec 6} {srcs : List (Src × Nat)}
    {f : Slat → Issue → Nat → W64} (he : exec i s = vec64 s h dst srcs f)
    (hf : s.frag = some (t, u)) (hp : Unmarked t (t.active u h) srcs) :
    LanesGive64 i s t u dst.toNat (t.active u h) (f t u) :=
  LanesGive64.of (fun _ hl => active_lt hl) (by rw [he, vec64, vecDo_next _ hf hp])

theorem vecPred_gives {i : Instr} {s : State} {t : Slat} {u : Issue} {h : Hdr} {dst : BitVec 6} {srcs : List (Src × Nat)}
    {f : Slat → Issue → Nat → Bool} (he : exec i s = vecPred s h dst srcs f)
    (hf : s.frag = some (t, u)) (hp : Unmarked t (t.active u h) srcs) :
    LanesTest i s t u (dst.toNat % 8) (t.active u h) (f t u) :=
  LanesTest.of (fun _ hl => active_lt hl) (by rw [he, vecPred, vecDo_next _ hf hp])

end Sys2Proof.Machine
end

