-- ==== Sys2Proof/Laws/Issue.lean ====
section
/-! SUPPORT. What placing entries does: entries by line, their numbers, the markers around them; what a look in the TLBs changes. -/

namespace Sys2Proof.Machine
/-- Where an entry stands among those numbered from a place on. -/
theorem numberEnts_get (u : Issue) (ins : Nat) : ∀ (ds : List Draft) (seq k : Nat) (e : QEnt), (numberEnts u ins seq ds)[k]? = some e →
    ∃ d, ds[k]? = some d ∧ e = { seq := seq + k, ins := ins, paths := d.paths, op := d.op, lanes := d.lanes, word := u.word, cid := u.cid, pos := u.pos, len := u.len, ent := u.ent, mail := false, tok := none, regen := none } := by
  intro ds
  induction ds with
  | nil => intro seq k e h; simp [numberEnts] at h
  | cons d ds ih =>
    intro seq k e h
    cases k with
    | zero => simp [numberEnts] at h; exact ⟨d, rfl, by simp [← h]⟩
    | succ k =>
      simp only [numberEnts, List.getElem?_cons_succ] at h
      obtain ⟨d', h1, h2⟩ := ih _ _ _ h
      refine ⟨d', by simpa using h1, ?_⟩
      rw [h2]; congr 1; omega

theorem numberEnts_length (u : Issue) (ins : Nat) : ∀ (ds : List Draft) (seq : Nat), (numberEnts u ins seq ds).length = ds.length := by
  intro ds; induction ds with
  | nil => intro _; rfl
  | cons d ds ih => intro seq; simp [numberEnts, ih]

/-- A group of lanes by line: those of one lane's line. -/
theorem mem_byLine {g : List Lane} {ls : List Lane} : g ∈ byLine ls ↔ ∃ x, x ∈ ls ∧ g = ls.filter (fun l => l.loc.line == x.loc.line) := by
  simp only [byLine, List.mem_map, List.mem_eraseDups]
  constructor
  · rintro ⟨k, ⟨x, hx, rfl⟩, rfl⟩; exact ⟨x, hx, rfl⟩
  · rintro ⟨x, hx, rfl⟩; exact ⟨_, ⟨x, hx, rfl⟩, rfl⟩

theorem nodup_eraseDups {α : Type} [BEq α] [LawfulBEq α] : ∀ (n : Nat) (l : List α), l.length ≤ n → l.eraseDups.Nodup := by
  intro n
  induction n with
  | zero => intro l h; simp at h; subst h; simp
  | succ n ih =>
    intro l h
    cases l with
    | nil => simp
    | cons a as =>
      rw [List.eraseDups_cons, List.nodup_cons]
      refine ⟨?_, ih _ ?_⟩
      · simp [List.mem_eraseDups]
      · have := List.length_filter_le (fun b => !b == a) as
        simp at h; omega

/-- No two groups share a line. -/
theorem byLine_nodup (ls : List Lane) : (byLine ls).Pairwise (fun g h => ∀ x y, x ∈ g → y ∈ h → x.loc.line ≠ y.loc.line) := by
  unfold byLine
  rw [List.pairwise_map]
  have := nodup_eraseDups _ (ls.map (fun l => l.loc.line)) (Nat.le_refl _)
  unfold List.Nodup at this
  refine List.Pairwise.imp ?_ this
  intro a b hab x y hx hy
  simp at hx hy
  rw [hx.2, hy.2]; exact hab

/-- The entries of lanes grouped by line, as LineEntries says (R81). -/
theorem lineEntries_byLine (ins first : Nat) (u : Issue) (path : Path) (op : EOp) (ls : List Nat) (place : Nat → Loc) (data : Nat → Option Nat) :
    LineEntries ins first u (numberEnts u ins first ((byLine (ls.map (fun l => { queuedLane l (place l) with data := data l }))).map (fun g => ⟨[path], op, g⟩)))
      path op ls place data := by
  generalize hxs : ls.map (fun l => ({ queuedLane l (place l) with data := data l } : Lane)) = xs
  have key : ∀ e, e ∈ numberEnts u ins first ((byLine xs).map (fun g => (⟨[path], op, g⟩ : Draft))) ↔
      ∃ (k : Nat) (g : List Lane), (byLine xs)[k]? = some g ∧
         (numberEnts u ins first ((byLine xs).map (fun g => (⟨[path], op, g⟩ : Draft))))[k]? = some e ∧ e.lanes = g := by
    intro e
    constructor
    · intro h
      obtain ⟨k, hk⟩ := List.getElem?_of_mem h
      obtain ⟨d, hd, he⟩ := numberEnts_get _ _ _ _ _ _ hk
      simp only [List.getElem?_map, Option.map_eq_some_iff] at hd
      obtain ⟨g, hg, rfl⟩ := hd
      exact ⟨k, g, hg, hk, by rw [he]⟩
    · rintro ⟨k, g, h1, h2, h3⟩; exact List.mem_of_getElem? h2
  refine ⟨?_, ?_, ?_, ?_, ?_⟩
  · intro k e h
    obtain ⟨d, hd, he⟩ := numberEnts_get _ _ _ _ _ _ h
    simp only [List.getElem?_map, Option.map_eq_some_iff] at hd
    obtain ⟨g, hg, rfl⟩ := hd
    rw [he]; exact ⟨rfl, rfl, rfl, rfl, rfl, rfl, rfl, rfl⟩
  · intro l hl
    have hx : ({ queuedLane l (place l) with data := data l } : Lane) ∈ xs := hxs ▸ List.mem_map.2 ⟨l, hl, rfl⟩
    have hm : xs.filter (fun x => x.loc.line == (place l).line) ∈ byLine xs := by
      rw [mem_byLine]; exact ⟨_, hx, rfl⟩
    obtain ⟨k, hk⟩ := List.getElem?_of_mem hm
    have : k < (numberEnts u ins first ((byLine xs).map (fun g => (⟨[path], op, g⟩ : Draft)))).length := by
      rw [numberEnts_length, List.length_map]; exact (List.getElem?_eq_some_iff.1 hk).1
    refine ⟨_, List.getElem_mem this, ?_⟩
    obtain ⟨d, hd, he⟩ := numberEnts_get _ _ _ _ _ _ (List.getElem?_eq_getElem this)
    simp only [List.getElem?_map, hk, Option.map_some, Option.some.injEq] at hd
    rw [he, ← hd]
    simp only [List.mem_filter]
    exact ⟨hx, by simp⟩
  · intro e x he hx
    obtain ⟨k, g, h1, h2, h3⟩ := (key e).1 he
    rw [h3] at hx
    obtain ⟨y, hy, rfl⟩ := mem_byLine.1 (List.mem_of_getElem? h1)
    simp only [List.mem_filter, ← hxs, List.mem_map] at hx
    obtain ⟨⟨l, hl, rfl⟩, -⟩ := hx
    exact ⟨hl, rfl⟩
  · intro e x y he hx hy
    obtain ⟨k, g, h1, h2, h3⟩ := (key e).1 he
    rw [h3] at hx hy
    obtain ⟨z, hz, rfl⟩ := mem_byLine.1 (List.mem_of_getElem? h1)
    simp only [List.mem_filter, beq_iff_eq] at hx hy
    rw [hx.2, hy.2]
  · intro e f x y he hf hx hy hxy
    obtain ⟨k, g, h1, h2, h3⟩ := (key e).1 he
    obtain ⟨k', g', h1', h2', h3'⟩ := (key f).1 hf
    rw [h3] at hx
    rw [h3'] at hy
    have hp := List.pairwise_iff_getElem.1 (byLine_nodup xs)
    obtain ⟨i1, e1⟩ := List.getElem?_eq_some_iff.1 h1
    obtain ⟨i1', e1'⟩ := List.getElem?_eq_some_iff.1 h1'
    rcases Nat.lt_trichotomy k k' with h | h | h
    · exact absurd hxy (hp k k' i1 i1' h x y (e1 ▸ hx) (e1' ▸ hy))
    · subst h; rw [h2] at h2'; exact Option.some.inj h2'
    · exact absurd hxy.symm (hp k' k i1' i1 h y x (e1' ▸ hy) (e1 ▸ hx))

/-- A look in the TLBs changes nothing but what they hold. -/
theorem State.tlbLook_frame (s : State) (core ctx part : Nat) (va : W64) :
    ∃ cs, (s.tlbLook core ctx part va).2 = { s with cores := cs } := by
  unfold State.tlbLook
  split
  · exact ⟨_, rfl⟩
  · split
    · exact ⟨_, rfl⟩
    · exact ⟨_, rfl⟩

/-- Looking an address up changes nothing but what the TLBs hold. -/
theorem State.lookup_frame (s : State) (core ctx part : Nat) (va : W64) :
    ∃ cs d, (s.lookup core ctx part va).2 = { s with cores := cs, dieTlb := d } := by
  obtain ⟨cs, h⟩ := s.tlbLook_frame core ctx part va
  unfold State.lookup
  split
  · next e s1 he => rw [he] at h; exact ⟨cs, s.dieTlb, h⟩
  · next s1 he =>
    rw [he] at h
    have h : s1 = { s with cores := cs } := h
    subst h
    split
    · exact ⟨_, _, rfl⟩
    · exact ⟨cs, s.dieTlb, rfl⟩

/-- A unit's step over at some lines changes nothing but the homes. -/
theorem State.hubFree_frame (s : State) (rd : Bool) (lines : List Nat) : ∃ h, s.hubFree rd lines = { s with home := h } := by
  have one : ∀ (s : State) (l : Nat), ∃ h, s.usedUp l = { s with home := h } := by
    intro s l
    unfold State.usedUp State.l2Used
    split
    · split
      · exact ⟨_, rfl⟩
      · exact ⟨_, rfl⟩
    · exact ⟨_, rfl⟩
  have all : ∀ (ls : List Nat) (s : State), ∃ h, ls.foldl State.usedUp s = { s with home := h } := by
    intro ls
    induction ls with
    | nil => intro s; exact ⟨s.home, rfl⟩
    | cons l ls ih =>
      intro s
      obtain ⟨h1, e1⟩ := one s l
      obtain ⟨h2, e2⟩ := ih (s.usedUp l)
      exact ⟨h2, by rw [List.foldl_cons, e2, e1]⟩
  unfold State.hubFree
  split
  · exact ⟨s.home, rfl⟩
  · obtain ⟨h, e⟩ := all lines s
    exact ⟨_, by rw [e]; rfl⟩

/-- The first use of a translation register changes nothing but it, what the TLBs hold, and what the homes of its walk's lines were busy with. -/
theorem State.useB_frame (s : State) (t : Slat) (sp : Space) (bn : BitVec 4) :
    ∃ b cs d h, s.useB t sp bn = ({ t with b := b }, { s with cores := cs, dieTlb := d, home := h }) := by
  obtain ⟨cs, d, h⟩ := s.lookup_frame t.core t.ctx t.part (t.bget bn.toNat).vbase
  unfold State.useB
  dsimp only
  split
  · exact ⟨t.b, s.cores, s.dieTlb, s.home, rfl⟩
  · split
    · next e size s1 he =>
      rw [he] at h
      obtain ⟨k, hk⟩ := s1.hubFree_frame true (s.useWalks t sp bn)
      exact ⟨_, cs, d, k, by rw [hk, show s1 = _ from h]; rfl⟩
    · next w s1 _ he =>
      rw [he] at h
      obtain ⟨k, hk⟩ := s1.hubFree_frame true (s.useWalks t sp bn)
      exact ⟨t.b, cs, d, k, by rw [hk, show s1 = _ from h]⟩

theorem State.useB_next (s : State) (t : Slat) (sp : Space) (bn : BitVec 4) : (s.useB t sp bn).2.next = s.next := by
  obtain ⟨b, cs, d, k, h⟩ := s.useB_frame t sp bn
  rw [h]

/-- An M-format instruction that is not held and consumes no marked word places its entries, once the walk for its register can be read (R54, R81,
R106, R165, R175). -/
theorem memIssue_places {s : State} {t : Slat} {u : Issue} {o : MOp} {sp : Space} {p : Plan} (after : State → Nat → State)
    (hf : s.frag = some (t, u)) (hl : p.lanes t u ≠ []) (h1 : t.logFull = false) (h2 : t.ctrFull (ctrOf o.ctr) = false)
    (hw : s.hubOk true (s.useWalks t sp o.bn) = true)
    (ha : ∀ l, l ∈ p.lanes t u → t.addrMarked o sp l = false) (hs : ∀ l, l ∈ p.lanes t u → ∀ x, x ∈ p.srcs → t.marked x 1 l = false) :
    memIssue s o sp p after = .next (after ((s.useB t sp o.bn).2.issueEnts (s.useB t sp o.bn).1 u (ctrOf o.ctr) (p.pre t)
      ((byLine ((p.lanes t u).map (fun l => { queuedLane l (s.locOf t sp o.bn (p.ofs t l)) with data := p.data t l }))).map
        (fun g => ⟨[p.path], p.op t, g⟩)) (p.post t)) t.uid) := by
  unfold memIssue
  rw [onFrag_next _ hf]
  have e1 : (p.lanes t u).isEmpty = false := by cases h : p.lanes t u <;> simp_all
  have e2 : (p.lanes t u).filter (fun l => t.addrMarked o sp l || p.srcs.any (fun x => t.marked x 1 l)) = [] := by
    rw [List.filter_eq_nil_iff]
    intro l hm
    simp [ha l hm]
    intro x hx; exact hs l hm x hx
  simp only [e1, h1, h2, e2, hw]
  rfl

/-- Markers numbered from a place on. -/
def mks (n : Nat) (ms : List (List Path × Marker)) : List QEnt := (ms.zipIdx).map (fun m => markerEnt (n + m.2) m.1.1 m.1.2)

/-- Entries placed between markers, as placed says. -/
theorem issueEnts_placed (s : State) (t : Slat) (u : Issue) (ctr : Option Nat) (pre : List (List Path × Marker)) (ds : List Draft)
    (post : List (List Path × Marker)) :
    s.issueEnts t u ctr pre ds post = placed s t u (mks (s.next + 1) pre ++ numberEnts u s.next (s.next + 1 + pre.length) ds
      ++ mks (s.next + 1 + pre.length + ds.length) post) ctr ds.length (1 + pre.length + ds.length + post.length) := by
  unfold State.issueEnts placed
  simp only [List.append_assoc, mks]
  congr 1; omega
end Sys2Proof.Machine
end

