-- ==== Sys2Proof/Laws/Lines.lean ====
section
/-! SUPPORT. The lines that addresses touch, and the source lines and dependents of a veneer entry, as sets. -/

namespace Sys2Proof.Machine

theorem mem_linesOf {l : Nat} {as : List Nat} : l ∈ linesOf as ↔ ∃ a, a ∈ as ∧ lineOf a = l := by
  simp [linesOf, List.mem_mergeSort]

/-- The byte addresses that a destination line of an entry takes its elements from (R230). -/
def Veneer.feeds (v : Veneer) (m : Nat) : List Nat :=
  ((List.range (128 / v.xf.dz)).map (fun e => addrs (v.srcAddr (v.elemAt m (e * v.xf.dz))) v.xf.sz)).flatten

theorem mem_deps {v : Veneer} {m l : Nat} : l ∈ v.deps m ↔ ∃ a, a ∈ v.feeds m ∧ lineOf a = l := mem_linesOf

theorem mem_dependents {s : State} {l m : Nat} :
    m ∈ s.dependents l ↔ ∃ v, v ∈ s.home.veneers ∧ l ∉ v.unread ∧ m ∈ v.lines ∧ l ∈ v.deps m := by
  simp only [State.dependents, List.mem_flatten, List.mem_map]
  constructor
  · rintro ⟨_, ⟨v, hv, rfl⟩, hm⟩
    refine ⟨v, hv, ?_⟩
    by_cases hu : l ∈ v.unread
    · simp [hu] at hm
    · simpa [hu] using hm
  · rintro ⟨v, hv, hu, hm⟩
    exact ⟨_, ⟨v, hv, rfl⟩, by simpa [hu] using hm⟩

/-- No line of any entry takes a byte of a line: the line has no dependents. -/
theorem dependents_nil {s : State} {l : Nat} (h : ∀ v, v ∈ s.home.veneers → ∀ m, m ∈ v.lines → ∀ a, a ∈ v.feeds m → lineOf a ≠ l) :
    s.dependents l = [] := by
  refine List.eq_nil_iff_forall_not_mem.2 (fun m hm => ?_)
  obtain ⟨v, hv, -, hl, hd⟩ := mem_dependents.1 hm
  obtain ⟨a, ha, e⟩ := mem_deps.1 hd
  exact h v hv m hl a ha e

end Sys2Proof.Machine
end

