-- ==== Sys2Proof/Laws/PerInstr.lean ====
section
/-! SUPPORT. What holds of every instruction as syntax, one lemma for each constructor. -/

namespace Sys2Proof.Laws.Classes

open Sys2Proof

/-- An event has no word and no field a decoder checks (R57); only a vector instruction writes a latch (R35); only an async
instruction has a bit that could continue it (R52). -/
def Statement (i : Instr) : Prop :=
  (i.grp = none → i.reasons = [] ∧ encode i = none) ∧ (i.writesLatch = true → i.grp = some .vector)
    ∧ (i.cont = true → i.grp = some .copy ∨ i.grp = some .fabric)

theorem clauseIssue (core quad : Nat) : Statement (.clauseIssue core quad) := ⟨fun _ => ⟨rfl, rfl⟩, nofun, nofun⟩
theorem smov (o : ROp) : Statement (.smov o) := ⟨fun h => (nomatch show some Grp.scalar = none from h), fun h => (nomatch show false = true from h), fun h => (nomatch show false = true from h)⟩
theorem sadd (o : ROp) : Statement (.sadd o) := ⟨fun h => (nomatch show some Grp.scalar = none from h), fun h => (nomatch show false = true from h), fun h => (nomatch show false = true from h)⟩
theorem ssub (o : ROp) : Statement (.ssub o) := ⟨fun h => (nomatch show some Grp.scalar = none from h), fun h => (nomatch show false = true from h), fun h => (nomatch show false = true from h)⟩
theorem smul (o : ROp) : Statement (.smul o) := ⟨fun h => (nomatch show some Grp.scalar = none from h), fun h => (nomatch show false = true from h), fun h => (nomatch show false = true from h)⟩
theorem smulh (o : ROp) : Statement (.smulh o) := ⟨fun h => (nomatch show some Grp.scalar = none from h), fun h => (nomatch show false = true from h), fun h => (nomatch show false = true from h)⟩
theorem sand (o : ROp) : Statement (.sand o) := ⟨fun h => (nomatch show some Grp.scalar = none from h), fun h => (nomatch show false = true from h), fun h => (nomatch show false = true from h)⟩
theorem sor (o : ROp) : Statement (.sor o) := ⟨fun h => (nomatch show some Grp.scalar = none from h), fun h => (nomatch show false = true from h), fun h => (nomatch show false = true from h)⟩
theorem sxor (o : ROp) : Statement (.sxor o) := ⟨fun h => (nomatch show some Grp.scalar = none from h), fun h => (nomatch show false = true from h), fun h => (nomatch show false = true from h)⟩
theorem sshl (o : ROp) : Statement (.sshl o) := ⟨fun h => (nomatch show some Grp.scalar = none from h), fun h => (nomatch show false = true from h), fun h => (nomatch show false = true from h)⟩
theorem sshr (o : ROp) : Statement (.sshr o) := ⟨fun h => (nomatch show some Grp.scalar = none from h), fun h => (nomatch show false = true from h), fun h => (nomatch show false = true from h)⟩
theorem ssar (o : ROp) : Statement (.ssar o) := ⟨fun h => (nomatch show some Grp.scalar = none from h), fun h => (nomatch show false = true from h), fun h => (nomatch show false = true from h)⟩
theorem smin (o : ROp) : Statement (.smin o) := ⟨fun h => (nomatch show some Grp.scalar = none from h), fun h => (nomatch show false = true from h), fun h => (nomatch show false = true from h)⟩
theorem smax (o : ROp) : Statement (.smax o) := ⟨fun h => (nomatch show some Grp.scalar = none from h), fun h => (nomatch show false = true from h), fun h => (nomatch show false = true from h)⟩
theorem scmpSigned (o : ROp) : Statement (.scmpSigned o) := ⟨fun h => (nomatch show some Grp.scalar = none from h), fun h => (nomatch show false = true from h), fun h => (nomatch show false = true from h)⟩
theorem scmpUnsigned (o : ROp) : Statement (.scmpUnsigned o) := ⟨fun h => (nomatch show some Grp.scalar = none from h), fun h => (nomatch show false = true from h), fun h => (nomatch show false = true from h)⟩
theorem ssel (o : ROp) : Statement (.ssel o) := ⟨fun h => (nomatch show some Grp.scalar = none from h), fun h => (nomatch show false = true from h), fun h => (nomatch show false = true from h)⟩
theorem sclz (o : ROp) : Statement (.sclz o) := ⟨fun h => (nomatch show some Grp.scalar = none from h), fun h => (nomatch show false = true from h), fun h => (nomatch show false = true from h)⟩
theorem spop (o : ROp) : Statement (.spop o) := ⟨fun h => (nomatch show some Grp.scalar = none from h), fun h => (nomatch show false = true from h), fun h => (nomatch show false = true from h)⟩
theorem sxlat (o : ROp) : Statement (.sxlat o) := ⟨fun h => (nomatch show some Grp.scalar = none from h), fun h => (nomatch show false = true from h), fun h => (nomatch show false = true from h)⟩
theorem sli (o : IOp) : Statement (.sli o) := ⟨fun h => (nomatch show some Grp.scalar = none from h), fun h => (nomatch show false = true from h), fun h => (nomatch show false = true from h)⟩
theorem slih (o : IOp) : Statement (.slih o) := ⟨fun h => (nomatch show some Grp.scalar = none from h), fun h => (nomatch show false = true from h), fun h => (nomatch show false = true from h)⟩
theorem srd (o : IOp) : Statement (.srd o) := ⟨fun h => (nomatch show some Grp.scalar = none from h), fun h => (nomatch show false = true from h), fun h => (nomatch show false = true from h)⟩
theorem swr (o : IOp) : Statement (.swr o) := ⟨fun h => (nomatch show some Grp.scalar = none from h), fun h => (nomatch show false = true from h), fun h => (nomatch show false = true from h)⟩
theorem saddI (o : IOp) : Statement (.saddI o) := ⟨fun h => (nomatch show some Grp.scalar = none from h), fun h => (nomatch show false = true from h), fun h => (nomatch show false = true from h)⟩
theorem ssubI (o : IOp) : Statement (.ssubI o) := ⟨fun h => (nomatch show some Grp.scalar = none from h), fun h => (nomatch show false = true from h), fun h => (nomatch show false = true from h)⟩
theorem smulI (o : IOp) : Statement (.smulI o) := ⟨fun h => (nomatch show some Grp.scalar = none from h), fun h => (nomatch show false = true from h), fun h => (nomatch show false = true from h)⟩
theorem sandI (o : IOp) : Statement (.sandI o) := ⟨fun h => (nomatch show some Grp.scalar = none from h), fun h => (nomatch show false = true from h), fun h => (nomatch show false = true from h)⟩
theorem sorI (o : IOp) : Statement (.sorI o) := ⟨fun h => (nomatch show some Grp.scalar = none from h), fun h => (nomatch show false = true from h), fun h => (nomatch show false = true from h)⟩
theorem sxorI (o : IOp) : Statement (.sxorI o) := ⟨fun h => (nomatch show some Grp.scalar = none from h), fun h => (nomatch show false = true from h), fun h => (nomatch show false = true from h)⟩
theorem sshlI (o : IOp) : Statement (.sshlI o) := ⟨fun h => (nomatch show some Grp.scalar = none from h), fun h => (nomatch show false = true from h), fun h => (nomatch show false = true from h)⟩
theorem sshrI (o : IOp) : Statement (.sshrI o) := ⟨fun h => (nomatch show some Grp.scalar = none from h), fun h => (nomatch show false = true from h), fun h => (nomatch show false = true from h)⟩
theorem ssarI (o : IOp) : Statement (.ssarI o) := ⟨fun h => (nomatch show some Grp.scalar = none from h), fun h => (nomatch show false = true from h), fun h => (nomatch show false = true from h)⟩
theorem scmpSignedI (o : IOp) : Statement (.scmpSignedI o) := ⟨fun h => (nomatch show some Grp.scalar = none from h), fun h => (nomatch show false = true from h), fun h => (nomatch show false = true from h)⟩
theorem scmpUnsignedI (o : IOp) : Statement (.scmpUnsignedI o) := ⟨fun h => (nomatch show some Grp.scalar = none from h), fun h => (nomatch show false = true from h), fun h => (nomatch show false = true from h)⟩
theorem bra (o : IOp) : Statement (.bra o) := ⟨fun h => (nomatch show some Grp.flow = none from h), fun h => (nomatch show false = true from h), fun h => (nomatch show false = true from h)⟩
theorem braDivergent (o : IOp) : Statement (.braDivergent o) := ⟨fun h => (nomatch show some Grp.flow = none from h), fun h => (nomatch show false = true from h), fun h => (nomatch show false = true from h)⟩
theorem brx (o : ROp) : Statement (.brx o) := ⟨fun h => (nomatch show some Grp.flow = none from h), fun h => (nomatch show false = true from h), fun h => (nomatch show false = true from h)⟩
theorem call (o : IOp) : Statement (.call o) := ⟨fun h => (nomatch show some Grp.flow = none from h), fun h => (nomatch show false = true from h), fun h => (nomatch show false = true from h)⟩
theorem ret (o : ROp) : Statement (.ret o) := ⟨fun h => (nomatch show some Grp.flow = none from h), fun h => (nomatch show false = true from h), fun h => (nomatch show false = true from h)⟩
theorem exit (o : ZOp) : Statement (.exit o) := ⟨fun h => (nomatch show some Grp.flow = none from h), fun h => (nomatch show false = true from h), fun h => (nomatch show false = true from h)⟩
theorem yield (o : IOp) : Statement (.yield o) := ⟨fun h => (nomatch show some Grp.flow = none from h), fun h => (nomatch show false = true from h), fun h => (nomatch show false = true from h)⟩
theorem nop (o : ZOp) : Statement (.nop o) := ⟨fun h => (nomatch show some Grp.nop = none from h), fun h => (nomatch show false = true from h), fun h => (nomatch show false = true from h)⟩
theorem part (o : IOp) : Statement (.part o) := ⟨fun h => (nomatch show some Grp.part = none from h), fun h => (nomatch show false = true from h), fun h => (nomatch show false = true from h)⟩
theorem mov (o : ROp) : Statement (.mov o) := ⟨fun h => (nomatch show some Grp.vector = none from h), fun _ => rfl, fun h => (nomatch show false = true from h)⟩
theorem iadd (o : ROp) : Statement (.iadd o) := ⟨fun h => (nomatch show some Grp.vector = none from h), fun _ => rfl, fun h => (nomatch show false = true from h)⟩
theorem isub (o : ROp) : Statement (.isub o) := ⟨fun h => (nomatch show some Grp.vector = none from h), fun _ => rfl, fun h => (nomatch show false = true from h)⟩
theorem iaddc (o : ROp) : Statement (.iaddc o) := ⟨fun h => (nomatch show some Grp.vector = none from h), fun _ => rfl, fun h => (nomatch show false = true from h)⟩
theorem isubb (o : ROp) : Statement (.isubb o) := ⟨fun h => (nomatch show some Grp.vector = none from h), fun _ => rfl, fun h => (nomatch show false = true from h)⟩
theorem imul (o : ROp) : Statement (.imul o) := ⟨fun h => (nomatch show some Grp.vector = none from h), fun _ => rfl, fun h => (nomatch show false = true from h)⟩
theorem imulh (o : ROp) : Statement (.imulh o) := ⟨fun h => (nomatch show some Grp.vector = none from h), fun _ => rfl, fun h => (nomatch show false = true from h)⟩
theorem imad (o : ROp) : Statement (.imad o) := ⟨fun h => (nomatch show some Grp.vector = none from h), fun _ => rfl, fun h => (nomatch show false = true from h)⟩
theorem imin (o : ROp) : Statement (.imin o) := ⟨fun h => (nomatch show some Grp.vector = none from h), fun _ => rfl, fun h => (nomatch show false = true from h)⟩
theorem imax (o : ROp) : Statement (.imax o) := ⟨fun h => (nomatch show some Grp.vector = none from h), fun _ => rfl, fun h => (nomatch show false = true from h)⟩
theorem iabs (o : ROp) : Statement (.iabs o) := ⟨fun h => (nomatch show some Grp.vector = none from h), fun _ => rfl, fun h => (nomatch show false = true from h)⟩
theorem lgf (o : ROp) : Statement (.lgf o) := ⟨fun h => (nomatch show some Grp.vector = none from h), fun _ => rfl, fun h => (nomatch show false = true from h)⟩
theorem shl (o : ROp) : Statement (.shl o) := ⟨fun h => (nomatch show some Grp.vector = none from h), fun _ => rfl, fun h => (nomatch show false = true from h)⟩
theorem shr (o : ROp) : Statement (.shr o) := ⟨fun h => (nomatch show some Grp.vector = none from h), fun _ => rfl, fun h => (nomatch show false = true from h)⟩
theorem sar (o : ROp) : Statement (.sar o) := ⟨fun h => (nomatch show some Grp.vector = none from h), fun _ => rfl, fun h => (nomatch show false = true from h)⟩
theorem rot (o : ROp) : Statement (.rot o) := ⟨fun h => (nomatch show some Grp.vector = none from h), fun _ => rfl, fun h => (nomatch show false = true from h)⟩
theorem clz (o : ROp) : Statement (.clz o) := ⟨fun h => (nomatch show some Grp.vector = none from h), fun _ => rfl, fun h => (nomatch show false = true from h)⟩
theorem pop (o : ROp) : Statement (.pop o) := ⟨fun h => (nomatch show some Grp.vector = none from h), fun _ => rfl, fun h => (nomatch show false = true from h)⟩
theorem brev (o : ROp) : Statement (.brev o) := ⟨fun h => (nomatch show some Grp.vector = none from h), fun _ => rfl, fun h => (nomatch show false = true from h)⟩
theorem bfx (o : ROp) : Statement (.bfx o) := ⟨fun h => (nomatch show some Grp.vector = none from h), fun _ => rfl, fun h => (nomatch show false = true from h)⟩
theorem bfi (o : ROp) : Statement (.bfi o) := ⟨fun h => (nomatch show some Grp.vector = none from h), fun _ => rfl, fun h => (nomatch show false = true from h)⟩
theorem bmix (o : ROp) : Statement (.bmix o) := ⟨fun h => (nomatch show some Grp.vector = none from h), fun _ => rfl, fun h => (nomatch show false = true from h)⟩
theorem icmpSigned (o : ROp) : Statement (.icmpSigned o) := ⟨fun h => (nomatch show some Grp.vector = none from h), fun _ => rfl, fun h => (nomatch show false = true from h)⟩
theorem icmpUnsigned (o : ROp) : Statement (.icmpUnsigned o) := ⟨fun h => (nomatch show some Grp.vector = none from h), fun _ => rfl, fun h => (nomatch show false = true from h)⟩
theorem sel (o : ROp) : Statement (.sel o) := ⟨fun h => (nomatch show some Grp.vector = none from h), fun _ => rfl, fun h => (nomatch show false = true from h)⟩
theorem iext (o : ROp) : Statement (.iext o) := ⟨fun h => (nomatch show some Grp.vector = none from h), fun _ => rfl, fun h => (nomatch show false = true from h)⟩
theorem li (o : IOp) : Statement (.li o) := ⟨fun h => (nomatch show some Grp.vector = none from h), fun _ => rfl, fun h => (nomatch show false = true from h)⟩
theorem iaddI (o : IOp) : Statement (.iaddI o) := ⟨fun h => (nomatch show some Grp.vector = none from h), fun _ => rfl, fun h => (nomatch show false = true from h)⟩
theorem isubI (o : IOp) : Statement (.isubI o) := ⟨fun h => (nomatch show some Grp.vector = none from h), fun _ => rfl, fun h => (nomatch show false = true from h)⟩
theorem imulI (o : IOp) : Statement (.imulI o) := ⟨fun h => (nomatch show some Grp.vector = none from h), fun _ => rfl, fun h => (nomatch show false = true from h)⟩
theorem shlI (o : IOp) : Statement (.shlI o) := ⟨fun h => (nomatch show some Grp.vector = none from h), fun _ => rfl, fun h => (nomatch show false = true from h)⟩
theorem shrI (o : IOp) : Statement (.shrI o) := ⟨fun h => (nomatch show some Grp.vector = none from h), fun _ => rfl, fun h => (nomatch show false = true from h)⟩
theorem sarI (o : IOp) : Statement (.sarI o) := ⟨fun h => (nomatch show some Grp.vector = none from h), fun _ => rfl, fun h => (nomatch show false = true from h)⟩
theorem rotI (o : IOp) : Statement (.rotI o) := ⟨fun h => (nomatch show some Grp.vector = none from h), fun _ => rfl, fun h => (nomatch show false = true from h)⟩
theorem icmpSignedI (o : IOp) : Statement (.icmpSignedI o) := ⟨fun h => (nomatch show some Grp.vector = none from h), fun _ => rfl, fun h => (nomatch show false = true from h)⟩
theorem icmpUnsignedI (o : IOp) : Statement (.icmpUnsignedI o) := ⟨fun h => (nomatch show some Grp.vector = none from h), fun _ => rfl, fun h => (nomatch show false = true from h)⟩
theorem fadd (o : ROp) : Statement (.fadd o) := ⟨fun h => (nomatch show some Grp.vector = none from h), fun _ => rfl, fun h => (nomatch show false = true from h)⟩
theorem fsub (o : ROp) : Statement (.fsub o) := ⟨fun h => (nomatch show some Grp.vector = none from h), fun _ => rfl, fun h => (nomatch show false = true from h)⟩
theorem fmul (o : ROp) : Statement (.fmul o) := ⟨fun h => (nomatch show some Grp.vector = none from h), fun _ => rfl, fun h => (nomatch show false = true from h)⟩
theorem ffma (o : ROp) : Statement (.ffma o) := ⟨fun h => (nomatch show some Grp.vector = none from h), fun _ => rfl, fun h => (nomatch show false = true from h)⟩
theorem fmin (o : ROp) : Statement (.fmin o) := ⟨fun h => (nomatch show some Grp.vector = none from h), fun _ => rfl, fun h => (nomatch show false = true from h)⟩
theorem fmax (o : ROp) : Statement (.fmax o) := ⟨fun h => (nomatch show some Grp.vector = none from h), fun _ => rfl, fun h => (nomatch show false = true from h)⟩
theorem fcmp (o : ROp) : Statement (.fcmp o) := ⟨fun h => (nomatch show some Grp.vector = none from h), fun _ => rfl, fun h => (nomatch show false = true from h)⟩
theorem frnd (o : ROp) : Statement (.frnd o) := ⟨fun h => (nomatch show some Grp.vector = none from h), fun _ => rfl, fun h => (nomatch show false = true from h)⟩
theorem fscl (o : ROp) : Statement (.fscl o) := ⟨fun h => (nomatch show some Grp.vector = none from h), fun _ => rfl, fun h => (nomatch show false = true from h)⟩
theorem fclass (o : ROp) : Statement (.fclass o) := ⟨fun h => (nomatch show some Grp.vector = none from h), fun _ => rfl, fun h => (nomatch show false = true from h)⟩
theorem frcp (o : ROp) : Statement (.frcp o) := ⟨fun h => (nomatch show some Grp.vector = none from h), fun _ => rfl, fun h => (nomatch show false = true from h)⟩
theorem frsq (o : ROp) : Statement (.frsq o) := ⟨fun h => (nomatch show some Grp.vector = none from h), fun _ => rfl, fun h => (nomatch show false = true from h)⟩
theorem fsqrt (o : ROp) : Statement (.fsqrt o) := ⟨fun h => (nomatch show some Grp.vector = none from h), fun _ => rfl, fun h => (nomatch show false = true from h)⟩
theorem fex2 (o : ROp) : Statement (.fex2 o) := ⟨fun h => (nomatch show some Grp.vector = none from h), fun _ => rfl, fun h => (nomatch show false = true from h)⟩
theorem flg2 (o : ROp) : Statement (.flg2 o) := ⟨fun h => (nomatch show some Grp.vector = none from h), fun _ => rfl, fun h => (nomatch show false = true from h)⟩
theorem fsin (o : ROp) : Statement (.fsin o) := ⟨fun h => (nomatch show some Grp.vector = none from h), fun _ => rfl, fun h => (nomatch show false = true from h)⟩
theorem fcos (o : ROp) : Statement (.fcos o) := ⟨fun h => (nomatch show some Grp.vector = none from h), fun _ => rfl, fun h => (nomatch show false = true from h)⟩
theorem fcvt (o : ROp) : Statement (.fcvt o) := ⟨fun h => (nomatch show some Grp.vector = none from h), fun _ => rfl, fun h => (nomatch show false = true from h)⟩
theorem pfadd (o : ROp) : Statement (.pfadd o) := ⟨fun h => (nomatch show some Grp.vector = none from h), fun _ => rfl, fun h => (nomatch show false = true from h)⟩
theorem pfmul (o : ROp) : Statement (.pfmul o) := ⟨fun h => (nomatch show some Grp.vector = none from h), fun _ => rfl, fun h => (nomatch show false = true from h)⟩
theorem pffma (o : ROp) : Statement (.pffma o) := ⟨fun h => (nomatch show some Grp.vector = none from h), fun _ => rfl, fun h => (nomatch show false = true from h)⟩
theorem pfcvt (o : ROp) : Statement (.pfcvt o) := ⟨fun h => (nomatch show some Grp.vector = none from h), fun _ => rfl, fun h => (nomatch show false = true from h)⟩
theorem faddI (o : IOp) : Statement (.faddI o) := ⟨fun h => (nomatch show some Grp.vector = none from h), fun _ => rfl, fun h => (nomatch show false = true from h)⟩
theorem fsubI (o : IOp) : Statement (.fsubI o) := ⟨fun h => (nomatch show some Grp.vector = none from h), fun _ => rfl, fun h => (nomatch show false = true from h)⟩
theorem fmulI (o : IOp) : Statement (.fmulI o) := ⟨fun h => (nomatch show some Grp.vector = none from h), fun _ => rfl, fun h => (nomatch show false = true from h)⟩
theorem fminI (o : IOp) : Statement (.fminI o) := ⟨fun h => (nomatch show some Grp.vector = none from h), fun _ => rfl, fun h => (nomatch show false = true from h)⟩
theorem fmaxI (o : IOp) : Statement (.fmaxI o) := ⟨fun h => (nomatch show some Grp.vector = none from h), fun _ => rfl, fun h => (nomatch show false = true from h)⟩
theorem shf (o : ROp) : Statement (.shf o) := ⟨fun h => (nomatch show some Grp.vector = none from h), fun _ => rfl, fun h => (nomatch show false = true from h)⟩
theorem shfI (o : IOp) : Statement (.shfI o) := ⟨fun h => (nomatch show some Grp.vector = none from h), fun _ => rfl, fun h => (nomatch show false = true from h)⟩
theorem vall (o : ROp) : Statement (.vall o) := ⟨fun h => (nomatch show some Grp.vector = none from h), fun _ => rfl, fun h => (nomatch show false = true from h)⟩
theorem vany (o : ROp) : Statement (.vany o) := ⟨fun h => (nomatch show some Grp.vector = none from h), fun _ => rfl, fun h => (nomatch show false = true from h)⟩
theorem vbal (o : ROp) : Statement (.vbal o) := ⟨fun h => (nomatch show some Grp.vector = none from h), fun _ => rfl, fun h => (nomatch show false = true from h)⟩
theorem vmatch (o : ROp) : Statement (.vmatch o) := ⟨fun h => (nomatch show some Grp.vector = none from h), fun _ => rfl, fun h => (nomatch show false = true from h)⟩
theorem scan (o : ROp) : Statement (.scan o) := ⟨fun h => (nomatch show some Grp.vector = none from h), fun _ => rfl, fun h => (nomatch show false = true from h)⟩
theorem lred (o : ROp) : Statement (.lred o) := ⟨fun h => (nomatch show some Grp.vector = none from h), fun _ => rfl, fun h => (nomatch show false = true from h)⟩
theorem isect (o : ROp) : Statement (.isect o) := ⟨fun h => (nomatch show some Grp.vector = none from h), fun _ => rfl, fun h => (nomatch show false = true from h)⟩
theorem ld (o : MOp) : Statement (.ld o) := ⟨fun h => (nomatch show some Grp.memory = none from h), fun h => (nomatch show false = true from h), fun h => (nomatch show false = true from h)⟩
theorem st (o : MOp) : Statement (.st o) := ⟨fun h => (nomatch show some Grp.memory = none from h), fun h => (nomatch show false = true from h), fun h => (nomatch show false = true from h)⟩
theorem lds (o : MOp) : Statement (.lds o) := ⟨fun h => (nomatch show some Grp.memory = none from h), fun h => (nomatch show false = true from h), fun h => (nomatch show false = true from h)⟩
theorem sts (o : MOp) : Statement (.sts o) := ⟨fun h => (nomatch show some Grp.memory = none from h), fun h => (nomatch show false = true from h), fun h => (nomatch show false = true from h)⟩
theorem ldp (o : MOp) : Statement (.ldp o) := ⟨fun h => (nomatch show some Grp.memory = none from h), fun h => (nomatch show false = true from h), fun h => (nomatch show false = true from h)⟩
theorem stp (o : MOp) : Statement (.stp o) := ⟨fun h => (nomatch show some Grp.memory = none from h), fun h => (nomatch show false = true from h), fun h => (nomatch show false = true from h)⟩
theorem sld (o : MOp) : Statement (.sld o) := ⟨fun h => (nomatch show some Grp.memory = none from h), fun h => (nomatch show false = true from h), fun h => (nomatch show false = true from h)⟩
theorem sst (o : MOp) : Statement (.sst o) := ⟨fun h => (nomatch show some Grp.memory = none from h), fun h => (nomatch show false = true from h), fun h => (nomatch show false = true from h)⟩
theorem pref (o : MOp) : Statement (.pref o) := ⟨fun h => (nomatch show some Grp.memory = none from h), fun h => (nomatch show false = true from h), fun h => (nomatch show false = true from h)⟩
theorem acc (o : MOp) : Statement (.acc o) := ⟨fun h => (nomatch show some Grp.memory = none from h), fun h => (nomatch show false = true from h), fun h => (nomatch show false = true from h)⟩
theorem ldt (o : MOp) : Statement (.ldt o) := ⟨fun h => (nomatch show some Grp.memory = none from h), fun h => (nomatch show false = true from h), fun h => (nomatch show false = true from h)⟩
theorem drn (o : MOp) : Statement (.drn o) := ⟨fun h => (nomatch show some Grp.memory = none from h), fun h => (nomatch show false = true from h), fun h => (nomatch show false = true from h)⟩
theorem grd (o : MOp) : Statement (.grd o) := ⟨fun h => (nomatch show some Grp.memory = none from h), fun h => (nomatch show false = true from h), fun h => (nomatch show false = true from h)⟩
theorem bnd (o : ROp) : Statement (.bnd o) := ⟨fun h => (nomatch show some Grp.memory = none from h), fun h => (nomatch show false = true from h), fun h => (nomatch show false = true from h)⟩
theorem atmAdd (o : MOp) : Statement (.atmAdd o) := ⟨fun h => (nomatch show some Grp.memory = none from h), fun h => (nomatch show false = true from h), fun h => (nomatch show false = true from h)⟩
theorem atmMin (o : MOp) : Statement (.atmMin o) := ⟨fun h => (nomatch show some Grp.memory = none from h), fun h => (nomatch show false = true from h), fun h => (nomatch show false = true from h)⟩
theorem atmMax (o : MOp) : Statement (.atmMax o) := ⟨fun h => (nomatch show some Grp.memory = none from h), fun h => (nomatch show false = true from h), fun h => (nomatch show false = true from h)⟩
theorem atmAnd (o : MOp) : Statement (.atmAnd o) := ⟨fun h => (nomatch show some Grp.memory = none from h), fun h => (nomatch show false = true from h), fun h => (nomatch show false = true from h)⟩
theorem atmOr (o : MOp) : Statement (.atmOr o) := ⟨fun h => (nomatch show some Grp.memory = none from h), fun h => (nomatch show false = true from h), fun h => (nomatch show false = true from h)⟩
theorem atmXor (o : MOp) : Statement (.atmXor o) := ⟨fun h => (nomatch show some Grp.memory = none from h), fun h => (nomatch show false = true from h), fun h => (nomatch show false = true from h)⟩
theorem atmXchg (o : MOp) : Statement (.atmXchg o) := ⟨fun h => (nomatch show some Grp.memory = none from h), fun h => (nomatch show false = true from h), fun h => (nomatch show false = true from h)⟩
theorem atmCas (o : MOp) : Statement (.atmCas o) := ⟨fun h => (nomatch show some Grp.memory = none from h), fun h => (nomatch show false = true from h), fun h => (nomatch show false = true from h)⟩
theorem atmFadd (o : MOp) : Statement (.atmFadd o) := ⟨fun h => (nomatch show some Grp.memory = none from h), fun h => (nomatch show false = true from h), fun h => (nomatch show false = true from h)⟩
theorem atmFmax (o : MOp) : Statement (.atmFmax o) := ⟨fun h => (nomatch show some Grp.memory = none from h), fun h => (nomatch show false = true from h), fun h => (nomatch show false = true from h)⟩
theorem atmsAdd (o : MOp) : Statement (.atmsAdd o) := ⟨fun h => (nomatch show some Grp.memory = none from h), fun h => (nomatch show false = true from h), fun h => (nomatch show false = true from h)⟩
theorem atmsMin (o : MOp) : Statement (.atmsMin o) := ⟨fun h => (nomatch show some Grp.memory = none from h), fun h => (nomatch show false = true from h), fun h => (nomatch show false = true from h)⟩
theorem atmsMax (o : MOp) : Statement (.atmsMax o) := ⟨fun h => (nomatch show some Grp.memory = none from h), fun h => (nomatch show false = true from h), fun h => (nomatch show false = true from h)⟩
theorem atmsAnd (o : MOp) : Statement (.atmsAnd o) := ⟨fun h => (nomatch show some Grp.memory = none from h), fun h => (nomatch show false = true from h), fun h => (nomatch show false = true from h)⟩
theorem atmsOr (o : MOp) : Statement (.atmsOr o) := ⟨fun h => (nomatch show some Grp.memory = none from h), fun h => (nomatch show false = true from h), fun h => (nomatch show false = true from h)⟩
theorem atmsXor (o : MOp) : Statement (.atmsXor o) := ⟨fun h => (nomatch show some Grp.memory = none from h), fun h => (nomatch show false = true from h), fun h => (nomatch show false = true from h)⟩
theorem atmsXchg (o : MOp) : Statement (.atmsXchg o) := ⟨fun h => (nomatch show some Grp.memory = none from h), fun h => (nomatch show false = true from h), fun h => (nomatch show false = true from h)⟩
theorem atmsCas (o : MOp) : Statement (.atmsCas o) := ⟨fun h => (nomatch show some Grp.memory = none from h), fun h => (nomatch show false = true from h), fun h => (nomatch show false = true from h)⟩
theorem atmsFadd (o : MOp) : Statement (.atmsFadd o) := ⟨fun h => (nomatch show some Grp.memory = none from h), fun h => (nomatch show false = true from h), fun h => (nomatch show false = true from h)⟩
theorem atmsFmax (o : MOp) : Statement (.atmsFmax o) := ⟨fun h => (nomatch show some Grp.memory = none from h), fun h => (nomatch show false = true from h), fun h => (nomatch show false = true from h)⟩
theorem fen (o : ROp) : Statement (.fen o) := ⟨fun h => (nomatch show some Grp.memory = none from h), fun h => (nomatch show false = true from h), fun h => (nomatch show false = true from h)⟩
theorem clmi (o : MOp) : Statement (.clmi o) := ⟨fun h => (nomatch show some Grp.memory = none from h), fun h => (nomatch show false = true from h), fun h => (nomatch show false = true from h)⟩
theorem clmx (o : MOp) : Statement (.clmx o) := ⟨fun h => (nomatch show some Grp.memory = none from h), fun h => (nomatch show false = true from h), fun h => (nomatch show false = true from h)⟩
theorem clma (o : MOp) : Statement (.clma o) := ⟨fun h => (nomatch show some Grp.memory = none from h), fun h => (nomatch show false = true from h), fun h => (nomatch show false = true from h)⟩
theorem clmw (o : MOp) : Statement (.clmw o) := ⟨fun h => (nomatch show some Grp.memory = none from h), fun h => (nomatch show false = true from h), fun h => (nomatch show false = true from h)⟩
theorem clmt (o : MOp) : Statement (.clmt o) := ⟨fun h => (nomatch show some Grp.memory = none from h), fun h => (nomatch show false = true from h), fun h => (nomatch show false = true from h)⟩
theorem tbar (o : ZOp) : Statement (.tbar o) := ⟨fun h => (nomatch show some Grp.memory = none from h), fun h => (nomatch show false = true from h), fun h => (nomatch show false = true from h)⟩
theorem cpy (o : XOp) : Statement (.cpy o) := ⟨fun h => (nomatch show some Grp.copy = none from h), fun h => (nomatch show false = true from h), fun _ => .inl rfl⟩
theorem cpye (o : XOp) : Statement (.cpye o) := ⟨fun h => (nomatch show some Grp.copy = none from h), fun h => (nomatch show false = true from h), fun _ => .inl rfl⟩
theorem rel (o : XOp) : Statement (.rel o) := ⟨fun h => (nomatch show some Grp.copy = none from h), fun h => (nomatch show false = true from h), fun _ => .inl rfl⟩
theorem cpys (o : XOp) : Statement (.cpys o) := ⟨fun h => (nomatch show some Grp.copy = none from h), fun h => (nomatch show false = true from h), fun _ => .inl rfl⟩
theorem cpym (o : XOp) : Statement (.cpym o) := ⟨fun h => (nomatch show some Grp.copy = none from h), fun h => (nomatch show false = true from h), fun _ => .inl rfl⟩
theorem mat (o : XOp) : Statement (.mat o) := ⟨fun h => (nomatch show some Grp.copy = none from h), fun h => (nomatch show false = true from h), fun _ => .inl rfl⟩
theorem vdrop (o : XOp) : Statement (.vdrop o) := ⟨fun h => (nomatch show some Grp.copy = none from h), fun h => (nomatch show false = true from h), fun _ => .inl rfl⟩
theorem vstat (o : XOp) : Statement (.vstat o) := ⟨fun h => (nomatch show some Grp.copy = none from h), fun h => (nomatch show false = true from h), fun _ => .inl rfl⟩
theorem mmaF8 (o : TOp) : Statement (.mmaF8 o) := ⟨fun h => (nomatch show some Grp.matrix = none from h), fun h => (nomatch show false = true from h), fun h => (nomatch show false = true from h)⟩
theorem mmaBf (o : TOp) : Statement (.mmaBf o) := ⟨fun h => (nomatch show some Grp.matrix = none from h), fun h => (nomatch show false = true from h), fun h => (nomatch show false = true from h)⟩
theorem mmaI8 (o : TOp) : Statement (.mmaI8 o) := ⟨fun h => (nomatch show some Grp.matrix = none from h), fun h => (nomatch show false = true from h), fun h => (nomatch show false = true from h)⟩
theorem azero (o : TOp) : Statement (.azero o) := ⟨fun h => (nomatch show some Grp.matrix = none from h), fun h => (nomatch show false = true from h), fun h => (nomatch show false = true from h)⟩
theorem ard (o : TOp) : Statement (.ard o) := ⟨fun h => (nomatch show some Grp.matrix = none from h), fun h => (nomatch show false = true from h), fun h => (nomatch show false = true from h)⟩
theorem awr (o : TOp) : Statement (.awr o) := ⟨fun h => (nomatch show some Grp.matrix = none from h), fun h => (nomatch show false = true from h), fun h => (nomatch show false = true from h)⟩
theorem fin (o : TOp) : Statement (.fin o) := ⟨fun h => (nomatch show some Grp.matrix = none from h), fun h => (nomatch show false = true from h), fun h => (nomatch show false = true from h)⟩
theorem fpl (o : TOp) : Statement (.fpl o) := ⟨fun h => (nomatch show some Grp.matrix = none from h), fun h => (nomatch show false = true from h), fun h => (nomatch show false = true from h)⟩
theorem xput (o : XOp) : Statement (.xput o) := ⟨fun h => (nomatch show some Grp.fabric = none from h), fun h => (nomatch show false = true from h), fun _ => .inr rfl⟩
theorem xred (o : XOp) : Statement (.xred o) := ⟨fun h => (nomatch show some Grp.fabric = none from h), fun h => (nomatch show false = true from h), fun _ => .inr rfl⟩
theorem xget (o : XOp) : Statement (.xget o) := ⟨fun h => (nomatch show some Grp.fabric = none from h), fun h => (nomatch show false = true from h), fun _ => .inr rfl⟩
theorem xfen (o : XOp) : Statement (.xfen o) := ⟨fun h => (nomatch show some Grp.fabric = none from h), fun h => (nomatch show false = true from h), fun _ => .inr rfl⟩
theorem deq (o : YOp) : Statement (.deq o) := ⟨fun h => (nomatch show some Grp.system = none from h), fun h => (nomatch show false = true from h), fun h => (nomatch show false = true from h)⟩
theorem enq (o : YOp) : Statement (.enq o) := ⟨fun h => (nomatch show some Grp.system = none from h), fun h => (nomatch show false = true from h), fun h => (nomatch show false = true from h)⟩
theorem lnch (o : YOp) : Statement (.lnch o) := ⟨fun h => (nomatch show some Grp.system = none from h), fun h => (nomatch show false = true from h), fun h => (nomatch show false = true from h)⟩
theorem cwait (o : YOp) : Statement (.cwait o) := ⟨fun h => (nomatch show some Grp.system = none from h), fun h => (nomatch show false = true from h), fun h => (nomatch show false = true from h)⟩
theorem trap (o : YOp) : Statement (.trap o) := ⟨fun h => (nomatch show some Grp.system = none from h), fun h => (nomatch show false = true from h), fun h => (nomatch show false = true from h)⟩
theorem rti (o : YOp) : Statement (.rti o) := ⟨fun h => (nomatch show some Grp.system = none from h), fun h => (nomatch show false = true from h), fun h => (nomatch show false = true from h)⟩
theorem brk (o : YOp) : Statement (.brk o) := ⟨fun h => (nomatch show some Grp.system = none from h), fun h => (nomatch show false = true from h), fun h => (nomatch show false = true from h)⟩
theorem ctxs (o : YOp) : Statement (.ctxs o) := ⟨fun h => (nomatch show some Grp.system = none from h), fun h => (nomatch show false = true from h), fun h => (nomatch show false = true from h)⟩
theorem ctxl (o : YOp) : Statement (.ctxl o) := ⟨fun h => (nomatch show some Grp.system = none from h), fun h => (nomatch show false = true from h), fun h => (nomatch show false = true from h)⟩
theorem tlbi (o : YOp) : Statement (.tlbi o) := ⟨fun h => (nomatch show some Grp.system = none from h), fun h => (nomatch show false = true from h), fun h => (nomatch show false = true from h)⟩
theorem pathEntryLeave (uid seq : Nat) : Statement (.pathEntryLeave uid seq) := ⟨fun _ => ⟨rfl, rfl⟩, nofun, nofun⟩
theorem faultRecordWrite (fn : Nat) : Statement (.faultRecordWrite fn) := ⟨fun _ => ⟨rfl, rfl⟩, nofun, nofun⟩
theorem releaseMarkerComplete (uid seq : Nat) : Statement (.releaseMarkerComplete uid seq) := ⟨fun _ => ⟨rfl, rfl⟩, nofun, nofun⟩
theorem acquireMarkerComplete (uid seq : Nat) : Statement (.acquireMarkerComplete uid seq) := ⟨fun _ => ⟨rfl, rfl⟩, nofun, nofun⟩
theorem holdWindowExit (core : Nat) : Statement (.holdWindowExit core) := ⟨fun _ => ⟨rfl, rfl⟩, nofun, nofun⟩
theorem homeRead (req : Nat) : Statement (.homeRead req) := ⟨fun _ => ⟨rfl, rfl⟩, nofun, nofun⟩
theorem homeWrite (req : Nat) : Statement (.homeWrite req) := ⟨fun _ => ⟨rfl, rfl⟩, nofun, nofun⟩
theorem atomicStep (req : Nat) : Statement (.atomicStep req) := ⟨fun _ => ⟨rfl, rfl⟩, nofun, nofun⟩
theorem ownedLineGrant (req : Nat) : Statement (.ownedLineGrant req) := ⟨fun _ => ⟨rfl, rfl⟩, nofun, nofun⟩
theorem ownedCopyRecall (core line : Nat) : Statement (.ownedCopyRecall core line) := ⟨fun _ => ⟨rfl, rfl⟩, nofun, nofun⟩
theorem ownedCopyEviction (core line : Nat) : Statement (.ownedCopyEviction core line) := ⟨fun _ => ⟨rfl, rfl⟩, nofun, nofun⟩
theorem l1Drop (core line : Nat) : Statement (.l1Drop core line) := ⟨fun _ => ⟨rfl, rfl⟩, nofun, nofun⟩
theorem grantRequest (req : Nat) : Statement (.grantRequest req) := ⟨fun _ => ⟨rfl, rfl⟩, nofun, nofun⟩
theorem grantReply (msg : Nat) : Statement (.grantReply msg) := ⟨fun _ => ⟨rfl, rfl⟩, nofun, nofun⟩
theorem tolerantRead (req : Nat) : Statement (.tolerantRead req) := ⟨fun _ => ⟨rfl, rfl⟩, nofun, nofun⟩
theorem drain (req : Nat) : Statement (.drain req) := ⟨fun _ => ⟨rfl, rfl⟩, nofun, nofun⟩
theorem drainAck (core line : Nat) : Statement (.drainAck core line) := ⟨fun _ => ⟨rfl, rfl⟩, nofun, nofun⟩
theorem spontaneousDrain (core line : Nat) : Statement (.spontaneousDrain core line) := ⟨fun _ => ⟨rfl, rfl⟩, nofun, nofun⟩
theorem giveUp (req : Nat) : Statement (.giveUp req) := ⟨fun _ => ⟨rfl, rfl⟩, nofun, nofun⟩
theorem homeAdd (req : Nat) : Statement (.homeAdd req) := ⟨fun _ => ⟨rfl, rfl⟩, nofun, nofun⟩
theorem forceDrain (msg : Nat) : Statement (.forceDrain msg) := ⟨fun _ => ⟨rfl, rfl⟩, nofun, nofun⟩
theorem forceDrainReply (req : Nat) : Statement (.forceDrainReply req) := ⟨fun _ => ⟨rfl, rfl⟩, nofun, nofun⟩
theorem copySourceStep (copy line : Nat) : Statement (.copySourceStep copy line) := ⟨fun _ => ⟨rfl, rfl⟩, nofun, nofun⟩
theorem copyDestinationStep (copy line : Nat) : Statement (.copyDestinationStep copy line) := ⟨fun _ => ⟨rfl, rfl⟩, nofun, nofun⟩
theorem resolutionRead (line src : Nat) : Statement (.resolutionRead line src) := ⟨fun _ => ⟨rfl, rfl⟩, nofun, nofun⟩
theorem veneerFill (line : Nat) : Statement (.veneerFill line) := ⟨fun _ => ⟨rfl, rfl⟩, nofun, nofun⟩
theorem materialiseRequest (line : Nat) : Statement (.materialiseRequest line) := ⟨fun _ => ⟨rfl, rfl⟩, nofun, nofun⟩
theorem materialiseComplete (req : Nat) : Statement (.materialiseComplete req) := ⟨fun _ => ⟨rfl, rfl⟩, nofun, nofun⟩
theorem hotMaterialise (entry : Nat) : Statement (.hotMaterialise entry) := ⟨fun _ => ⟨rfl, rfl⟩, nofun, nofun⟩
theorem clampByteCount (cnt : Nat) : Statement (.clampByteCount cnt) := ⟨fun _ => ⟨rfl, rfl⟩, nofun, nofun⟩
theorem clampErrMark (cnt : Nat) : Statement (.clampErrMark cnt) := ⟨fun _ => ⟨rfl, rfl⟩, nofun, nofun⟩
theorem drawerCommandSlot (link slot line : Nat) : Statement (.drawerCommandSlot link slot line) := ⟨fun _ => ⟨rfl, rfl⟩, nofun, nofun⟩
theorem drawerReadData (link slot line : Nat) (err : FillErr) : Statement (.drawerReadData link slot line err) := ⟨fun _ => ⟨rfl, rfl⟩, nofun, nofun⟩
theorem lineWriteBack (line : Nat) (evict : Bool) : Statement (.lineWriteBack line evict) := ⟨fun _ => ⟨rfl, rfl⟩, nofun, nofun⟩
theorem drawerWriteAck (link slot line : Nat) (ok : Bool) : Statement (.drawerWriteAck link slot line ok) := ⟨fun _ => ⟨rfl, rfl⟩, nofun, nofun⟩
theorem slotTableSwitch (fab : Bool) (link slot : Nat) : Statement (.slotTableSwitch fab link slot) := ⟨fun _ => ⟨rfl, rfl⟩, nofun, nofun⟩
theorem readTableSwitch (link slot : Nat) : Statement (.readTableSwitch link slot) := ⟨fun _ => ⟨rfl, rfl⟩, nofun, nofun⟩
theorem stcLoadTable (v : W64) : Statement (.stcLoadTable v) := ⟨fun _ => ⟨rfl, rfl⟩, nofun, nofun⟩
theorem stcBindClass (v : W64) : Statement (.stcBindClass v) := ⟨fun _ => ⟨rfl, rfl⟩, nofun, nofun⟩
theorem stcReleaseClass (v : W64) : Statement (.stcReleaseClass v) := ⟨fun _ => ⟨rfl, rfl⟩, nofun, nofun⟩
theorem ftcLoadTable (v : W64) : Statement (.ftcLoadTable v) := ⟨fun _ => ⟨rfl, rfl⟩, nofun, nofun⟩
theorem statusErrClear (fn off : Nat) : Statement (.statusErrClear fn off) := ⟨fun _ => ⟨rfl, rfl⟩, nofun, nofun⟩
theorem linkSwapStart (fab : Bool) (link : Nat) : Statement (.linkSwapStart fab link) := ⟨fun _ => ⟨rfl, rfl⟩, nofun, nofun⟩
theorem linkSwapEnd (fab : Bool) (link : Nat) : Statement (.linkSwapEnd fab link) := ⟨fun _ => ⟨rfl, rfl⟩, nofun, nofun⟩
theorem linkRetrainStart (fab : Bool) (link : Nat) : Statement (.linkRetrainStart fab link) := ⟨fun _ => ⟨rfl, rfl⟩, nofun, nofun⟩
theorem linkTrainSuccess (fab : Bool) (link : Nat) : Statement (.linkTrainSuccess fab link) := ⟨fun _ => ⟨rfl, rfl⟩, nofun, nofun⟩
theorem linkDown (fab : Bool) (link : Nat) : Statement (.linkDown fab link) := ⟨fun _ => ⟨rfl, rfl⟩, nofun, nofun⟩
theorem linkStall (uid : Nat) : Statement (.linkStall uid) := ⟨fun _ => ⟨rfl, rfl⟩, nofun, nofun⟩
theorem linkReset (v : W64) : Statement (.linkReset v) := ⟨fun _ => ⟨rfl, rfl⟩, nofun, nofun⟩
theorem peerPutApply (p : PeerPut) : Statement (.peerPutApply p) := ⟨fun _ => ⟨rfl, rfl⟩, nofun, nofun⟩
theorem peerGetServe (g : PeerGet) : Statement (.peerGetServe g) := ⟨fun _ => ⟨rfl, rfl⟩, nofun, nofun⟩
theorem getResponse (xfer : Nat) (bytes : List Byte) : Statement (.getResponse xfer bytes) := ⟨fun _ => ⟨rfl, rfl⟩, nofun, nofun⟩
theorem fabricAck (xfer : Nat) : Statement (.fabricAck xfer) := ⟨fun _ => ⟨rfl, rfl⟩, nofun, nofun⟩
theorem switchReductionResult (fn group epoch chunk : Nat) (bytes : List Byte) : Statement (.switchReductionResult fn group epoch chunk bytes) := ⟨fun _ => ⟨rfl, rfl⟩, nofun, nofun⟩
theorem fabricNack (xfer reason : Nat) : Statement (.fabricNack xfer reason) := ⟨fun _ => ⟨rfl, rfl⟩, nofun, nofun⟩
theorem mailboxAccess (req : Nat) : Statement (.mailboxAccess req) := ⟨fun _ => ⟨rfl, rfl⟩, nofun, nofun⟩
theorem hostSnoop (line : Nat) (bytes : List (Nat × Byte)) : Statement (.hostSnoop line bytes) := ⟨fun _ => ⟨rfl, rfl⟩, nofun, nofun⟩
theorem hostPortModuleLoss (n : Nat) : Statement (.hostPortModuleLoss n) := ⟨fun _ => ⟨rfl, rfl⟩, nofun, nofun⟩
theorem queueEnable (fn q : Nat) (v : W64) : Statement (.queueEnable fn q v) := ⟨fun _ => ⟨rfl, rfl⟩, nofun, nofun⟩
theorem queuePause (fn q : Nat) (v : W64) : Statement (.queuePause fn q v) := ⟨fun _ => ⟨rfl, rfl⟩, nofun, nofun⟩
theorem queueReset (fn q : Nat) (v : W64) : Statement (.queueReset fn q v) := ⟨fun _ => ⟨rfl, rfl⟩, nofun, nofun⟩
theorem qwpWrite (fn q : Nat) (v : W64) : Statement (.qwpWrite fn q v) := ⟨fun _ => ⟨rfl, rfl⟩, nofun, nofun⟩
theorem launchRecordTake : Statement .launchRecordTake := ⟨fun _ => ⟨rfl, rfl⟩, nofun, nofun⟩
theorem teamPlacement (grid : Nat) (firsts : List Nat) : Statement (.teamPlacement grid firsts) := ⟨fun _ => ⟨rfl, rfl⟩, nofun, nofun⟩
theorem coreStart (core : Nat) : Statement (.coreStart core) := ⟨fun _ => ⟨rfl, rfl⟩, nofun, nofun⟩
theorem gridRetire (grid : Nat) : Statement (.gridRetire grid) := ⟨fun _ => ⟨rfl, rfl⟩, nofun, nofun⟩
theorem faultResolve (fn token : Nat) : Statement (.faultResolve fn token) := ⟨fun _ => ⟨rfl, rfl⟩, nofun, nofun⟩
theorem faultReferBack (fn token : Nat) : Statement (.faultReferBack fn token) := ⟨fun _ => ⟨rfl, rfl⟩, nofun, nofun⟩
theorem watchdogSlat (uid : Nat) : Statement (.watchdogSlat uid) := ⟨fun _ => ⟨rfl, rfl⟩, nofun, nofun⟩
theorem watchdogRow (grid team : Nat) : Statement (.watchdogRow grid team) := ⟨fun _ => ⟨rfl, rfl⟩, nofun, nofun⟩
theorem watchdogLauncher (grid : Nat) : Statement (.watchdogLauncher grid) := ⟨fun _ => ⟨rfl, rfl⟩, nofun, nofun⟩
theorem contextCreate (fn : Nat) (v : W64) : Statement (.contextCreate fn v) := ⟨fun _ => ⟨rfl, rfl⟩, nofun, nofun⟩
theorem contextEnd (fn : Nat) (v : W64) : Statement (.contextEnd fn v) := ⟨fun _ => ⟨rfl, rfl⟩, nofun, nofun⟩
theorem contextSetRoot (fn : Nat) (v : W64) : Statement (.contextSetRoot fn v) := ⟨fun _ => ⟨rfl, rfl⟩, nofun, nofun⟩
theorem mmInvalidate (fn : Nat) (v : W64) : Statement (.mmInvalidate fn v) := ⟨fun _ => ⟨rfl, rfl⟩, nofun, nofun⟩
theorem mmFlush (fn : Nat) (v : W64) : Statement (.mmFlush fn v) := ⟨fun _ => ⟨rfl, rfl⟩, nofun, nofun⟩
theorem mmFlushInvalidate (fn : Nat) (v : W64) : Statement (.mmFlushInvalidate fn v) := ⟨fun _ => ⟨rfl, rfl⟩, nofun, nofun⟩
theorem fnCtlRst (f : Nat) (v : W64) : Statement (.fnCtlRst f v) := ⟨fun _ => ⟨rfl, rfl⟩, nofun, nofun⟩
theorem initiateFlr (f : Nat) : Statement (.initiateFlr f) := ⟨fun _ => ⟨rfl, rfl⟩, nofun, nofun⟩
theorem tensorDeclare (fn : Nat) (v : W64) : Statement (.tensorDeclare fn v) := ⟨fun _ => ⟨rfl, rfl⟩, nofun, nofun⟩
theorem tensorRetire (fn : Nat) (v : W64) : Statement (.tensorRetire fn v) := ⟨fun _ => ⟨rfl, rfl⟩, nofun, nofun⟩
theorem jxLoad (fn : Nat) (v : W64) : Statement (.jxLoad fn v) := ⟨fun _ => ⟨rfl, rfl⟩, nofun, nofun⟩
theorem partCfgWrite (v : W64) : Statement (.partCfgWrite v) := ⟨fun _ => ⟨rfl, rfl⟩, nofun, nofun⟩
theorem measurementRequest (part : Nat) (nonce : List Byte) : Statement (.measurementRequest part nonce) := ⟨fun _ => ⟨rfl, rfl⟩, nofun, nofun⟩
theorem firmwareActivation (fw sig : List Byte) : Statement (.firmwareActivation fw sig) := ⟨fun _ => ⟨rfl, rfl⟩, nofun, nofun⟩
theorem firmwareSwitch : Statement .firmwareSwitch := ⟨fun _ => ⟨rfl, rfl⟩, nofun, nofun⟩
theorem debugUnlock (part : Nat) (token sig : List Byte) : Statement (.debugUnlock part token sig) := ⟨fun _ => ⟨rfl, rfl⟩, nofun, nofun⟩
theorem keyEnrolment (part : Nat) (hash : List Byte) : Statement (.keyEnrolment part hash) := ⟨fun _ => ⟨rfl, rfl⟩, nofun, nofun⟩
theorem powerOnReset (b : BootOutcome) : Statement (.powerOnReset b) := ⟨fun _ => ⟨rfl, rfl⟩, nofun, nofun⟩
theorem upsetReport (core : Nat) : Statement (.upsetReport core) := ⟨fun _ => ⟨rfl, rfl⟩, nofun, nofun⟩
theorem powerThrottle (die : Nat) : Statement (.powerThrottle die) := ⟨fun _ => ⟨rfl, rfl⟩, nofun, nofun⟩
theorem registerWrite (fn off : Nat) (v : W64) : Statement (.registerWrite fn off v) := ⟨fun _ => ⟨rfl, rfl⟩, nofun, nofun⟩
theorem hostPortResponse (r : HostResp) : Statement (.hostPortResponse r) := ⟨fun _ => ⟨rfl, rfl⟩, nofun, nofun⟩
theorem fabricOutSlot (link slot xfer : Nat) : Statement (.fabricOutSlot link slot xfer) := ⟨fun _ => ⟨rfl, rfl⟩, nofun, nofun⟩
theorem partitionMachineReset (part : Nat) : Statement (.partitionMachineReset part) := ⟨fun _ => ⟨rfl, rfl⟩, nofun, nofun⟩
theorem powerThrottleEnd (die : Nat) : Statement (.powerThrottleEnd die) := ⟨fun _ => ⟨rfl, rfl⟩, nofun, nofun⟩

/-- Every instruction, by its constructor. -/
theorem all (i : Instr) : Statement i := by
  cases i
  case clauseIssue core quad => exact clauseIssue core quad
  case smov o => exact smov o
  case sadd o => exact sadd o
  case ssub o => exact ssub o
  case smul o => exact smul o
  case smulh o => exact smulh o
  case sand o => exact sand o
  case sor o => exact sor o
  case sxor o => exact sxor o
  case sshl o => exact sshl o
  case sshr o => exact sshr o
  case ssar o => exact ssar o
  case smin o => exact smin o
  case smax o => exact smax o
  case scmpSigned o => exact scmpSigned o
  case scmpUnsigned o => exact scmpUnsigned o
  case ssel o => exact ssel o
  case sclz o => exact sclz o
  case spop o => exact spop o
  case sxlat o => exact sxlat o
  case sli o => exact sli o
  case slih o => exact slih o
  case srd o => exact srd o
  case swr o => exact swr o
  case saddI o => exact saddI o
  case ssubI o => exact ssubI o
  case smulI o => exact smulI o
  case sandI o => exact sandI o
  case sorI o => exact sorI o
  case sxorI o => exact sxorI o
  case sshlI o => exact sshlI o
  case sshrI o => exact sshrI o
  case ssarI o => exact ssarI o
  case scmpSignedI o => exact scmpSignedI o
  case scmpUnsignedI o => exact scmpUnsignedI o
  case bra o => exact bra o
  case braDivergent o => exact braDivergent o
  case brx o => exact brx o
  case call o => exact call o
  case ret o => exact ret o
  case exit o => exact exit o
  case yield o => exact yield o
  case nop o => exact nop o
  case part o => exact part o
  case mov o => exact mov o
  case iadd o => exact iadd o
  case isub o => exact isub o
  case iaddc o => exact iaddc o
  case isubb o => exact isubb o
  case imul o => exact imul o
  case imulh o => exact imulh o
  case imad o => exact imad o
  case imin o => exact imin o
  case imax o => exact imax o
  case iabs o => exact iabs o
  case lgf o => exact lgf o
  case shl o => exact shl o
  case shr o => exact shr o
  case sar o => exact sar o
  case rot o => exact rot o
  case clz o => exact clz o
  case pop o => exact pop o
  case brev o => exact brev o
  case bfx o => exact bfx o
  case bfi o => exact bfi o
  case bmix o => exact bmix o
  case icmpSigned o => exact icmpSigned o
  case icmpUnsigned o => exact icmpUnsigned o
  case sel o => exact sel o
  case iext o => exact iext o
  case li o => exact li o
  case iaddI o => exact iaddI o
  case isubI o => exact isubI o
  case imulI o => exact imulI o
  case shlI o => exact shlI o
  case shrI o => exact shrI o
  case sarI o => exact sarI o
  case rotI o => exact rotI o
  case icmpSignedI o => exact icmpSignedI o
  case icmpUnsignedI o => exact icmpUnsignedI o
  case fadd o => exact fadd o
  case fsub o => exact fsub o
  case fmul o => exact fmul o
  case ffma o => exact ffma o
  case fmin o => exact fmin o
  case fmax o => exact fmax o
  case fcmp o => exact fcmp o
  case frnd o => exact frnd o
  case fscl o => exact fscl o
  case fclass o => exact fclass o
  case frcp o => exact frcp o
  case frsq o => exact frsq o
  case fsqrt o => exact fsqrt o
  case fex2 o => exact fex2 o
  case flg2 o => exact flg2 o
  case fsin o => exact fsin o
  case fcos o => exact fcos o
  case fcvt o => exact fcvt o
  case pfadd o => exact pfadd o
  case pfmul o => exact pfmul o
  case pffma o => exact pffma o
  case pfcvt o => exact pfcvt o
  case faddI o => exact faddI o
  case fsubI o => exact fsubI o
  case fmulI o => exact fmulI o
  case fminI o => exact fminI o
  case fmaxI o => exact fmaxI o
  case shf o => exact shf o
  case shfI o => exact shfI o
  case vall o => exact vall o
  case vany o => exact vany o
  case vbal o => exact vbal o
  case vmatch o => exact vmatch o
  case scan o => exact scan o
  case lred o => exact lred o
  case isect o => exact isect o
  case ld o => exact ld o
  case st o => exact st o
  case lds o => exact lds o
  case sts o => exact sts o
  case ldp o => exact ldp o
  case stp o => exact stp o
  case sld o => exact sld o
  case sst o => exact sst o
  case pref o => exact pref o
  case acc o => exact acc o
  case ldt o => exact ldt o
  case drn o => exact drn o
  case grd o => exact grd o
  case bnd o => exact bnd o
  case atmAdd o => exact atmAdd o
  case atmMin o => exact atmMin o
  case atmMax o => exact atmMax o
  case atmAnd o => exact atmAnd o
  case atmOr o => exact atmOr o
  case atmXor o => exact atmXor o
  case atmXchg o => exact atmXchg o
  case atmCas o => exact atmCas o
  case atmFadd o => exact atmFadd o
  case atmFmax o => exact atmFmax o
  case atmsAdd o => exact atmsAdd o
  case atmsMin o => exact atmsMin o
  case atmsMax o => exact atmsMax o
  case atmsAnd o => exact atmsAnd o
  case atmsOr o => exact atmsOr o
  case atmsXor o => exact atmsXor o
  case atmsXchg o => exact atmsXchg o
  case atmsCas o => exact atmsCas o
  case atmsFadd o => exact atmsFadd o
  case atmsFmax o => exact atmsFmax o
  case fen o => exact fen o
  case clmi o => exact clmi o
  case clmx o => exact clmx o
  case clma o => exact clma o
  case clmw o => exact clmw o
  case clmt o => exact clmt o
  case tbar o => exact tbar o
  case cpy o => exact cpy o
  case cpye o => exact cpye o
  case rel o => exact rel o
  case cpys o => exact cpys o
  case cpym o => exact cpym o
  case mat o => exact mat o
  case vdrop o => exact vdrop o
  case vstat o => exact vstat o
  case mmaF8 o => exact mmaF8 o
  case mmaBf o => exact mmaBf o
  case mmaI8 o => exact mmaI8 o
  case azero o => exact azero o
  case ard o => exact ard o
  case awr o => exact awr o
  case fin o => exact fin o
  case fpl o => exact fpl o
  case xput o => exact xput o
  case xred o => exact xred o
  case xget o => exact xget o
  case xfen o => exact xfen o
  case deq o => exact deq o
  case enq o => exact enq o
  case lnch o => exact lnch o
  case cwait o => exact cwait o
  case trap o => exact trap o
  case rti o => exact rti o
  case brk o => exact brk o
  case ctxs o => exact ctxs o
  case ctxl o => exact ctxl o
  case tlbi o => exact tlbi o
  case pathEntryLeave uid seq => exact pathEntryLeave uid seq
  case faultRecordWrite fn => exact faultRecordWrite fn
  case releaseMarkerComplete uid seq => exact releaseMarkerComplete uid seq
  case acquireMarkerComplete uid seq => exact acquireMarkerComplete uid seq
  case holdWindowExit core => exact holdWindowExit core
  case homeRead req => exact homeRead req
  case homeWrite req => exact homeWrite req
  case atomicStep req => exact atomicStep req
  case ownedLineGrant req => exact ownedLineGrant req
  case ownedCopyRecall core line => exact ownedCopyRecall core line
  case ownedCopyEviction core line => exact ownedCopyEviction core line
  case l1Drop core line => exact l1Drop core line
  case grantRequest req => exact grantRequest req
  case grantReply msg => exact grantReply msg
  case tolerantRead req => exact tolerantRead req
  case drain req => exact drain req
  case drainAck core line => exact drainAck core line
  case spontaneousDrain core line => exact spontaneousDrain core line
  case giveUp req => exact giveUp req
  case homeAdd req => exact homeAdd req
  case forceDrain msg => exact forceDrain msg
  case forceDrainReply req => exact forceDrainReply req
  case copySourceStep copy line => exact copySourceStep copy line
  case copyDestinationStep copy line => exact copyDestinationStep copy line
  case resolutionRead line src => exact resolutionRead line src
  case veneerFill line => exact veneerFill line
  case materialiseRequest line => exact materialiseRequest line
  case materialiseComplete req => exact materialiseComplete req
  case hotMaterialise entry => exact hotMaterialise entry
  case clampByteCount cnt => exact clampByteCount cnt
  case clampErrMark cnt => exact clampErrMark cnt
  case drawerCommandSlot link slot line => exact drawerCommandSlot link slot line
  case drawerReadData link slot line err => exact drawerReadData link slot line err
  case lineWriteBack line evict => exact lineWriteBack line evict
  case drawerWriteAck link slot line ok => exact drawerWriteAck link slot line ok
  case slotTableSwitch fab link slot => exact slotTableSwitch fab link slot
  case readTableSwitch link slot => exact readTableSwitch link slot
  case stcLoadTable v => exact stcLoadTable v
  case stcBindClass v => exact stcBindClass v
  case stcReleaseClass v => exact stcReleaseClass v
  case ftcLoadTable v => exact ftcLoadTable v
  case statusErrClear fn off => exact statusErrClear fn off
  case linkSwapStart fab link => exact linkSwapStart fab link
  case linkSwapEnd fab link => exact linkSwapEnd fab link
  case linkRetrainStart fab link => exact linkRetrainStart fab link
  case linkTrainSuccess fab link => exact linkTrainSuccess fab link
  case linkDown fab link => exact linkDown fab link
  case linkStall uid => exact linkStall uid
  case linkReset v => exact linkReset v
  case peerPutApply p => exact peerPutApply p
  case peerGetServe g => exact peerGetServe g
  case getResponse xfer bytes => exact getResponse xfer bytes
  case fabricAck xfer => exact fabricAck xfer
  case switchReductionResult fn group epoch chunk bytes => exact switchReductionResult fn group epoch chunk bytes
  case fabricNack xfer reason => exact fabricNack xfer reason
  case mailboxAccess req => exact mailboxAccess req
  case hostSnoop line bytes => exact hostSnoop line bytes
  case hostPortModuleLoss n => exact hostPortModuleLoss n
  case queueEnable fn q v => exact queueEnable fn q v
  case queuePause fn q v => exact queuePause fn q v
  case queueReset fn q v => exact queueReset fn q v
  case qwpWrite fn q v => exact qwpWrite fn q v
  case launchRecordTake => exact launchRecordTake
  case teamPlacement grid firsts => exact teamPlacement grid firsts
  case coreStart core => exact coreStart core
  case gridRetire grid => exact gridRetire grid
  case faultResolve fn token => exact faultResolve fn token
  case faultReferBack fn token => exact faultReferBack fn token
  case watchdogSlat uid => exact watchdogSlat uid
  case watchdogRow grid team => exact watchdogRow grid team
  case watchdogLauncher grid => exact watchdogLauncher grid
  case contextCreate fn v => exact contextCreate fn v
  case contextEnd fn v => exact contextEnd fn v
  case contextSetRoot fn v => exact contextSetRoot fn v
  case mmInvalidate fn v => exact mmInvalidate fn v
  case mmFlush fn v => exact mmFlush fn v
  case mmFlushInvalidate fn v => exact mmFlushInvalidate fn v
  case fnCtlRst f v => exact fnCtlRst f v
  case initiateFlr f => exact initiateFlr f
  case tensorDeclare fn v => exact tensorDeclare fn v
  case tensorRetire fn v => exact tensorRetire fn v
  case jxLoad fn v => exact jxLoad fn v
  case partCfgWrite v => exact partCfgWrite v
  case measurementRequest part nonce => exact measurementRequest part nonce
  case firmwareActivation fw sig => exact firmwareActivation fw sig
  case firmwareSwitch => exact firmwareSwitch
  case debugUnlock part token sig => exact debugUnlock part token sig
  case keyEnrolment part hash => exact keyEnrolment part hash
  case powerOnReset b => exact powerOnReset b
  case upsetReport core => exact upsetReport core
  case powerThrottle die => exact powerThrottle die
  case registerWrite fn off v => exact registerWrite fn off v
  case hostPortResponse r => exact hostPortResponse r
  case fabricOutSlot link slot xfer => exact fabricOutSlot link slot xfer
  case partitionMachineReset part => exact partitionMachineReset part
  case powerThrottleEnd die => exact powerThrottleEnd die

end Sys2Proof.Laws.Classes
end

