-- ==== Sys2Proof/Tests/Slice0.lean ====
section
/-! SUPPORT. Tests: well-formedness, decoding of words taken from the manual, single steps, and a witness for the hypotheses of each statement. -/

namespace Sys2Proof.Tests

open Sys2Proof Sys2Proof.Machine

/-! Plain operands of each format: unguarded, every field zero, no counter. -/

def h0 : Hdr := ⟨⟨false, 7#3⟩, ⟨false, 7#3⟩, 0#2⟩
def m0 : Mod := ⟨0#4, 0#2, false, 0#2, 0#4⟩
def r0 : ROp := ⟨h0, false, 0#6, .v 0#6, .v 0#6, .v 0#6, m0⟩
def i0 : IOp := ⟨h0, false, 0#6, .v 0#6, 0#29⟩
def o0 : MOp := ⟨h0, false, 0#6, 0#4, .v 0#6, .v 0#6, 7#3, 2#3, 0#11⟩
def x0 : XOp := ⟨h0, 0#6, 0#6, 0#6, 0#6, 7#3, false, 0#16⟩
def t0 : TOp := ⟨h0, 0#6, 0#6, 0#6, 0#6, 7#3, false, 0#4, 0#2, 0#10⟩
def y0 : YOp := ⟨h0, 0#6, 0#6, 0#6, 0#6, 7#3, 0#17⟩
def z0 : ZOp := ⟨h0, 0#44⟩

/-! ## Well-formedness: an ill-formed term for each check -/

/-- Terms whose decoder reasons are exactly the ones beside them. -/
def refusedAs (xs : List (Instr × List Nat)) : Bool := xs.all (fun x => x.1.reasons == x.2 && !x.1.wf)

/-- R45, R48, R49, R51, R107, R120: formats R. -/
theorem test_illformed_r : refusedAs
    [(.iadd { r0 with h := { h0 with hint := 1 } }, [4]), (.sadd { r0 with a := .s 0, b := .s 0, nw := true }, [0xB]),
     (.iadd { r0 with nw := true, dst := 3 }, [2]), (.isect { r0 with nw := true }, [0xB]), (.brx { r0 with a := .s 1, dst := 1 }, [2]),
     (.isect { r0 with dst := 5 }, [5]), (.scmpSigned { r0 with a := .s 0, b := .s 0, dst := 7 }, [5]),
     (.icmpSigned { r0 with dst := 48 }, [4]), (.vall { r0 with dst := 7 }, [5]), (.vall { r0 with dst := 9 }, [2]),
     (.sxlat { r0 with a := .s 1, dst := 16 }, [2]), (.clz { r0 with b := .s 0 }, [2])] = true := by decide

/-- R47, R107, R120, R150: source fields of the ALU classes. -/
theorem test_illformed_sources : refusedAs
    [(.smov r0, [3]), (.smov { r0 with a := .y 0 }, [3]), (.smov { r0 with a := .k 6 }, [3]), (.smov { r0 with a := .k 8 }, [3]),
     (.iadd { r0 with m := { m0 with fmt := 2 }, a := .v 1 }, [5]), (.iadd { r0 with m := { m0 with fmt := 2 }, a := .y 1 }, [3]),
     (.iadd { r0 with a := .y 4 }, [3]), (.iadd { r0 with a := .k 8 }, [3]), (.sxlat { r0 with a := .k 0 }, [3]),
     (.vbal { r0 with a := .v 16 }, [2]), (.sel { r0 with c := .v 8 }, [2]), (.ssel { r0 with a := .s 0, b := .s 0, c := .v 9 }, [2])]
    = true := by decide

/-- R48: modifiers. -/
theorem test_illformed_mod : refusedAs
    [(.iadd { r0 with m := { m0 with fmt := 8 } }, [4]), (.iadd { r0 with m := { m0 with rnd := 1 } }, [4]),
     (.iadd { r0 with m := { m0 with ftz := true } }, [4]), (.fadd { r0 with m := { m0 with ovf := 2 } }, [4]),
     (.shf { r0 with m := { m0 with sub := 4 } }, [4]), (.scan { r0 with m := { m0 with fmt := 8, sub := 3 } }, [4]),
     (.bnd { r0 with a := .s 1, b := .k 0, m := { m0 with fmt := 1 } }, [2])] = true := by decide

/-- R60: fences. -/
theorem test_illformed_fen :
    let f := { r0 with m := ⟨6, 2, false, 2, 8⟩ }
    (Instr.fen f).wf = true ∧ refusedAs
    [(.fen { f with h := { h0 with hint := 2 } }, [4]), (.fen { f with nw := true }, [2]), (.fen { f with dst := 1 }, [2]),
     (.fen { f with b := .s 0 }, [2]), (.fen { f with c := .s 0 }, [2]), (.fen { f with a := .s 0 }, [2]),
     (.fen { f with m := ⟨6, 2, false, 2, 9⟩ }, [2]), (.fen { f with m := ⟨10, 2, false, 2, 8⟩ }, [4]),
     (.fen { f with m := ⟨6, 0, false, 2, 8⟩ }, [4]), (.fen { f with m := ⟨6, 2, false, 0, 0⟩ }, [4]),
     (.fen { f with m := ⟨6, 2, false, 2, 12⟩, a := .s 0 }, [4]), (.fen { f with m := ⟨7, 2, false, 2, 12⟩ }, [3])] = true := by decide

/-- R50, R104, R146: immediates. -/
theorem test_illformed_i : refusedAs
    [(.sadd { r0 with a := .s 0, b := .s 0, h := { h0 with hint := 3 } }, [4]), (.saddI { i0 with a := .s 0, h := { h0 with hint := 3 } }, [4]),
     (.sshlI { i0 with a := .s 0, imm := 64 }, [4]), (.shlI { i0 with imm := 32 }, [4]), (.part { i0 with imm := 3 }, [4]),
     (.srd { i0 with imm := 0x150 }, [4]), (.swr { i0 with a := .s 0, imm := 0 }, [4]), (.shfI { i0 with imm := 128 }, [2]),
     (.sli { i0 with a := .s 0 }, [2]), (.bra { i0 with dst := 1 }, [2]), (.srd { i0 with nw := true }, [0xB])] = true := by decide

/-- R44, R46, R172, R193, R202, R216: format M. -/
theorem test_illformed_m : refusedAs
    [(.acc { o0 with h := { h0 with hint := 1 } }, [4]), (.ld { o0 with nw := true }, [2]), (.ld { o0 with width := 3, dst := 1 }, [5]),
     (.ld { o0 with width := 4, dst := 2 }, [5]), (.lds { o0 with bn := 1 }, [2]), (.ld { o0 with off := .y 0 }, [3]),
     (.ld { o0 with off := .k 8 }, [3]), (.ld { o0 with data := .v 1 }, [2]), (.ld { o0 with ctr := 6 }, [4]), (.ld { o0 with width := 5 }, [4]),
     (.st { o0 with width := 3, data := .v 1 }, [5]), (.st { o0 with width := 4, data := .v 2 }, [5]), (.st { o0 with width := 4, data := .s 0 }, [3]),
     (.st { o0 with data := .y 0 }, [3]), (.st { o0 with width := 4, data := .k 0 }, [3]), (.sld { o0 with off := .v 0 }, [3]),
     (.sld { o0 with off := .k 9 }, [3]), (.grd { o0 with off := .s 0, width := 3, imm := 1 }, [2])] = true := by decide

/-- R193, R202, R216: the atomic variant, drains and clamps. -/
theorem test_illformed_m2 : refusedAs
    [(.atmCas { o0 with data := .v 1 }, [5]), (.atmCas { o0 with width := 3, data := .v 2 }, [5]), (.atmCas { o0 with width := 4, data := .v 4 }, [5]),
     (.atmCas { o0 with data := .s 0 }, [3]), (.atmAdd { o0 with imm := 0x500 }, [4]), (.atmAdd { o0 with imm := 0x20 }, [4]),
     (.atmMin { o0 with imm := 0x10 }, [4]), (.atmAdd { o0 with imm := 1 }, [2]), (.atmAdd { o0 with width := 4, data := .v 0 }, [4]),
     (.drn { o0 with width := 0, off := .s 0, imm := 0x600 }, [4]), (.drn { o0 with width := 0, off := .s 0, imm := 1 }, [2]),
     (.drn { o0 with width := 0, imm := 0x400, bn := 1 }, [2]), (.clmi { o0 with width := 4, off := .s 0, data := .k 0 }, [3]),
     (.clmi { o0 with width := 4, off := .s 0, data := .s 0, imm := 0x600 }, [4]), (.clmx { o0 with width := 4, off := .s 0, data := .s 0, imm := 3 }, [2]),
     (.clmw { o0 with width := 4, off := .s 0, data := .s 0, ctr := 0 }, [4]), (.clmw { o0 with width := 4, off := .s 0, data := .s 0, imm := 0x200, bn := 1 }, [2]),
     (.clmt { o0 with width := 4, off := .s 0, data := .s 0, dst := 7 }, [5])] = true := by decide

/-- R52, R237, R297: the async layout. -/
theorem test_illformed_x : refusedAs
    [(.xput { x0 with h := { h0 with hint := 1 } }, [4]), (.xfen { x0 with sD := 1 }, [2]), (.mat { x0 with sS := 1 }, [2]), (.vstat { x0 with sN := 1 }, [2]),
     (.cpy { x0 with sE := 1 }, [2]), (.cpy { x0 with ctr := 6 }, [4]), (.xfen { x0 with ctr := 0 }, [4]), (.vstat { x0 with cont := true }, [2]),
     (.cpy { x0 with c16 := 1 }, [2]), (.xput { x0 with c16 := 1 }, [2]), (.xred { x0 with c16 := 8 }, [2]), (.xred { x0 with c16 := 3 }, [4])] = true := by decide

/-- R52, R274, R286: the matrix layout. -/
theorem test_illformed_t : refusedAs
    [(.azero { t0 with h := { h0 with hint := 1 } }, [4]), (.fpl { t0 with tile := 1 }, [2]), (.ard { t0 with va := 4 }, [5]), (.azero { t0 with va := 8 }, [2]),
     (.mmaBf { t0 with vb := 12 }, [5]), (.ard { t0 with vb := 8 }, [2]), (.mmaBf { t0 with sF := 1 }, [2]), (.mmaBf { t0 with p := true }, [2]),
     (.ard { t0 with prog := 1 }, [2]), (.fin { t0 with qtr := 1 }, [2]), (.fin { t0 with z := 1 }, [2]), (.ard { t0 with ctr := 6 }, [4])] = true := by decide

/-- R52, R331: the system layout, and the operand areas that are zero (R59). -/
theorem test_illformed_y : refusedAs
    [(.rti { y0 with h := { h0 with hint := 1 } }, [4]), (.cwait { y0 with sD := 1 }, [2]), (.trap { y0 with sA := 1 }, [2]), (.lnch { y0 with sB := 1 }, [2]),
     (.rti { y0 with z := 1 }, [2]), (.enq { y0 with ctr := 6 }, [4]), (.deq { y0 with ctr := 0 }, [4]), (.ctxs { y0 with imm := 2 }, [2]),
     (.deq { y0 with sD := 1 }, [5]), (.enq { y0 with sB := 9 }, [5]), (.exit { z0 with h := { h0 with hint := 1 } }, [4]), (.nop { z0 with area := 1 }, [2]),
     (.tbar { z0 with area := 9 }, [2])] = true := by decide

/-! ## Decoding -/

/-- Words the manual writes out (R113, R141, R154, R173, R198, R202, R217, R219, R222 and the worked programs' listings). -/
theorem test_decode_manual :
    decodeWord 0x2045C00140000008#64 = .ok (.braDivergent ⟨{ h0 with g1 := ⟨false, 1⟩ }, false, 0, .v 10, 8⟩)
    ∧ decodeWord 0x30DDC80020780000#64 = .ok (.iaddc { r0 with nw := true, a := .v 1, b := .v 3, c := .k 0 })
    ∧ decodeWord 0x305DC0C040902000#64 = .ok (.iadd { r0 with dst := 6, a := .v 2, b := .v 4, c := .y 1 })
    ∧ decodeWord 0x91C5C08020400200#64 = .ok (.isect { r0 with h := { h0 with g1 := ⟨false, 1⟩ }, dst := 4, a := .v 1, b := .v 2, m := { m0 with fmt := 1 } })
    ∧ decodeWord 0xA11DC06A04005010#64 = .ok (.ldp { o0 with dst := 3, bn := 5, off := .v 2, ctr := 1, imm := 16 })
    ∧ decodeWord 0xC81DC00000000D28#64 = .ok (.fen { r0 with m := ⟨6, 2, false, 2, 8⟩ })
    ∧ decodeWord 0xC91DC0008781E200#64 = .ok (.clmw { o0 with off := .s 3, data := .k 0, width := 4, imm := 512 })
    ∧ decodeWord 0xB81DC002040AD000#64 = .ok (.acc { o0 with bn := 1, off := .v 2, data := .v 5, ctr := 3 })
    ∧ decodeWord 0xB85DC0C204881000#64 = .ok (.ldt { o0 with dst := 6, bn := 1, off := .v 2, data := .s 4, ctr := 0 })
    ∧ decodeWord 0xB91DC00848600000#64 = .ok (.bnd { r0 with a := .s 2, b := .s 3 })
    ∧ decodeWord 0xC004808581831300#64 = .ok (.atmAdd
        { o0 with h := { h0 with g1 := ⟨false, 1⟩, g2 := ⟨false, 2⟩ }, dst := 4, bn := 2, off := .k 0, data := .k 1, ctr := 4, imm := 0x300 })
    ∧ decodeWord 0xA19DF0C580015000#64 = .ok (.sld { o0 with h := { h0 with hint := 3 }, dst := 6, bn := 2, off := .k 0, ctr := 5 })
    ∧ decodeWord 0xA0DDC0018085D804#64 = .ok (.sts { o0 with off := .k 0, data := .s 2, width := 3, imm := 4 })
    ∧ decodeWord 0xD1DDC28000040000#64 = .ok (.vstat { x0 with sD := 10, ctr := 2 })
    ∧ decodeWord 0x08DDC008E0000010#64 = .ok (.swr { i0 with a := .s 7, imm := 0x10 }) := by
  refine ⟨rfl, rfl, rfl, rfl, rfl, rfl, rfl, rfl, rfl, rfl, rfl, rfl, rfl, rfl, rfl⟩

/-- Headers the manual writes out (R33, R53). -/
theorem test_decode_headers :
    decodeHeader 0xFC881C0000000000#64 = .ok ⟨1, 1, 0, 7, 0, false⟩ ∧ decodeHeader 0xFD003C0000000000#64 = .ok ⟨2, 0, 1, 7, 0, false⟩
    ∧ decodeHeader 0xFE005C0000000000#64 = .ok ⟨4, 0, 2, 7, 0, false⟩ := ⟨rfl, rfl, rfl⟩

/-- R57: a header in a clause's body, an opcode that is none, a header with a threshold counter of 6, and one with a class that is none. -/
theorem test_decode_refused :
    decodeWord 0xFC881C0000000000#64 = .error .headerInBody ∧ decodeWord 0x04DDC00000000000#64 = .error .unallocated
    ∧ decodeHeader 0xFC00180000000000#64 = .error .noHeader ∧ decodeHeader 0xFE801C0000000000#64 = .error .noHeader
    ∧ decodeHeader 0x005DC08888600000#64 = .error .noHeader := ⟨rfl, rfl, rfl, rfl, rfl⟩

/-- Words of the scalar class, each field at the place R45 to R52 give it and the opcode of R59. -/
theorem test_decode_scalar1 :
    decodeWord 0x001E813860000000#64 = .ok (.smov ⟨⟨⟨false, 7#3⟩, ⟨true, 2#3⟩, 0#2⟩, false, 9#6, .k 3#6, .v 0#6, .v 0#6, ⟨0#4, 0#2, false, 0#2, 0#4⟩⟩)
    ∧ decodeWord 0x005E8128A8C00000#64 = .ok (.sadd ⟨⟨⟨false, 7#3⟩, ⟨true, 2#3⟩, 0#2⟩, false, 9#6, .s 5#6, .s 6#6, .v 0#6, ⟨0#4, 0#2, false, 0#2, 0#4⟩⟩)
    ∧ decodeWord 0x009E8128A8C00000#64 = .ok (.ssub ⟨⟨⟨false, 7#3⟩, ⟨true, 2#3⟩, 0#2⟩, false, 9#6, .s 5#6, .s 6#6, .v 0#6, ⟨0#4, 0#2, false, 0#2, 0#4⟩⟩)
    ∧ decodeWord 0x00DE8128A8C00000#64 = .ok (.smul ⟨⟨⟨false, 7#3⟩, ⟨true, 2#3⟩, 0#2⟩, false, 9#6, .s 5#6, .s 6#6, .v 0#6, ⟨0#4, 0#2, false, 0#2, 0#4⟩⟩)
    ∧ decodeWord 0x011E8128A8C00600#64 = .ok (.smulh ⟨⟨⟨false, 7#3⟩, ⟨true, 2#3⟩, 0#2⟩, false, 9#6, .s 5#6, .s 6#6, .v 0#6, ⟨3#4, 0#2, false, 0#2, 0#4⟩⟩)
    ∧ decodeWord 0x015E8128A8C00000#64 = .ok (.sand ⟨⟨⟨false, 7#3⟩, ⟨true, 2#3⟩, 0#2⟩, false, 9#6, .s 5#6, .s 6#6, .v 0#6, ⟨0#4, 0#2, false, 0#2, 0#4⟩⟩)
    ∧ decodeWord 0x019E8128A8C00000#64 = .ok (.sor ⟨⟨⟨false, 7#3⟩, ⟨true, 2#3⟩, 0#2⟩, false, 9#6, .s 5#6, .s 6#6, .v 0#6, ⟨0#4, 0#2, false, 0#2, 0#4⟩⟩)
    ∧ decodeWord 0x01DE8128A8C00000#64 = .ok (.sxor ⟨⟨⟨false, 7#3⟩, ⟨true, 2#3⟩, 0#2⟩, false, 9#6, .s 5#6, .s 6#6, .v 0#6, ⟨0#4, 0#2, false, 0#2, 0#4⟩⟩)
    ∧ decodeWord 0x021E8128A8C00000#64 = .ok (.sshl ⟨⟨⟨false, 7#3⟩, ⟨true, 2#3⟩, 0#2⟩, false, 9#6, .s 5#6, .s 6#6, .v 0#6, ⟨0#4, 0#2, false, 0#2, 0#4⟩⟩)
    ∧ decodeWord 0x025E8128A8C00000#64 = .ok (.sshr ⟨⟨⟨false, 7#3⟩, ⟨true, 2#3⟩, 0#2⟩, false, 9#6, .s 5#6, .s 6#6, .v 0#6, ⟨0#4, 0#2, false, 0#2, 0#4⟩⟩)
    ∧ decodeWord 0x029E8128A8C00000#64 = .ok (.ssar ⟨⟨⟨false, 7#3⟩, ⟨true, 2#3⟩, 0#2⟩, false, 9#6, .s 5#6, .s 6#6, .v 0#6, ⟨0#4, 0#2, false, 0#2, 0#4⟩⟩)
    ∧ decodeWord 0x02DE8128A8C00600#64 = .ok (.smin ⟨⟨⟨false, 7#3⟩, ⟨true, 2#3⟩, 0#2⟩, false, 9#6, .s 5#6, .s 6#6, .v 0#6, ⟨3#4, 0#2, false, 0#2, 0#4⟩⟩)
    ∧ decodeWord 0x031E8128A8C00600#64 = .ok (.smax ⟨⟨⟨false, 7#3⟩, ⟨true, 2#3⟩, 0#2⟩, false, 9#6, .s 5#6, .s 6#6, .v 0#6, ⟨3#4, 0#2, false, 0#2, 0#4⟩⟩)
    ∧ decodeWord 0x035E8268A8C00400#64 = .ok (.scmpSigned ⟨⟨⟨false, 7#3⟩, ⟨true, 2#3⟩, 0#2⟩, false, 19#6, .s 5#6, .s 6#6, .v 0#6, ⟨2#4, 0#2, false, 0#2, 0#4⟩⟩)
    ∧ decodeWord 0x039E85A8A8C00600#64 = .ok (.scmpUnsigned ⟨⟨⟨false, 7#3⟩, ⟨true, 2#3⟩, 0#2⟩, false, 45#6, .s 5#6, .s 6#6, .v 0#6, ⟨3#4, 0#2, false, 0#2, 0#4⟩⟩)
    ∧ decodeWord 0x03DE8128A8C04000#64 = .ok (.ssel ⟨⟨⟨false, 7#3⟩, ⟨true, 2#3⟩, 0#2⟩, false, 9#6, .s 5#6, .s 6#6, .v 2#6, ⟨0#4, 0#2, false, 0#2, 0#4⟩⟩)
    ∧ decodeWord 0x041E813860000000#64 = .ok (.sclz ⟨⟨⟨false, 7#3⟩, ⟨true, 2#3⟩, 0#2⟩, false, 9#6, .k 3#6, .v 0#6, .v 0#6, ⟨0#4, 0#2, false, 0#2, 0#4⟩⟩)
    ∧ decodeWord 0x045E813860000000#64 = .ok (.spop ⟨⟨⟨false, 7#3⟩, ⟨true, 2#3⟩, 0#2⟩, false, 9#6, .k 3#6, .v 0#6, .v 0#6, ⟨0#4, 0#2, false, 0#2, 0#4⟩⟩)
    ∧ decodeWord 0x049E8168A0000000#64 = .ok (.sxlat ⟨⟨⟨false, 7#3⟩, ⟨true, 2#3⟩, 0#2⟩, false, 11#6, .s 5#6, .v 0#6, .v 0#6, ⟨0#4, 0#2, false, 0#2, 0#4⟩⟩)
    ∧ decodeWord 0x081E81201FFFFFFF#64 = .ok (.sli ⟨⟨⟨false, 7#3⟩, ⟨true, 2#3⟩, 0#2⟩, false, 9#6, .v 0#6, 536870911#29⟩)
    ∧ decodeWord 0x085E8128B5554321#64 = .ok (.slih ⟨⟨⟨false, 7#3⟩, ⟨true, 2#3⟩, 0#2⟩, false, 9#6, .s 5#6, 357909281#29⟩)
    ∧ decodeWord 0x089E812000000145#64 = .ok (.srd ⟨⟨⟨false, 7#3⟩, ⟨true, 2#3⟩, 0#2⟩, false, 9#6, .v 0#6, 325#29⟩)
    ∧ decodeWord 0x08DE8008A0000150#64 = .ok (.swr ⟨⟨⟨false, 7#3⟩, ⟨true, 2#3⟩, 0#2⟩, false, 0#6, .s 5#6, 336#29⟩)
    ∧ decodeWord 0x105E8128B5554321#64 = .ok (.saddI ⟨⟨⟨false, 7#3⟩, ⟨true, 2#3⟩, 0#2⟩, false, 9#6, .s 5#6, 357909281#29⟩)
    ∧ decodeWord 0x109E8128B5554321#64 = .ok (.ssubI ⟨⟨⟨false, 7#3⟩, ⟨true, 2#3⟩, 0#2⟩, false, 9#6, .s 5#6, 357909281#29⟩)
    ∧ decodeWord 0x10DE8128B5554321#64 = .ok (.smulI ⟨⟨⟨false, 7#3⟩, ⟨true, 2#3⟩, 0#2⟩, false, 9#6, .s 5#6, 357909281#29⟩)
    ∧ decodeWord 0x115E8128B5554321#64 = .ok (.sandI ⟨⟨⟨false, 7#3⟩, ⟨true, 2#3⟩, 0#2⟩, false, 9#6, .s 5#6, 357909281#29⟩)
    ∧ decodeWord 0x119E8128B5554321#64 = .ok (.sorI ⟨⟨⟨false, 7#3⟩, ⟨true, 2#3⟩, 0#2⟩, false, 9#6, .s 5#6, 357909281#29⟩)
    ∧ decodeWord 0x11DE8128B5554321#64 = .ok (.sxorI ⟨⟨⟨false, 7#3⟩, ⟨true, 2#3⟩, 0#2⟩, false, 9#6, .s 5#6, 357909281#29⟩)
    ∧ decodeWord 0x121E8128A000003F#64 = .ok (.sshlI ⟨⟨⟨false, 7#3⟩, ⟨true, 2#3⟩, 0#2⟩, false, 9#6, .s 5#6, 63#29⟩) := by
  refine ⟨rfl, rfl, rfl, rfl, rfl, rfl, rfl, rfl, rfl, rfl, rfl, rfl, rfl, rfl, rfl, rfl, rfl, rfl, rfl, rfl, rfl, rfl, rfl, rfl, rfl, rfl, rfl, rfl, rfl, rfl⟩

/-- Words of the scalar class, each field at the place R45 to R52 give it and the opcode of R59. -/
theorem test_decode_scalar2 :
    decodeWord 0x125E8128A000003F#64 = .ok (.sshrI ⟨⟨⟨false, 7#3⟩, ⟨true, 2#3⟩, 0#2⟩, false, 9#6, .s 5#6, 63#29⟩)
    ∧ decodeWord 0x129E8128A000003F#64 = .ok (.ssarI ⟨⟨⟨false, 7#3⟩, ⟨true, 2#3⟩, 0#2⟩, false, 9#6, .s 5#6, 63#29⟩)
    ∧ decodeWord 0x135E83C8B5554321#64 = .ok (.scmpSignedI ⟨⟨⟨false, 7#3⟩, ⟨true, 2#3⟩, 0#2⟩, false, 30#6, .s 5#6, 357909281#29⟩)
    ∧ decodeWord 0x139E83C8B5554321#64 = .ok (.scmpUnsignedI ⟨⟨⟨false, 7#3⟩, ⟨true, 2#3⟩, 0#2⟩, false, 30#6, .s 5#6, 357909281#29⟩) := by
  refine ⟨rfl, rfl, rfl, rfl⟩

/-- Words of the flow class, each field at the place R45 to R52 give it and the opcode of R59. -/
theorem test_decode_flow :
    decodeWord 0x201E80001FFFFFF0#64 = .ok (.bra ⟨⟨⟨false, 7#3⟩, ⟨true, 2#3⟩, 0#2⟩, false, 0#6, .v 0#6, 536870896#29⟩)
    ∧ decodeWord 0x205E86B8A000000C#64 = .ok (.braDivergent ⟨⟨⟨false, 7#3⟩, ⟨true, 2#3⟩, 0#2⟩, false, 53#6, .k 5#6, 12#29⟩)
    ∧ decodeWord 0x209E8008A0000000#64 = .ok (.brx ⟨⟨⟨false, 7#3⟩, ⟨true, 2#3⟩, 0#2⟩, false, 0#6, .s 5#6, .v 0#6, .v 0#6, ⟨0#4, 0#2, false, 0#2, 0#4⟩⟩)
    ∧ decodeWord 0x20DE81200000004D#64 = .ok (.call ⟨⟨⟨false, 7#3⟩, ⟨true, 2#3⟩, 0#2⟩, false, 9#6, .v 0#6, 77#29⟩)
    ∧ decodeWord 0x211E8008A0000000#64 = .ok (.ret ⟨⟨⟨false, 7#3⟩, ⟨true, 2#3⟩, 0#2⟩, false, 0#6, .s 5#6, .v 0#6, .v 0#6, ⟨0#4, 0#2, false, 0#2, 0#4⟩⟩)
    ∧ decodeWord 0x215E800000000000#64 = .ok (.exit ⟨⟨⟨false, 7#3⟩, ⟨true, 2#3⟩, 0#2⟩, 0#44⟩)
    ∧ decodeWord 0x219E80001FFFFFF0#64 = .ok (.yield ⟨⟨⟨false, 7#3⟩, ⟨true, 2#3⟩, 0#2⟩, false, 0#6, .v 0#6, 536870896#29⟩) := by
  refine ⟨rfl, rfl, rfl, rfl, rfl, rfl, rfl⟩

/-- Words of the nop class. -/
theorem test_decode_nop : decodeWord 0x21DE800000000000#64 = .ok (.nop ⟨⟨⟨false, 7#3⟩, ⟨true, 2#3⟩, 0#2⟩, 0#44⟩) := rfl

/-- Words of the part class. -/
theorem test_decode_part : decodeWord 0x221E800000000010#64 = .ok (.part ⟨⟨⟨false, 7#3⟩, ⟨true, 2#3⟩, 0#2⟩, false, 0#6, .v 0#6, 16#29⟩) := rfl

/-- Words of the vector class, each field at the place R45 to R52 give it and the opcode of R59. -/
theorem test_decode_vector1 :
    decodeWord 0x301E810140000000#64 = .ok (.mov ⟨⟨⟨false, 7#3⟩, ⟨true, 2#3⟩, 0#2⟩, false, 8#6, .v 10#6, .v 0#6, .v 0#6, ⟨0#4, 0#2, false, 0#2, 0#4⟩⟩)
    ∧ decodeWord 0x305E810148C1C610#64 = .ok (.iadd ⟨⟨⟨false, 7#3⟩, ⟨true, 2#3⟩, 0#2⟩, false, 8#6, .v 10#6, .s 6#6, .v 14#6, ⟨3#4, 0#2, false, 1#2, 0#4⟩⟩)
    ∧ decodeWord 0x309E810148C1C610#64 = .ok (.isub ⟨⟨⟨false, 7#3⟩, ⟨true, 2#3⟩, 0#2⟩, false, 8#6, .v 10#6, .s 6#6, .v 14#6, ⟨3#4, 0#2, false, 1#2, 0#4⟩⟩)
    ∧ decodeWord 0x30DE880148D04200#64 = .ok (.iaddc ⟨⟨⟨false, 7#3⟩, ⟨true, 2#3⟩, 0#2⟩, true, 0#6, .v 10#6, .s 6#6, .y 2#6, ⟨1#4, 0#2, false, 0#2, 0#4⟩⟩)
    ∧ decodeWord 0x311E880148D04200#64 = .ok (.isubb ⟨⟨⟨false, 7#3⟩, ⟨true, 2#3⟩, 0#2⟩, true, 0#6, .v 10#6, .s 6#6, .y 2#6, ⟨1#4, 0#2, false, 0#2, 0#4⟩⟩)
    ∧ decodeWord 0x315E810150400200#64 = .ok (.imul ⟨⟨⟨false, 7#3⟩, ⟨true, 2#3⟩, 0#2⟩, false, 8#6, .v 10#6, .y 2#6, .v 0#6, ⟨1#4, 0#2, false, 0#2, 0#4⟩⟩)
    ∧ decodeWord 0x319E810150400200#64 = .ok (.imulh ⟨⟨⟨false, 7#3⟩, ⟨true, 2#3⟩, 0#2⟩, false, 8#6, .v 10#6, .y 2#6, .v 0#6, ⟨1#4, 0#2, false, 0#2, 0#4⟩⟩)
    ∧ decodeWord 0x31DE880148D04200#64 = .ok (.imad ⟨⟨⟨false, 7#3⟩, ⟨true, 2#3⟩, 0#2⟩, true, 0#6, .v 10#6, .s 6#6, .y 2#6, ⟨1#4, 0#2, false, 0#2, 0#4⟩⟩)
    ∧ decodeWord 0x321E810150400200#64 = .ok (.imin ⟨⟨⟨false, 7#3⟩, ⟨true, 2#3⟩, 0#2⟩, false, 8#6, .v 10#6, .y 2#6, .v 0#6, ⟨1#4, 0#2, false, 0#2, 0#4⟩⟩)
    ∧ decodeWord 0x325E810150400200#64 = .ok (.imax ⟨⟨⟨false, 7#3⟩, ⟨true, 2#3⟩, 0#2⟩, false, 8#6, .v 10#6, .y 2#6, .v 0#6, ⟨1#4, 0#2, false, 0#2, 0#4⟩⟩)
    ∧ decodeWord 0x329E810140000010#64 = .ok (.iabs ⟨⟨⟨false, 7#3⟩, ⟨true, 2#3⟩, 0#2⟩, false, 8#6, .v 10#6, .v 0#6, .v 0#6, ⟨0#4, 0#2, false, 1#2, 0#4⟩⟩)
    ∧ decodeWord 0x32DE810148D040D6#64 = .ok (.lgf ⟨⟨⟨false, 7#3⟩, ⟨true, 2#3⟩, 0#2⟩, false, 8#6, .v 10#6, .s 6#6, .y 2#6, ⟨0#4, 1#2, true, 1#2, 6#4⟩⟩)
    ∧ decodeWord 0x331E810141A00400#64 = .ok (.shl ⟨⟨⟨false, 7#3⟩, ⟨true, 2#3⟩, 0#2⟩, false, 8#6, .v 10#6, .v 13#6, .v 0#6, ⟨2#4, 0#2, false, 0#2, 0#4⟩⟩)
    ∧ decodeWord 0x335E810141A00400#64 = .ok (.shr ⟨⟨⟨false, 7#3⟩, ⟨true, 2#3⟩, 0#2⟩, false, 8#6, .v 10#6, .v 13#6, .v 0#6, ⟨2#4, 0#2, false, 0#2, 0#4⟩⟩)
    ∧ decodeWord 0x339E810141A00400#64 = .ok (.sar ⟨⟨⟨false, 7#3⟩, ⟨true, 2#3⟩, 0#2⟩, false, 8#6, .v 10#6, .v 13#6, .v 0#6, ⟨2#4, 0#2, false, 0#2, 0#4⟩⟩)
    ∧ decodeWord 0x33DE810141A00400#64 = .ok (.rot ⟨⟨⟨false, 7#3⟩, ⟨true, 2#3⟩, 0#2⟩, false, 8#6, .v 10#6, .v 13#6, .v 0#6, ⟨2#4, 0#2, false, 0#2, 0#4⟩⟩)
    ∧ decodeWord 0x341E810140000000#64 = .ok (.clz ⟨⟨⟨false, 7#3⟩, ⟨true, 2#3⟩, 0#2⟩, false, 8#6, .v 10#6, .v 0#6, .v 0#6, ⟨0#4, 0#2, false, 0#2, 0#4⟩⟩)
    ∧ decodeWord 0x345E810140000000#64 = .ok (.pop ⟨⟨⟨false, 7#3⟩, ⟨true, 2#3⟩, 0#2⟩, false, 8#6, .v 10#6, .v 0#6, .v 0#6, ⟨0#4, 0#2, false, 0#2, 0#4⟩⟩)
    ∧ decodeWord 0x349E810140000000#64 = .ok (.brev ⟨⟨⟨false, 7#3⟩, ⟨true, 2#3⟩, 0#2⟩, false, 8#6, .v 10#6, .v 0#6, .v 0#6, ⟨0#4, 0#2, false, 0#2, 0#4⟩⟩)
    ∧ decodeWord 0x34DE810148C00200#64 = .ok (.bfx ⟨⟨⟨false, 7#3⟩, ⟨true, 2#3⟩, 0#2⟩, false, 8#6, .v 10#6, .s 6#6, .v 0#6, ⟨1#4, 0#2, false, 0#2, 0#4⟩⟩)
    ∧ decodeWord 0x351E810148D04000#64 = .ok (.bfi ⟨⟨⟨false, 7#3⟩, ⟨true, 2#3⟩, 0#2⟩, false, 8#6, .v 10#6, .s 6#6, .y 2#6, ⟨0#4, 0#2, false, 0#2, 0#4⟩⟩)
    ∧ decodeWord 0x355E810148D04000#64 = .ok (.bmix ⟨⟨⟨false, 7#3⟩, ⟨true, 2#3⟩, 0#2⟩, false, 8#6, .v 10#6, .s 6#6, .y 2#6, ⟨0#4, 0#2, false, 0#2, 0#4⟩⟩)
    ∧ decodeWord 0x359E85C148C00400#64 = .ok (.icmpSigned ⟨⟨⟨false, 7#3⟩, ⟨true, 2#3⟩, 0#2⟩, false, 46#6, .v 10#6, .s 6#6, .v 0#6, ⟨2#4, 0#2, false, 0#2, 0#4⟩⟩)
    ∧ decodeWord 0x35DE828148C00600#64 = .ok (.icmpUnsigned ⟨⟨⟨false, 7#3⟩, ⟨true, 2#3⟩, 0#2⟩, false, 20#6, .v 10#6, .s 6#6, .v 0#6, ⟨3#4, 0#2, false, 0#2, 0#4⟩⟩)
    ∧ decodeWord 0x361E810148C0A000#64 = .ok (.sel ⟨⟨⟨false, 7#3⟩, ⟨true, 2#3⟩, 0#2⟩, false, 8#6, .v 10#6, .s 6#6, .v 5#6, ⟨0#4, 0#2, false, 0#2, 0#4⟩⟩)
    ∧ decodeWord 0x365E810140000800#64 = .ok (.iext ⟨⟨⟨false, 7#3⟩, ⟨true, 2#3⟩, 0#2⟩, false, 8#6, .v 10#6, .v 0#6, .v 0#6, ⟨4#4, 0#2, false, 0#2, 0#4⟩⟩)
    ∧ decodeWord 0x401E810010000000#64 = .ok (.li ⟨⟨⟨false, 7#3⟩, ⟨true, 2#3⟩, 0#2⟩, false, 8#6, .v 0#6, 268435456#29⟩)
    ∧ decodeWord 0x405E880140000005#64 = .ok (.iaddI ⟨⟨⟨false, 7#3⟩, ⟨true, 2#3⟩, 0#2⟩, true, 0#6, .v 10#6, 5#29⟩)
    ∧ decodeWord 0x409E8128B5554321#64 = .ok (.isubI ⟨⟨⟨false, 7#3⟩, ⟨true, 2#3⟩, 0#2⟩, false, 9#6, .s 5#6, 357909281#29⟩)
    ∧ decodeWord 0x415E8128B5554321#64 = .ok (.imulI ⟨⟨⟨false, 7#3⟩, ⟨true, 2#3⟩, 0#2⟩, false, 9#6, .s 5#6, 357909281#29⟩) := by
  refine ⟨rfl, rfl, rfl, rfl, rfl, rfl, rfl, rfl, rfl, rfl, rfl, rfl, rfl, rfl, rfl, rfl, rfl, rfl, rfl, rfl, rfl, rfl, rfl, rfl, rfl, rfl, rfl, rfl, rfl, rfl⟩

/-- Words of the vector class, each field at the place R45 to R52 give it and the opcode of R59. -/
theorem test_decode_vector2 :
    decodeWord 0x431E81304000001F#64 = .ok (.shlI ⟨⟨⟨false, 7#3⟩, ⟨true, 2#3⟩, 0#2⟩, false, 9#6, .y 2#6, 31#29⟩)
    ∧ decodeWord 0x435E81304000001F#64 = .ok (.shrI ⟨⟨⟨false, 7#3⟩, ⟨true, 2#3⟩, 0#2⟩, false, 9#6, .y 2#6, 31#29⟩)
    ∧ decodeWord 0x439E81304000001F#64 = .ok (.sarI ⟨⟨⟨false, 7#3⟩, ⟨true, 2#3⟩, 0#2⟩, false, 9#6, .y 2#6, 31#29⟩)
    ∧ decodeWord 0x43DE81304000001F#64 = .ok (.rotI ⟨⟨⟨false, 7#3⟩, ⟨true, 2#3⟩, 0#2⟩, false, 9#6, .y 2#6, 31#29⟩)
    ∧ decodeWord 0x459E84C155554321#64 = .ok (.icmpSignedI ⟨⟨⟨false, 7#3⟩, ⟨true, 2#3⟩, 0#2⟩, false, 38#6, .v 10#6, 357909281#29⟩)
    ∧ decodeWord 0x45DE84C155554321#64 = .ok (.icmpUnsignedI ⟨⟨⟨false, 7#3⟩, ⟨true, 2#3⟩, 0#2⟩, false, 38#6, .v 10#6, 357909281#29⟩)
    ∧ decodeWord 0x601E810148C01150#64 = .ok (.fadd ⟨⟨⟨false, 7#3⟩, ⟨true, 2#3⟩, 0#2⟩, false, 8#6, .v 10#6, .s 6#6, .v 0#6, ⟨8#4, 2#2, true, 1#2, 0#4⟩⟩)
    ∧ decodeWord 0x605E810148C01150#64 = .ok (.fsub ⟨⟨⟨false, 7#3⟩, ⟨true, 2#3⟩, 0#2⟩, false, 8#6, .v 10#6, .s 6#6, .v 0#6, ⟨8#4, 2#2, true, 1#2, 0#4⟩⟩)
    ∧ decodeWord 0x609E810148C01150#64 = .ok (.fmul ⟨⟨⟨false, 7#3⟩, ⟨true, 2#3⟩, 0#2⟩, false, 8#6, .v 10#6, .s 6#6, .v 0#6, ⟨8#4, 2#2, true, 1#2, 0#4⟩⟩)
    ∧ decodeWord 0x60DE810148D05150#64 = .ok (.ffma ⟨⟨⟨false, 7#3⟩, ⟨true, 2#3⟩, 0#2⟩, false, 8#6, .v 10#6, .s 6#6, .y 2#6, ⟨8#4, 2#2, true, 1#2, 0#4⟩⟩)
    ∧ decodeWord 0x611E810148C01040#64 = .ok (.fmin ⟨⟨⟨false, 7#3⟩, ⟨true, 2#3⟩, 0#2⟩, false, 8#6, .v 10#6, .s 6#6, .v 0#6, ⟨8#4, 0#2, true, 0#2, 0#4⟩⟩)
    ∧ decodeWord 0x615E810148C01040#64 = .ok (.fmax ⟨⟨⟨false, 7#3⟩, ⟨true, 2#3⟩, 0#2⟩, false, 8#6, .v 10#6, .s 6#6, .v 0#6, ⟨8#4, 0#2, true, 0#2, 0#4⟩⟩)
    ∧ decodeWord 0x619E816148C01041#64 = .ok (.fcmp ⟨⟨⟨false, 7#3⟩, ⟨true, 2#3⟩, 0#2⟩, false, 11#6, .v 10#6, .s 6#6, .v 0#6, ⟨8#4, 0#2, true, 0#2, 1#4⟩⟩)
    ∧ decodeWord 0x61DE810140001180#64 = .ok (.frnd ⟨⟨⟨false, 7#3⟩, ⟨true, 2#3⟩, 0#2⟩, false, 8#6, .v 10#6, .v 0#6, .v 0#6, ⟨8#4, 3#2, false, 0#2, 0#4⟩⟩)
    ∧ decodeWord 0x621E810148C01150#64 = .ok (.fscl ⟨⟨⟨false, 7#3⟩, ⟨true, 2#3⟩, 0#2⟩, false, 8#6, .v 10#6, .s 6#6, .v 0#6, ⟨8#4, 2#2, true, 1#2, 0#4⟩⟩)
    ∧ decodeWord 0x625E810140001800#64 = .ok (.fclass ⟨⟨⟨false, 7#3⟩, ⟨true, 2#3⟩, 0#2⟩, false, 8#6, .v 10#6, .v 0#6, .v 0#6, ⟨12#4, 0#2, false, 0#2, 0#4⟩⟩)
    ∧ decodeWord 0x629E810140001040#64 = .ok (.frcp ⟨⟨⟨false, 7#3⟩, ⟨true, 2#3⟩, 0#2⟩, false, 8#6, .v 10#6, .v 0#6, .v 0#6, ⟨8#4, 0#2, true, 0#2, 0#4⟩⟩)
    ∧ decodeWord 0x62DE810140001040#64 = .ok (.frsq ⟨⟨⟨false, 7#3⟩, ⟨true, 2#3⟩, 0#2⟩, false, 8#6, .v 10#6, .v 0#6, .v 0#6, ⟨8#4, 0#2, true, 0#2, 0#4⟩⟩)
    ∧ decodeWord 0x631E810140001180#64 = .ok (.fsqrt ⟨⟨⟨false, 7#3⟩, ⟨true, 2#3⟩, 0#2⟩, false, 8#6, .v 10#6, .v 0#6, .v 0#6, ⟨8#4, 3#2, false, 0#2, 0#4⟩⟩)
    ∧ decodeWord 0x635E810140001040#64 = .ok (.fex2 ⟨⟨⟨false, 7#3⟩, ⟨true, 2#3⟩, 0#2⟩, false, 8#6, .v 10#6, .v 0#6, .v 0#6, ⟨8#4, 0#2, true, 0#2, 0#4⟩⟩)
    ∧ decodeWord 0x639E810140001040#64 = .ok (.flg2 ⟨⟨⟨false, 7#3⟩, ⟨true, 2#3⟩, 0#2⟩, false, 8#6, .v 10#6, .v 0#6, .v 0#6, ⟨8#4, 0#2, true, 0#2, 0#4⟩⟩)
    ∧ decodeWord 0x63DE810140001040#64 = .ok (.fsin ⟨⟨⟨false, 7#3⟩, ⟨true, 2#3⟩, 0#2⟩, false, 8#6, .v 10#6, .v 0#6, .v 0#6, ⟨8#4, 0#2, true, 0#2, 0#4⟩⟩)
    ∧ decodeWord 0x641E810140001040#64 = .ok (.fcos ⟨⟨⟨false, 7#3⟩, ⟨true, 2#3⟩, 0#2⟩, false, 8#6, .v 10#6, .v 0#6, .v 0#6, ⟨8#4, 0#2, true, 0#2, 0#4⟩⟩)
    ∧ decodeWord 0x645E810140001508#64 = .ok (.fcvt ⟨⟨⟨false, 7#3⟩, ⟨true, 2#3⟩, 0#2⟩, false, 8#6, .v 10#6, .v 0#6, .v 0#6, ⟨10#4, 2#2, false, 0#2, 8#4⟩⟩)
    ∧ decodeWord 0x649E810148C014D0#64 = .ok (.pfadd ⟨⟨⟨false, 7#3⟩, ⟨true, 2#3⟩, 0#2⟩, false, 8#6, .v 10#6, .s 6#6, .v 0#6, ⟨10#4, 1#2, true, 1#2, 0#4⟩⟩)
    ∧ decodeWord 0x64DE810148C014D0#64 = .ok (.pfmul ⟨⟨⟨false, 7#3⟩, ⟨true, 2#3⟩, 0#2⟩, false, 8#6, .v 10#6, .s 6#6, .v 0#6, ⟨10#4, 1#2, true, 1#2, 0#4⟩⟩)
    ∧ decodeWord 0x651E810148D054D0#64 = .ok (.pffma ⟨⟨⟨false, 7#3⟩, ⟨true, 2#3⟩, 0#2⟩, false, 8#6, .v 10#6, .s 6#6, .y 2#6, ⟨10#4, 1#2, true, 1#2, 0#4⟩⟩)
    ∧ decodeWord 0x655E810148C01208#64 = .ok (.pfcvt ⟨⟨⟨false, 7#3⟩, ⟨true, 2#3⟩, 0#2⟩, false, 8#6, .v 10#6, .s 6#6, .v 0#6, ⟨9#4, 0#2, false, 0#2, 8#4⟩⟩)
    ∧ decodeWord 0x701E880140000005#64 = .ok (.faddI ⟨⟨⟨false, 7#3⟩, ⟨true, 2#3⟩, 0#2⟩, true, 0#6, .v 10#6, 5#29⟩)
    ∧ decodeWord 0x705E8128B5554321#64 = .ok (.fsubI ⟨⟨⟨false, 7#3⟩, ⟨true, 2#3⟩, 0#2⟩, false, 9#6, .s 5#6, 357909281#29⟩) := by
  refine ⟨rfl, rfl, rfl, rfl, rfl, rfl, rfl, rfl, rfl, rfl, rfl, rfl, rfl, rfl, rfl, rfl, rfl, rfl, rfl, rfl, rfl, rfl, rfl, rfl, rfl, rfl, rfl, rfl, rfl, rfl⟩

/-- Words of the vector class, each field at the place R45 to R52 give it and the opcode of R59. -/
theorem test_decode_vector3 :
    decodeWord 0x709E8128B5554321#64 = .ok (.fmulI ⟨⟨⟨false, 7#3⟩, ⟨true, 2#3⟩, 0#2⟩, false, 9#6, .s 5#6, 357909281#29⟩)
    ∧ decodeWord 0x711E8128B5554321#64 = .ok (.fminI ⟨⟨⟨false, 7#3⟩, ⟨true, 2#3⟩, 0#2⟩, false, 9#6, .s 5#6, 357909281#29⟩)
    ∧ decodeWord 0x715E8128B5554321#64 = .ok (.fmaxI ⟨⟨⟨false, 7#3⟩, ⟨true, 2#3⟩, 0#2⟩, false, 9#6, .s 5#6, 357909281#29⟩)
    ∧ decodeWord 0x901E810148C00002#64 = .ok (.shf ⟨⟨⟨false, 7#3⟩, ⟨true, 2#3⟩, 0#2⟩, false, 8#6, .v 10#6, .s 6#6, .v 0#6, ⟨0#4, 0#2, false, 0#2, 2#4⟩⟩)
    ∧ decodeWord 0x981E81014000007F#64 = .ok (.shfI ⟨⟨⟨false, 7#3⟩, ⟨true, 2#3⟩, 0#2⟩, false, 8#6, .v 10#6, 127#29⟩)
    ∧ decodeWord 0x905E808160000000#64 = .ok (.vall ⟨⟨⟨false, 7#3⟩, ⟨true, 2#3⟩, 0#2⟩, false, 4#6, .v 11#6, .v 0#6, .v 0#6, ⟨0#4, 0#2, false, 0#2, 0#4⟩⟩)
    ∧ decodeWord 0x909E808160000000#64 = .ok (.vany ⟨⟨⟨false, 7#3⟩, ⟨true, 2#3⟩, 0#2⟩, false, 4#6, .v 11#6, .v 0#6, .v 0#6, ⟨0#4, 0#2, false, 0#2, 0#4⟩⟩)
    ∧ decodeWord 0x90DE808160000000#64 = .ok (.vbal ⟨⟨⟨false, 7#3⟩, ⟨true, 2#3⟩, 0#2⟩, false, 4#6, .v 11#6, .v 0#6, .v 0#6, ⟨0#4, 0#2, false, 0#2, 0#4⟩⟩)
    ∧ decodeWord 0x911E810140000000#64 = .ok (.vmatch ⟨⟨⟨false, 7#3⟩, ⟨true, 2#3⟩, 0#2⟩, false, 8#6, .v 10#6, .v 0#6, .v 0#6, ⟨0#4, 0#2, false, 0#2, 0#4⟩⟩)
    ∧ decodeWord 0x915E81014000020A#64 = .ok (.scan ⟨⟨⟨false, 7#3⟩, ⟨true, 2#3⟩, 0#2⟩, false, 8#6, .v 10#6, .v 0#6, .v 0#6, ⟨1#4, 0#2, false, 0#2, 10#4⟩⟩)
    ∧ decodeWord 0x919E810140000202#64 = .ok (.lred ⟨⟨⟨false, 7#3⟩, ⟨true, 2#3⟩, 0#2⟩, false, 8#6, .v 10#6, .v 0#6, .v 0#6, ⟨1#4, 0#2, false, 0#2, 2#4⟩⟩)
    ∧ decodeWord 0x91DE810148C00000#64 = .ok (.isect ⟨⟨⟨false, 7#3⟩, ⟨true, 2#3⟩, 0#2⟩, false, 8#6, .v 10#6, .s 6#6, .v 0#6, ⟨0#4, 0#2, false, 0#2, 0#4⟩⟩) := by
  refine ⟨rfl, rfl, rfl, rfl, rfl, rfl, rfl, rfl, rfl, rfl, rfl, rfl⟩

/-- Words of the memory class, each field at the place R45 to R52 give it and the opcode of R59. -/
theorem test_decode_memory1 :
    decodeWord 0xA01EA1928C015BA1#64 = .ok (.ld ⟨⟨⟨false, 7#3⟩, ⟨true, 2#3⟩, 2#2⟩, false, 12#6, 9#4, .s 6#6, .v 0#6, 5#3, 3#3, 929#11⟩)
    ∧ decodeWord 0xA05EA0128C109FFF#64 = .ok (.st ⟨⟨⟨false, 7#3⟩, ⟨true, 2#3⟩, 2#2⟩, false, 0#6, 9#4, .s 6#6, .v 8#6, 2#3, 3#3, 2047#11⟩)
    ∧ decodeWord 0xA09EA1808C015BA1#64 = .ok (.lds ⟨⟨⟨false, 7#3⟩, ⟨true, 2#3⟩, 2#2⟩, false, 12#6, 0#4, .s 6#6, .v 0#6, 5#3, 3#3, 929#11⟩)
    ∧ decodeWord 0xA0DEA0001210A005#64 = .ok (.sts ⟨⟨⟨false, 7#3⟩, ⟨true, 2#3⟩, 2#2⟩, false, 0#6, 0#4, .v 9#6, .v 8#6, 2#3, 4#3, 5#11⟩)
    ∧ decodeWord 0xA11EA1928C015BA1#64 = .ok (.ldp ⟨⟨⟨false, 7#3⟩, ⟨true, 2#3⟩, 2#2⟩, false, 12#6, 9#4, .s 6#6, .v 0#6, 5#3, 3#3, 929#11⟩)
    ∧ decodeWord 0xA15EA0128C109FFF#64 = .ok (.stp ⟨⟨⟨false, 7#3⟩, ⟨true, 2#3⟩, 2#2⟩, false, 0#6, 9#4, .s 6#6, .v 8#6, 2#3, 3#3, 2047#11⟩)
    ∧ decodeWord 0xA19EA1928C015BA1#64 = .ok (.sld ⟨⟨⟨false, 7#3⟩, ⟨true, 2#3⟩, 2#2⟩, false, 12#6, 9#4, .s 6#6, .v 0#6, 5#3, 3#3, 929#11⟩)
    ∧ decodeWord 0xA1DEA0128C8A9FFF#64 = .ok (.sst ⟨⟨⟨false, 7#3⟩, ⟨true, 2#3⟩, 2#2⟩, false, 0#6, 9#4, .s 6#6, .s 5#6, 2#3, 3#3, 2047#11⟩)
    ∧ decodeWord 0xA21EA0078601E001#64 = .ok (.pref ⟨⟨⟨false, 7#3⟩, ⟨true, 2#3⟩, 2#2⟩, false, 0#6, 3#4, .k 3#6, .v 0#6, 7#3, 4#3, 1#11⟩)
    ∧ decodeWord 0xB81E800612104809#64 = .ok (.acc ⟨⟨⟨false, 7#3⟩, ⟨true, 2#3⟩, 0#2⟩, false, 0#6, 3#4, .v 9#6, .v 8#6, 1#3, 1#3, 9#11⟩)
    ∧ decodeWord 0xB85E80A6128A5009#64 = .ok (.ldt ⟨⟨⟨false, 7#3⟩, ⟨true, 2#3⟩, 0#2⟩, false, 5#6, 3#4, .v 9#6, .s 5#6, 1#3, 2#3, 9#11⟩)
    ∧ decodeWord 0xB89E80008A010200#64 = .ok (.drn ⟨⟨⟨false, 7#3⟩, ⟨true, 2#3⟩, 0#2⟩, false, 0#6, 0#4, .s 5#6, .v 0#6, 4#3, 0#3, 512#11⟩)
    ∧ decodeWord 0xB8DE80A68A011800#64 = .ok (.grd ⟨⟨⟨false, 7#3⟩, ⟨true, 2#3⟩, 0#2⟩, false, 5#6, 3#4, .s 5#6, .v 0#6, 4#3, 3#3, 0#11⟩)
    ∧ decodeWord 0xB91E8008B8600000#64 = .ok (.bnd ⟨⟨⟨false, 7#3⟩, ⟨true, 2#3⟩, 0#2⟩, false, 0#6, .s 5#6, .k 3#6, .v 0#6, ⟨0#4, 0#2, false, 0#2, 0#4⟩⟩)
    ∧ decodeWord 0xC01E818E1210D300#64 = .ok (.atmAdd ⟨⟨⟨false, 7#3⟩, ⟨true, 2#3⟩, 0#2⟩, false, 12#6, 7#4, .v 9#6, .v 8#6, 3#3, 2#3, 768#11⟩)
    ∧ decodeWord 0xC05E818E1210D320#64 = .ok (.atmMin ⟨⟨⟨false, 7#3⟩, ⟨true, 2#3⟩, 0#2⟩, false, 12#6, 7#4, .v 9#6, .v 8#6, 3#3, 2#3, 800#11⟩)
    ∧ decodeWord 0xC09E818E1210D320#64 = .ok (.atmMax ⟨⟨⟨false, 7#3⟩, ⟨true, 2#3⟩, 0#2⟩, false, 12#6, 7#4, .v 9#6, .v 8#6, 3#3, 2#3, 800#11⟩)
    ∧ decodeWord 0xC0DE818E1210D300#64 = .ok (.atmAnd ⟨⟨⟨false, 7#3⟩, ⟨true, 2#3⟩, 0#2⟩, false, 12#6, 7#4, .v 9#6, .v 8#6, 3#3, 2#3, 768#11⟩)
    ∧ decodeWord 0xC11E818E1210D300#64 = .ok (.atmOr ⟨⟨⟨false, 7#3⟩, ⟨true, 2#3⟩, 0#2⟩, false, 12#6, 7#4, .v 9#6, .v 8#6, 3#3, 2#3, 768#11⟩)
    ∧ decodeWord 0xC15E818E1210D300#64 = .ok (.atmXor ⟨⟨⟨false, 7#3⟩, ⟨true, 2#3⟩, 0#2⟩, false, 12#6, 7#4, .v 9#6, .v 8#6, 3#3, 2#3, 768#11⟩)
    ∧ decodeWord 0xC19E818E1210D300#64 = .ok (.atmXchg ⟨⟨⟨false, 7#3⟩, ⟨true, 2#3⟩, 0#2⟩, false, 12#6, 7#4, .v 9#6, .v 8#6, 3#3, 2#3, 768#11⟩)
    ∧ decodeWord 0xC1DE818E1210DB00#64 = .ok (.atmCas ⟨⟨⟨false, 7#3⟩, ⟨true, 2#3⟩, 0#2⟩, false, 12#6, 7#4, .v 9#6, .v 8#6, 3#3, 3#3, 768#11⟩)
    ∧ decodeWord 0xC21E818E1210D310#64 = .ok (.atmFadd ⟨⟨⟨false, 7#3⟩, ⟨true, 2#3⟩, 0#2⟩, false, 12#6, 7#4, .v 9#6, .v 8#6, 3#3, 2#3, 784#11⟩)
    ∧ decodeWord 0xC25E818E1210D310#64 = .ok (.atmFmax ⟨⟨⟨false, 7#3⟩, ⟨true, 2#3⟩, 0#2⟩, false, 12#6, 7#4, .v 9#6, .v 8#6, 3#3, 2#3, 784#11⟩)
    ∧ decodeWord 0xC41E81801210D300#64 = .ok (.atmsAdd ⟨⟨⟨false, 7#3⟩, ⟨true, 2#3⟩, 0#2⟩, false, 12#6, 0#4, .v 9#6, .v 8#6, 3#3, 2#3, 768#11⟩)
    ∧ decodeWord 0xC45E81801210D320#64 = .ok (.atmsMin ⟨⟨⟨false, 7#3⟩, ⟨true, 2#3⟩, 0#2⟩, false, 12#6, 0#4, .v 9#6, .v 8#6, 3#3, 2#3, 800#11⟩)
    ∧ decodeWord 0xC49E81801210D320#64 = .ok (.atmsMax ⟨⟨⟨false, 7#3⟩, ⟨true, 2#3⟩, 0#2⟩, false, 12#6, 0#4, .v 9#6, .v 8#6, 3#3, 2#3, 800#11⟩)
    ∧ decodeWord 0xC4DE81801210D300#64 = .ok (.atmsAnd ⟨⟨⟨false, 7#3⟩, ⟨true, 2#3⟩, 0#2⟩, false, 12#6, 0#4, .v 9#6, .v 8#6, 3#3, 2#3, 768#11⟩)
    ∧ decodeWord 0xC51E81801210D300#64 = .ok (.atmsOr ⟨⟨⟨false, 7#3⟩, ⟨true, 2#3⟩, 0#2⟩, false, 12#6, 0#4, .v 9#6, .v 8#6, 3#3, 2#3, 768#11⟩)
    ∧ decodeWord 0xC55E81801210D300#64 = .ok (.atmsXor ⟨⟨⟨false, 7#3⟩, ⟨true, 2#3⟩, 0#2⟩, false, 12#6, 0#4, .v 9#6, .v 8#6, 3#3, 2#3, 768#11⟩) := by
  refine ⟨rfl, rfl, rfl, rfl, rfl, rfl, rfl, rfl, rfl, rfl, rfl, rfl, rfl, rfl, rfl, rfl, rfl, rfl, rfl, rfl, rfl, rfl, rfl, rfl, rfl, rfl, rfl, rfl, rfl, rfl⟩

/-- Words of the memory class, each field at the place R45 to R52 give it and the opcode of R59. -/
theorem test_decode_memory2 :
    decodeWord 0xC59E81801210D300#64 = .ok (.atmsXchg ⟨⟨⟨false, 7#3⟩, ⟨true, 2#3⟩, 0#2⟩, false, 12#6, 0#4, .v 9#6, .v 8#6, 3#3, 2#3, 768#11⟩)
    ∧ decodeWord 0xC5DE81801210DB00#64 = .ok (.atmsCas ⟨⟨⟨false, 7#3⟩, ⟨true, 2#3⟩, 0#2⟩, false, 12#6, 0#4, .v 9#6, .v 8#6, 3#3, 3#3, 768#11⟩)
    ∧ decodeWord 0xC61E81801210D310#64 = .ok (.atmsFadd ⟨⟨⟨false, 7#3⟩, ⟨true, 2#3⟩, 0#2⟩, false, 12#6, 0#4, .v 9#6, .v 8#6, 3#3, 2#3, 784#11⟩)
    ∧ decodeWord 0xC65E81801210D310#64 = .ok (.atmsFmax ⟨⟨⟨false, 7#3⟩, ⟨true, 2#3⟩, 0#2⟩, false, 12#6, 0#4, .v 9#6, .v 8#6, 3#3, 2#3, 784#11⟩)
    ∧ decodeWord 0xC81E8000000005B8#64 = .ok (.fen ⟨⟨⟨false, 7#3⟩, ⟨true, 2#3⟩, 0#2⟩, false, 0#6, .v 0#6, .v 0#6, .v 0#6, ⟨2#4, 3#2, false, 3#2, 8#4⟩⟩)
    ∧ decodeWord 0xC85E80008C8A2200#64 = .ok (.clmi ⟨⟨⟨false, 7#3⟩, ⟨true, 2#3⟩, 0#2⟩, false, 0#6, 0#4, .s 6#6, .s 5#6, 0#3, 4#3, 512#11⟩)
    ∧ decodeWord 0xC89E80088D862000#64 = .ok (.clmx ⟨⟨⟨false, 7#3⟩, ⟨true, 2#3⟩, 0#2⟩, false, 0#6, 4#4, .s 6#6, .k 3#6, 0#3, 4#3, 0#11⟩)
    ∧ decodeWord 0xC8DE80088C002400#64 = .ok (.clma ⟨⟨⟨false, 7#3⟩, ⟨true, 2#3⟩, 0#2⟩, false, 0#6, 4#4, .s 6#6, .v 0#6, 0#3, 4#3, 1024#11⟩)
    ∧ decodeWord 0xC91E80008C8BE200#64 = .ok (.clmw ⟨⟨⟨false, 7#3⟩, ⟨true, 2#3⟩, 0#2⟩, false, 0#6, 0#4, .s 6#6, .s 5#6, 7#3, 4#3, 512#11⟩)
    ∧ decodeWord 0xC95E80688C8A2000#64 = .ok (.clmt ⟨⟨⟨false, 7#3⟩, ⟨true, 2#3⟩, 0#2⟩, false, 3#6, 4#4, .s 6#6, .s 5#6, 0#3, 4#3, 0#11⟩)
    ∧ decodeWord 0xC99E800000000000#64 = .ok (.tbar ⟨⟨⟨false, 7#3⟩, ⟨true, 2#3⟩, 0#2⟩, 0#44⟩) := by
  refine ⟨rfl, rfl, rfl, rfl, rfl, rfl, rfl, rfl, rfl, rfl, rfl⟩

/-- Words of the copy class, each field at the place R45 to R52 give it and the opcode of R59. -/
theorem test_decode_copy :
    decodeWord 0xD01E90420C09FFF0#64 = .ok (.cpy ⟨⟨⟨false, 7#3⟩, ⟨true, 2#3⟩, 1#2⟩, 1#6, 2#6, 3#6, 0#6, 4#3, true, 65520#16⟩)
    ∧ decodeWord 0xD05E90420C09FFF0#64 = .ok (.cpye ⟨⟨⟨false, 7#3⟩, ⟨true, 2#3⟩, 1#2⟩, 1#6, 2#6, 3#6, 0#6, 4#3, true, 65520#16⟩)
    ∧ decodeWord 0xD09E90420FC9FFF0#64 = .ok (.rel ⟨⟨⟨false, 7#3⟩, ⟨true, 2#3⟩, 1#2⟩, 1#6, 2#6, 3#6, 60#6, 4#3, true, 65520#16⟩)
    ∧ decodeWord 0xD0DE90420C09FFF0#64 = .ok (.cpys ⟨⟨⟨false, 7#3⟩, ⟨true, 2#3⟩, 1#2⟩, 1#6, 2#6, 3#6, 0#6, 4#3, true, 65520#16⟩)
    ∧ decodeWord 0xD11E90420FC9FFF0#64 = .ok (.cpym ⟨⟨⟨false, 7#3⟩, ⟨true, 2#3⟩, 1#2⟩, 1#6, 2#6, 3#6, 60#6, 4#3, true, 65520#16⟩)
    ∧ decodeWord 0xD15E90400C09FFF0#64 = .ok (.mat ⟨⟨⟨false, 7#3⟩, ⟨true, 2#3⟩, 1#2⟩, 1#6, 0#6, 3#6, 0#6, 4#3, true, 65520#16⟩)
    ∧ decodeWord 0xD19E90400C09FFF0#64 = .ok (.vdrop ⟨⟨⟨false, 7#3⟩, ⟨true, 2#3⟩, 1#2⟩, 1#6, 0#6, 3#6, 0#6, 4#3, true, 65520#16⟩)
    ∧ decodeWord 0xD1DE904200080000#64 = .ok (.vstat ⟨⟨⟨false, 7#3⟩, ⟨true, 2#3⟩, 1#2⟩, 1#6, 2#6, 0#6, 0#6, 4#3, false, 0#16⟩) := by
  refine ⟨rfl, rfl, rfl, rfl, rfl, rfl, rfl, rfl⟩

/-- Words of the matrix class, each field at the place R45 to R52 give it and the opcode of R59. -/
theorem test_decode_matrix :
    decodeWord 0xE01E8848E0730000#64 = .ok (.mmaF8 ⟨⟨⟨false, 7#3⟩, ⟨true, 2#3⟩, 0#2⟩, 33#6, 8#6, 56#6, 7#6, 1#3, true, 0#4, 0#2, 0#10⟩)
    ∧ decodeWord 0xE05E8848E0020000#64 = .ok (.mmaBf ⟨⟨⟨false, 7#3⟩, ⟨true, 2#3⟩, 0#2⟩, 33#6, 8#6, 56#6, 0#6, 1#3, false, 0#4, 0#2, 0#10⟩)
    ∧ decodeWord 0xE09E8848E0020000#64 = .ok (.mmaI8 ⟨⟨⟨false, 7#3⟩, ⟨true, 2#3⟩, 0#2⟩, 33#6, 8#6, 56#6, 0#6, 1#3, false, 0#4, 0#2, 0#10⟩)
    ∧ decodeWord 0xE0DE8840000E0000#64 = .ok (.azero ⟨⟨⟨false, 7#3⟩, ⟨true, 2#3⟩, 0#2⟩, 33#6, 0#6, 0#6, 0#6, 7#3, false, 0#4, 0#2, 0#10⟩)
    ∧ decodeWord 0xE11E8848000E0C00#64 = .ok (.ard ⟨⟨⟨false, 7#3⟩, ⟨true, 2#3⟩, 0#2⟩, 33#6, 8#6, 0#6, 0#6, 7#3, false, 0#4, 3#2, 0#10⟩)
    ∧ decodeWord 0xE15E8848000E0C00#64 = .ok (.awr ⟨⟨⟨false, 7#3⟩, ⟨true, 2#3⟩, 0#2⟩, 33#6, 8#6, 0#6, 0#6, 7#3, false, 0#4, 3#2, 0#10⟩)
    ∧ decodeWord 0xE19E8848007EF000#64 = .ok (.fin ⟨⟨⟨false, 7#3⟩, ⟨true, 2#3⟩, 0#2⟩, 33#6, 8#6, 0#6, 7#6, 7#3, false, 15#4, 0#2, 0#10⟩)
    ∧ decodeWord 0xE1DE8000007EF000#64 = .ok (.fpl ⟨⟨⟨false, 7#3⟩, ⟨true, 2#3⟩, 0#2⟩, 0#6, 0#6, 0#6, 7#6, 7#3, false, 15#4, 0#2, 0#10⟩) := by
  refine ⟨rfl, rfl, rfl, rfl, rfl, rfl, rfl, rfl⟩

/-- Words of the fabric class, each field at the place R45 to R52 give it and the opcode of R59. -/
theorem test_decode_fabric :
    decodeWord 0xE81E80420FC80000#64 = .ok (.xput ⟨⟨⟨false, 7#3⟩, ⟨true, 2#3⟩, 0#2⟩, 1#6, 2#6, 3#6, 60#6, 4#3, false, 0#16⟩)
    ∧ decodeWord 0xE85E80420FC80006#64 = .ok (.xred ⟨⟨⟨false, 7#3⟩, ⟨true, 2#3⟩, 0#2⟩, 1#6, 2#6, 3#6, 60#6, 4#3, false, 6#16⟩)
    ∧ decodeWord 0xE89E80420FC80000#64 = .ok (.xget ⟨⟨⟨false, 7#3⟩, ⟨true, 2#3⟩, 0#2⟩, 1#6, 2#6, 3#6, 60#6, 4#3, false, 0#16⟩)
    ∧ decodeWord 0xE8DE8000000E0000#64 = .ok (.xfen ⟨⟨⟨false, 7#3⟩, ⟨true, 2#3⟩, 0#2⟩, 0#6, 0#6, 0#6, 0#6, 7#3, false, 0#16⟩) := by
  refine ⟨rfl, rfl, rfl, rfl⟩

/-- Words of the system class, each field at the place R45 to R52 give it and the opcode of R59. -/
theorem test_decode_system :
    decodeWord 0xEC1E8402000E0000#64 = .ok (.deq ⟨⟨⟨false, 7#3⟩, ⟨true, 2#3⟩, 0#2⟩, 16#6, 2#6, 0#6, 0#6, 7#3, 0#17⟩)
    ∧ decodeWord 0xEC5E824260020000#64 = .ok (.enq ⟨⟨⟨false, 7#3⟩, ⟨true, 2#3⟩, 0#2⟩, 9#6, 2#6, 24#6, 0#6, 1#3, 0#17⟩)
    ∧ decodeWord 0xEC9E824200020000#64 = .ok (.lnch ⟨⟨⟨false, 7#3⟩, ⟨true, 2#3⟩, 0#2⟩, 9#6, 2#6, 0#6, 0#6, 1#3, 0#17⟩)
    ∧ decodeWord 0xECDE8002000E0000#64 = .ok (.cwait ⟨⟨⟨false, 7#3⟩, ⟨true, 2#3⟩, 0#2⟩, 0#6, 2#6, 0#6, 0#6, 7#3, 0#17⟩)
    ∧ decodeWord 0xED1E8000000FFFFF#64 = .ok (.trap ⟨⟨⟨false, 7#3⟩, ⟨true, 2#3⟩, 0#2⟩, 0#6, 0#6, 0#6, 0#6, 7#3, 131071#17⟩)
    ∧ decodeWord 0xED5E8000000E0000#64 = .ok (.rti ⟨⟨⟨false, 7#3⟩, ⟨true, 2#3⟩, 0#2⟩, 0#6, 0#6, 0#6, 0#6, 7#3, 0#17⟩)
    ∧ decodeWord 0xED9E8000000FFFFF#64 = .ok (.brk ⟨⟨⟨false, 7#3⟩, ⟨true, 2#3⟩, 0#2⟩, 0#6, 0#6, 0#6, 0#6, 7#3, 131071#17⟩)
    ∧ decodeWord 0xEDDE82420C020001#64 = .ok (.ctxs ⟨⟨⟨false, 7#3⟩, ⟨true, 2#3⟩, 0#2⟩, 9#6, 2#6, 3#6, 0#6, 1#3, 1#17⟩)
    ∧ decodeWord 0xEE1E824200020000#64 = .ok (.ctxl ⟨⟨⟨false, 7#3⟩, ⟨true, 2#3⟩, 0#2⟩, 9#6, 2#6, 0#6, 0#6, 1#3, 0#17⟩)
    ∧ decodeWord 0xEE5E80020C03FFFF#64 = .ok (.tlbi ⟨⟨⟨false, 7#3⟩, ⟨true, 2#3⟩, 0#2⟩, 0#6, 2#6, 3#6, 0#6, 1#3, 131071#17⟩) := by
  refine ⟨rfl, rfl, rfl, rfl, rfl, rfl, rfl, rfl, rfl, rfl⟩
/-! ## Witnesses: for each statement with hypotheses, a state and operands that meet them, clause by clause -/

/-- The device after reset, with one slat of the physical function that issues a clause of one nop. -/
def s1 : State := State.reset.withFetchWord 64 0x21DDC00000000000
def t1 : Slat := soloSlat 3 2 1 0x21DDC00000000000#64
def u1 : Issue := ⟨0, 0#64, 0, .alu, [0x21DDC00000000000#64], 0, false, [], [], [], false⟩

/-- The same with another slat, or another clause. -/
def with1 (t : Slat) (u : Issue) : State := { s1 with slats := [{ t with issue := some u }] }

/-- Guards that do not hold. -/
def hOff : Hdr := { h0 with g1 := ⟨true, 7⟩ }

theorem frag1 : s1.frag = some (t1, u1) := rfl

theorem witness_DecodeEncode : (Instr.sadd { r0 with dst := 63, a := .s 63, b := .k 7 }).wf = true
    ∧ (encode (.sadd { r0 with dst := 63, a := .s 63, b := .k 7 })).isSome = true := ⟨by decide, rfl⟩

theorem witness_StepRunsDecoded :
    (s1.frag = some (t1, u1) ∧ u1.words[u1.pos]? = some 0x21DDC00000000000#64 ∧ decodeWord 0x21DDC00000000000#64 = .ok (.nop z0))
    ∧ ((with1 t1 { u1 with words := [0] }).frag.isSome = true ∧ decodeWord 0#64 = .error .sourceKind)
    ∧ ((with1 t1 { u1 with pos := 1 }).frag.isSome = true ∧ ({ u1 with pos := 1 } : Issue).words[1]? = none)
    ∧ (State.reset.focus = none ∧ State.reset.agenda = [])
    ∧ ((State.reset.withAgenda [⟨3, .ev (.coreStart 0)⟩]).focus = none
      ∧ (State.reset.withAgenda [⟨3, .ev (.coreStart 0)⟩]).agenda = ⟨3, .ev (.coreStart 0)⟩ :: []) :=
  ⟨⟨rfl, rfl, rfl⟩, ⟨rfl, rfl⟩, ⟨rfl, rfl⟩, ⟨rfl, rfl⟩, rfl, rfl⟩

theorem witness_WhereItStops : (Instr.nop z0).grp.isSome = true ∧ State.reset.frag = none
    ∧ step (State.reset.withAgenda [⟨0, .ev (.nop z0)⟩]) = .fault .noFragment := ⟨rfl, rfl, rfl⟩

theorem witness_InvStep : s1.Inv ∧ ∃ t, step s1 = .next t := ⟨⟨rfl, rfl, rfl⟩, _, rfl⟩

/-- The guards hold and no source is marked: the register and the immediate forms of the scalar instructions. -/
theorem witness_ScalarArithmetic : s1.frag = some (t1, u1) ∧ t1.qHolds { r0 with a := .s 63, b := .k 5 }.h = true
    ∧ (t1.srcS (.s 63)).2 = false ∧ (t1.srcS (.k 5)).2 = false ∧ t1.qHolds { i0 with a := .s 63 }.h = true := ⟨rfl, rfl, rfl, rfl, rfl⟩

theorem witness_ScalarMoves : s1.frag = some (t1, u1) ∧ t1.qHolds r0.h = true ∧ (t1.srcS (.s 0)).2 = false ∧ (t1.srcS (.s 0)).1.toNat = 0
    ∧ (t1.srcS (.k 3)).2 = false ∧ (t1.srcS (.k 3)).1.toNat ≠ 0 ∧ t1.qHolds i0.h = true := ⟨rfl, rfl, rfl, rfl, rfl, by decide, rfl⟩

theorem witness_ScalarCompares : s1.frag = some (t1, u1) ∧ t1.qHolds r0.h = true ∧ (t1.srcS (.s 0)).2 = false ∧ (t1.srcS (.k 7)).2 = false
    ∧ t1.qHolds i0.h = true := ⟨rfl, rfl, rfl, rfl, rfl⟩

theorem witness_GuardsOff : s1.frag = some (t1, u1) ∧ t1.qHolds { r0 with h := hOff }.h = false ∧ t1.qHolds { i0 with h := hOff }.h = false
    ∧ t1.qHolds { z0 with h := hOff }.h = false := ⟨rfl, rfl, rfl, rfl⟩

/-- At a slat of level 0, register 0x0FF is the last it reaches and 0x100 the first it does not. -/
theorem witness_ControlRegisters :
    let t := { t1 with level := 0 }
    (with1 t u1).frag = some ({ t with issue := some u1 }, u1) ∧ t.qHolds i0.h = true
    ∧ ¬ (1024 ≤ (0xFF#29).toNat ∨ (256 ≤ (0xFF#29).toNat ∧ t.level = 0)) ∧ (1024 ≤ (0x100#29).toNat ∨ (256 ≤ (0x100#29).toNat ∧ t.level = 0))
    ∧ (t.srcS (.s 0)).2 = false ∧ (s1.team? t1.team).isSome = true
    ∧ ((t.ent u1.ent).mask.getLsbD 0 = true ∧ ∀ k, k < 0 → (t.ent u1.ent).mask.getLsbD k = false) :=
  ⟨rfl, rfl, by decide, by decide, rfl, rfl, rfl, by decide⟩

theorem witness_AbortKeepsNothing :
    s1.frag = some (t1, u1) ∧ s1.snap = some t1 ∧ t1.uid = t1.uid
    ∧ t1.pend.any (fun d => d.joins { (u1.cause 3 1 0) with at_ := some u1.h }) = false
    ∧ ((u1.cause 3 1 0).isLane && t1.told.contains (u1.cause 3 1 0).cid) = false := ⟨rfl, rfl, rfl, rfl, rfl⟩

/-- A base that is no sign extension; one the core's TLB holds, the last it holds; and one it does not hold. -/
theorem witness_TranslationRegister :
    let e : TlbEnt := ⟨0, 0, 0, 65536, 0, 7⟩
    let t := { t1 with s := [(1, 0x0080000000000000#64), (2, 65535#64), (3, 65536#64)] }
    let s := { with1 t u1 with cores := [(0, { Core.reset with tlb := [e] })] }
    s.frag = some ({ t with issue := some u1 }, u1) ∧ t.qHolds r0.h = true ∧ (t.srcS (.s 1)).2 = false
    ∧ canonical (t.srcS (.s 1)).1 = false
    ∧ (canonical (t.srcS (.s 2)).1 = true ∧ ∃ s', s.tlbLook 0 0 0 (t.srcS (.s 2)).1 = (some e, s'))
    ∧ (canonical (t.srcS (.s 3)).1 = true ∧ ∃ s', s.tlbLook 0 0 0 (t.srcS (.s 3)).1 = (none, s')) :=
  ⟨rfl, rfl, rfl, by decide, ⟨by decide, _, rfl⟩, by decide, _, rfl⟩

theorem witness_ControlFlow : s1.frag = some (t1, u1) ∧ t1.qHolds i0.h = true ∧ (t1.srcS (.s 9)).2 = false ∧ (7 : Nat) ≠ u1.ent
    ∧ (t1.ent u1.ent).mask.getLsbD 31 = true := ⟨rfl, rfl, rfl, by decide, rfl⟩

/-- No lane takes the branch; every lane; one of 32 with two entries free, with none, and with none and 32 records. -/
theorem witness_DivergentBranch :
    let t := { t1 with p := [(0, 1#32)] }
    let one : Hdr := { h0 with g1 := ⟨false, 0⟩ }
    let full := { t with split := (List.range 8).map (fun k => (k, if k = 0 then t1.ent 0 else { SplitEntry.free with st := .waiting })) }
    let last := { full with recs := List.replicate 32 ⟨0, 1#32, 5#64, 3#32, none, .none, 1⟩ }
    let tk := fun (t : Slat) (h : Hdr) => laneMask (t.active u1 h)
    (with1 t u1).frag = some ({ t with issue := some u1 }, u1) ∧ tk t hOff = 0
    ∧ (tk t h0 ≠ 0 ∧ (t.ent 0).mask &&& ~~~(tk t h0) = 0)
    ∧ (tk t one ≠ 0 ∧ (t.ent 0).mask &&& ~~~(tk t one) ≠ 0
      ∧ (List.range 8).filter (fun k => (t.ent k).st == .free) = 1 :: 2 :: [3, 4, 5, 6, 7])
    ∧ (tk full one ≠ 0 ∧ (full.ent 0).mask &&& ~~~(tk full one) ≠ 0
      ∧ ((List.range 8).filter (fun k => (full.ent k).st == .free)).length < 2 ∧ full.recs.length < 32)
    ∧ (tk last one ≠ 0 ∧ (last.ent 0).mask &&& ~~~(tk last one) ≠ 0
      ∧ ((List.range 8).filter (fun k => (last.ent k).st == .free)).length < 2 ∧ 32 ≤ last.recs.length ∧ u1.cls = .alu) := by
  refine ⟨rfl, by decide, by decide, by decide, by decide, by decide⟩

/-- Nothing is marked in a slat at kernel entry. -/
theorem unmarked1 : Unmarked t1 (t1.active u1 h0) [(.v 63, 1), (.s 63, 2), (.y 3, 1), (.k 7, 1)] ∧ (t1.active u1 h0).length = 32 := by
  unfold Unmarked; decide

theorem witness_VectorArithmetic : s1.frag = some (t1, u1) ∧ Unmarked t1 (t1.active u1 h0) [(.v 8, 1), (.y 0, 1), (.k 7, 1)]
    ∧ Unmarked t1 (t1.active u1 h0) [(.v 8, 2), (.s 1, 2), (.k 7, 2)] := ⟨frag1, by unfold Unmarked; decide, by unfold Unmarked; decide⟩

theorem witness_LesserGreaterAbs : s1.frag = some (t1, u1) ∧ Unmarked t1 (t1.active u1 h0) [(.v 63, 1), (.s 63, 1)]
    ∧ Unmarked t1 (t1.active u1 h0) [(.v 62, 2), (.s 63, 2)] := ⟨frag1, by unfold Unmarked; decide, by unfold Unmarked; decide⟩

theorem witness_BitCounts : s1.frag = some (t1, u1) ∧ Unmarked t1 (t1.active u1 h0) [(.v 63, 1)] ∧ t1.src32 u1 (.v 63) 0 = 0
    ∧ t1.src32 u1 (.k 3) 0 ≠ 0 := ⟨frag1, by unfold Unmarked; decide, by decide, by decide⟩

/-- A field at bit 31 of length 255, one of length 0, and one at 32. -/
theorem witness_LogicBitFields : s1.frag = some (t1, u1) ∧ Unmarked t1 (t1.active u1 h0) [(.v 63, 1), (.s 63, 1), (.k 7, 1)]
    ∧ (∀ n : Nat, n = 0xFF1F → ¬ (n / 256 % 256 = 0 ∨ 32 ≤ n % 256)) ∧ (0x00 / 256 % 256 = 0 ∨ 32 ≤ 0x00 % 256)
    ∧ (0x120 / 256 % 256 = 0 ∨ 32 ≤ 0x120 % 256) := ⟨frag1, by unfold Unmarked; decide, by omega, by decide, by decide⟩

theorem witness_ShiftsRotates : s1.frag = some (t1, u1) ∧ Unmarked t1 (t1.active u1 h0) [(.v 63, 1), (.s 63, 1)]
    ∧ (31#29).toNat < 32 ∧ Unmarked t1 (t1.active u1 h0) [(.v 62, 2), (.v 63, 1)] :=
  ⟨frag1, by unfold Unmarked; decide, by decide, by unfold Unmarked; decide⟩

/-- Operands that are no NaN, and one that is. -/
theorem witness_Compares : s1.frag = some (t1, u1) ∧ Unmarked t1 (t1.active u1 h0) [(.v 63, 1), (.k 0, 1)]
    ∧ Unmarked t1 (t1.active u1 h0) [(.v 62, 2), (.k 0, 2)] ∧ fop fp32 false 0 ≠ .nan ∧ fop fp32 false 0x7F800001 = .nan :=
  ⟨frag1, by unfold Unmarked; decide, by unfold Unmarked; decide, by decide, by decide⟩

theorem witness_VectorMoves : s1.frag = some (t1, u1) ∧ Unmarked t1 (t1.active u1 h0) [(.v 63, 1)]
    ∧ Unmarked t1 (t1.active u1 h0) [(.v 62, 2)] := ⟨frag1, by unfold Unmarked; decide, by unfold Unmarked; decide⟩

theorem witness_FloatArithmetic : s1.frag = some (t1, u1) ∧ Unmarked t1 (t1.active u1 h0) [(.v 63, 1), (.k 4, 1), (.s 0, 1)] :=
  ⟨frag1, by unfold Unmarked; decide⟩

/-- One unit is twice the exact value's own, and a value that is a tie. -/
theorem witness_RoundingModes : (-1 : Int) < 0 ∧ 2 * 3 % (2 * 2 ^ ((0 : Int) - -1).toNat) = 2 ^ ((0 : Int) - -1).toNat := by decide

/-- Two NaNs, one, none. -/
theorem witness_FloatMinMax : s1.frag = some (t1, u1) ∧ Unmarked t1 (t1.active u1 h0) [(.v 63, 1), (.k 4, 1)]
    ∧ fdec fp32 0xFFFFFFFF = .nan ∧ fdec fp32 0x7F800001 = .nan ∧ fdec fp32 0x7F800000 ≠ .nan ∧ fdec fp32 0x80000000 ≠ .nan :=
  ⟨frag1, by unfold Unmarked; decide, by decide, by decide, by decide, by decide⟩

/-- A NaN, an infinity and a finite value for frnd; the ends of the range of fscl's count. -/
theorem witness_RoundScaleClass : s1.frag = some (t1, u1) ∧ Unmarked t1 (t1.active u1 h0) [(.v 63, 1), (.k 4, 1)]
    ∧ fdec fp32 0x7FC00000 = .nan ∧ (∃ n, fdec fp32 0xFF800000 = .inf n) ∧ (∃ n m e, fop fp32 false 0x3F800000 = .fin n m e)
    ∧ -600 ≤ (BitVec.ofInt 32 (-600)).toInt ∧ (600#32).toInt ≤ 600 :=
  ⟨frag1, by unfold Unmarked; decide, by decide, ⟨_, rfl⟩, ⟨_, _, _, rfl⟩, by decide, by decide⟩

/-- frcp at 2^-126 and 2^126, frsq and fsqrt just below −0, fex2 at 128. -/
theorem witness_SpecialFunctions : s1.frag = some (t1, u1) ∧ Unmarked t1 (t1.active u1 h0) [(.v 63, 1)]
    ∧ r0.m.rnd = 0#2 ∧ r0.m.ftz = false ∧ fdec fp32 0xFFC00000 = .nan ∧ (0x00800000#32).toNat = 1 * 2 ^ 23 ∧ (0x7E800000#32).toNat = 253 * 2 ^ 23
    ∧ (0x80000000 < (0x80000001#32).toNat ∧ (0x80000001#32).toNat ≤ 0xFF800000)
    ∧ (0x43000000 ≤ (0x43000000#32).toNat ∧ (0x43000000#32).toNat ≤ 0x7F800000) :=
  ⟨frag1, by unfold Unmarked; decide, rfl, rfl, by decide, by decide, by decide, by decide, by decide⟩

theorem witness_Conversions : s1.frag = some (t1, u1) ∧ Unmarked t1 (t1.active u1 h0) [(.v 63, 1)]
    ∧ (({ m0 with fmt := 8 } : Mod).sub = 0#4 ∧ ({ m0 with fmt := 2, sub := 8 } : Mod).sub = 8#4)
    ∧ Unmarked t1 (t1.active u1 h0) [(.v 62, 2)] ∧ Unmarked t1 (t1.active u1 h0) [(.v 63, 2), (.s 0, 1), (.v 1, 1)] :=
  ⟨frag1, by unfold Unmarked; decide, ⟨rfl, rfl⟩, by unfold Unmarked; decide, by unfold Unmarked; decide⟩

/-- A list at the end of the slat's share: with room for one record, and full. -/
theorem witness_Conversions_lists :
    let s := fun (bs : List (Nat × Byte)) => { s1 with cores := [(0, { Core.reset with spad := bs })] }
    let word := fun (bs : List (Nat × Byte)) (i k : Nat) => leNat (Memory.readN ((s bs).core 0).spad (262128 + i) k)
    let room := [(262136, 1)]
    let full := [(262136, 1), (262139, 0x40), (262140, 1)]
    [room, full].all (fun bs => Memory.wf ((s bs).core 0).spad && (match (s bs).desc t1 262128 with
      | .ok c a => c == 0 && a == 262128
      | .bad _ _ => false)) = true
    ∧ word room 12 4 < word room 8 3 ∧ word full 8 3 ≤ word full 12 4 ∧ word full 11 1 / 64 % 2 = 1 ∧ (⟨262128, some 63, 0, 31, 0, 0⟩ : OutRec).lane < 32 := by
  decide +kernel

theorem witness_ShufflesVotes : s1.frag = some (t1, u1) ∧ (∀ l, l ∈ t1.active u1 h0 → t1.marked (.v 1) 1 l = false ∧ ∀ k, t1.marked (.v 63) 1 k = false)
    ∧ 0 < t1.width := ⟨frag1, fun l _ => ⟨by rfl, fun k => rfl⟩, by decide⟩

theorem witness_Matches : s1.frag = some (t1, u1) ∧ Unmarked t1 (t1.active u1 h0) [(.v 63, 1)] ∧ 0 < t1.width :=
  ⟨frag1, by unfold Unmarked; decide, by decide⟩

theorem witness_Intersections : s1.frag = some (t1, u1) ∧ Unmarked t1 (t1.active u1 h0) [(.v 63, 1), (.s 0, 1)] ∧ 0 < t1.width :=
  ⟨frag1, by unfold Unmarked; decide, by decide⟩

theorem witness_ScansReductions : s1.frag = some (t1, u1) ∧ Unmarked t1 (t1.active u1 h0) [(.v 63, 1)] ∧ t1.width ∈ [2, 4, 8, 16, 32] :=
  ⟨frag1, by unfold Unmarked; decide, by decide⟩


/-- A slat whose operand log is full, and one whose counter 0 stands at 63. -/
def fullLog : Slat := { t1 with log := (List.range 8).map (fun k => ⟨k, 0#64, 1#32, 0, k, 0, 0, false⟩) }
def fullCtr : Slat := { t1 with d := [(0, 63)] }

/-- Counter 0 at 62, no place in the log used; an offset of 0 and one of the last byte of a translation register's limit. -/
theorem witness_MemoryEntries :
    let r : TRes := ⟨4096, 64, ⟨true, true, false, false⟩, 65536, 65536⟩
    let t := { t1 with d := [(0, 62)], b := [(2, ⟨65536#64, some r⟩)] }
    let o := { o0 with bn := 2, off := .v 63, ctr := 0, width := 0, imm := 63 }
    let ofs := fun (l : Nat) => t.ofs o.off l + o.imm.signExtend 64 * BitVec.ofNat 64 (2 ^ o.width.toNat)
    (with1 t u1).frag = some ({ t with issue := some u1 }, u1) ∧ t.logFull = false ∧ t.ctrFull (ctrOf o.ctr) = false ∧ t.active u1 o.h ≠ []
    ∧ (∀ l, l ∈ t.active u1 o.h → t.addrMarked o .glob l = false) ∧ (∀ l, l ∈ t.active u1 o.h → t.addrMarked o .own l = false)
    ∧ (∀ l, l ∈ t.active u1 o.h → t.addrMarked o .peer l = false) ∧ ([0] : List Nat) ≠ [] ∧ t.qHolds o.h = true
    ∧ (t.bget o.bn.toNat).res = some r ∧ 0 ≤ (ofs 0).toInt ∧ (ofs 0).toInt < r.limit :=
  ⟨rfl, rfl, rfl, by decide, by decide, by decide, by decide, by decide, rfl, rfl, by decide, by decide⟩

theorem witness_HeldAtIssue :
    (with1 fullLog u1).frag = some ({ fullLog with issue := some u1 }, u1) ∧ fullLog.active u1 h0 ≠ [] ∧ fullLog.logFull = true
    ∧ (with1 fullCtr u1).frag = some ({ fullCtr with issue := some u1 }, u1) ∧ fullCtr.active u1 h0 ≠ [] ∧ fullCtr.ctrFull (ctrOf 0) = true
    ∧ fullLog.active u1 hOff = [] := ⟨rfl, by decide, rfl, rfl, by decide, rfl, by decide⟩

/-- Each of the four orders. -/
theorem witness_AtomicEntries : s1.frag = some (t1, u1) ∧ t1.logFull = false ∧ t1.ctrFull (ctrOf 5) = false ∧ t1.active u1 h0 ≠ []
    ∧ (∀ l, l ∈ t1.active u1 h0 → t1.addrMarked { o0 with off := .v 1 } .glob l = false)
    ∧ (∀ l, l ∈ t1.active u1 h0 → t1.addrMarked { o0 with off := .v 1 } .own l = false)
    ∧ (0x300#11).toNat / 64 % 4 = 0 ∧ (0x340#11).toNat / 64 % 4 = 1 ∧ (0x380#11).toNat / 64 % 4 = 2 ∧ (0x3C0#11).toNat / 64 % 4 = 3 :=
  ⟨rfl, rfl, rfl, by decide, by decide, by decide, by decide, by decide, by decide, by decide⟩

/-- Lines, a line's drain, a region's and every line's. -/
theorem witness_AccumulateEntries : s1.frag = some (t1, u1) ∧ t1.logFull = false ∧ t1.ctrFull (ctrOf 7) = false ∧ t1.active u1 h0 ≠ []
    ∧ (∀ l, l ∈ t1.active u1 h0 → t1.marked (.v 1) 1 l = false) ∧ (∀ l, l ∈ t1.active u1 h0 → t1.marked (.k 4) 1 l = false)
    ∧ t1.qHolds h0 = true ∧ t1.marked (.s 1) 1 0 = false ∧ (0#11).toNat / 512 % 4 = 0 ∧ (0x200#11).toNat / 512 % 4 ≠ 0
    ∧ (t1.srcS (.s 2)).2 = false ∧ (t1.srcS (.k 5)).2 = false :=
  ⟨rfl, rfl, rfl, by decide, by decide, by decide, rfl, rfl, by decide, by decide, rfl, rfl⟩

/-- A clamp in memory, in the own share and in a peer's. -/
theorem witness_ClampEntries :
    let at_ := fun (n : BitVec 11) => { o0 with off := .s 1, data := .s 2, width := 4, imm := n }
    s1.frag = some (t1, u1) ∧ t1.logFull = false ∧ t1.ctrFull (ctrOf 0) = false ∧ t1.qHolds h0 = true
    ∧ t1.addrMarked (at_ 0) (clampSpace (at_ 0)) 0 = false ∧ t1.addrMarked (at_ 512) (clampSpace (at_ 512)) 0 = false
    ∧ t1.addrMarked (at_ 1024) (clampSpace (at_ 1024)) 0 = false ∧ t1.marked (.s 2) 1 0 = false := ⟨rfl, rfl, rfl, rfl, rfl, rfl, rfl, rfl⟩

/-- A release, an acquire that promotes, and both. -/
theorem witness_FenceMarkers :
    let f := fun (m : Mod) => { r0 with m := m }
    s1.frag = some (t1, u1) ∧ t1.qHolds h0 = true
    ∧ (((f ⟨6, 2, false, 2, 8⟩).m.bits.toNat.testBit 8 = true ∧ (f ⟨6, 2, false, 2, 8⟩).m.bits.toNat.testBit 9 = false)
      ∧ (f ⟨6, 2, false, 2, 8⟩).m.bits.getLsbD 2 = false)
    ∧ (((f ⟨7, 0, false, 2, 12⟩).m.bits.toNat.testBit 8 = false ∧ (f ⟨7, 0, false, 2, 12⟩).m.bits.toNat.testBit 9 = true)
      ∧ (f ⟨7, 0, false, 2, 12⟩).m.bits.getLsbD 2 = true ∧ (t1.srcS (.s 4)).2 = false)
    ∧ ((f ⟨7, 2, false, 2, 8⟩).m.bits.toNat.testBit 8 = true ∧ (f ⟨7, 2, false, 2, 8⟩).m.bits.toNat.testBit 9 = true) := by
  refine ⟨rfl, rfl, by decide, by decide, by decide⟩

/-- A length, and a length of 0. -/
theorem witness_CopyEntries :
    let t := { t1 with s := [(3, 1#64)] }
    (with1 t u1).frag = some ({ t with issue := some u1 }, u1) ∧ t.qHolds h0 = true ∧ t.ctrFull (ctrOf 0) = false
    ∧ (∀ r : BitVec 6, r ∈ [1, 2, 3, 60] → (t.srcS (.s r)).2 = false) ∧ t.sget 3 ≠ 0 ∧ t.sget 4 = 0 :=
  ⟨rfl, rfl, rfl, by decide, by decide, by decide⟩

/-- Fifteen jobs in the queue, and sixteen. -/
theorem witness_MatrixIssue :
    let j : EngJob := ⟨9, 3, 2, 8, 0, 0, 1, 0, .azero t0, [], [], 0, false, none, [], none⟩
    let s := fun (n : Nat) => { s1 with cores := [(0, { Core.reset with eng := List.replicate n j })] }
    (s 15).frag = some (t1, u1) ∧ t1.qHolds h0 = true ∧ ¬ (16 ≤ ((s 15).core t1.core).eng.length ∨ t1.ctrFull (ctrOf 7) = true)
    ∧ (16 ≤ ((s 16).core t1.core).eng.length ∨ t1.ctrFull (ctrOf 7) = true) ∧ t1.marks8 56 = false ∧ t1.marks8 0 = false
    ∧ t1.marked (.s 5) 1 0 = false := ⟨rfl, rfl, by decide, by decide, by decide +kernel, by decide +kernel, rfl⟩

theorem witness_FabricEntries :
    let t := { t1 with s := [(3, 1#64)] }
    (with1 t u1).frag = some ({ t with issue := some u1 }, u1) ∧ t.qHolds h0 = true ∧ t.ctrFull (ctrOf 0) = false
    ∧ (∀ r : BitVec 6, r ∈ [1, 2, 3, 60] → (t.srcS (.s r)).2 = false) ∧ t.sget 3 ≠ 0 ∧ t.sget 4 = 0 :=
  ⟨rfl, rfl, rfl, by decide, by decide, by decide⟩

/-- A work queue that device code feeds, and the state that has it. -/
def workQ : Queue := { Queue.reset with cap := 4, lsize := 4, kind := 1, dev := true, st := 1 }
def sq : State := { s1 with hub := { s1.hub with queues := [(1023, workQ)] } }

/-- A parent grid of depth 9; the last queue; no context, and one of the slat's function. -/
theorem witness_SystemJobs :
    let s := { sq with hub := { sq.hub with grids := [{ soloGrid 1 with depth := 9 }]
                                            contexts := [⟨5, 0, 0, false, 0, 0, [], 0, false, [], [], none⟩] } }
    let t := { t1 with s := [(2, 1023#64)] }
    let s := { s with slats := [{ t with issue := some u1 }] }
    s.frag = some ({ t with issue := some u1 }, u1) ∧ t.qHolds h0 = true ∧ t.ctrFull (ctrOf 1) = false ∧ t.level = 1
    ∧ (∀ r, r ∈ 2 :: (List.range 8).map (fun k => 56 + k) → (t.srcS (.s (BitVec.ofNat 6 r))).2 = false)
    ∧ t.idx = 0 ∧ (t.ent u1.ent).mask.getLsbD 0 = true ∧ (s.grid? t.grid).elim 0 Grid.depth < 10
    ∧ ((t.sget 2).toNat < 1024 ∧ (s.queue (t.sget 2).toNat).ctx = t.ctx ∧ (s.queue (t.sget 2).toNat).fn = t.fn
      ∧ (s.queue (t.sget 2).toNat).kind = 1 ∧ (s.queue (t.sget 2).toNat).dev = true)
    ∧ ((0xFFFF#17).getLsbD 16 = false ∧ s.context? ((0xFFFF#17).toNat % 65536) = none)
    ∧ ((5#17).getLsbD 16 = false ∧ ∃ c, s.context? ((5#17).toNat % 65536) = some c ∧ c.fn = t.fn) :=
  ⟨rfl, rfl, rfl, rfl, by decide, rfl, rfl, by decide, by decide, ⟨by decide, rfl⟩, by decide, _, rfl, rfl⟩

/-- A queue past the last; the last, empty; a live child, none, one retired and one that never was. -/
theorem witness_SystemWaits :
    let t := { t1 with s := [(2, 1023#64), (3, 1024#64), (4, 9#64), (5, 8#64), (6, 7#64)] }
    let s := { sq with hub := { sq.hub with grids := [{ soloGrid 9 with parent := some (1, 2) }], retired := [(8, 2)] }
                       slats := [{ t with issue := some u1 }] }
    let s' := { s with hub := { s.hub with grids := [] } }
    let live := fun (s : State) (a : Nat) => ∃ g, g ∈ s.hub.grids ∧ g.parent.map Prod.snd = some t.team ∧ (a = 0 ∨ g.id = a)
    let mine := fun (a : Nat) => a < 1024 ∧ (s.queue a).ctx = t.ctx
    let other := fun (q : Queue) => ({ s with hub := { s.hub with queues := [(1023, q)] } } : State).queue 1023
    s.frag = some ({ t with issue := some u1 }, u1) ∧ t.qHolds h0 = true
    ∧ ((t.srcS (.s 3)).2 = false ∧ ¬ mine (t.sget 3).toNat ∧ ¬ ((t.sget 3).toNat < 1024 ∧ (s.queue (t.sget 3).toNat).kind = 2 ∧ t.level = 0))
    ∧ ((t.srcS (.s 2)).2 = false ∧ mine (t.sget 2).toNat ∧ (s.queue (t.sget 2).toNat).kind = 1 ∧ (s.queue (t.sget 2).toNat).st = 1
      ∧ (s.queue (t.sget 2).toNat).rp = (s.queue (t.sget 2).toNat).wp ∧ (s.queue (t.sget 2).toNat).waiters = []
      ∧ (other { workQ with kind := 2, st := 2, waiters := [9] }).kind = 2 ∧ t.level ≠ 0 ∧ (other { workQ with kind := 2, st := 2, waiters := [9] }).st ≠ 1
      ∧ (other { workQ with wp := 1 }).waiters = [] ∧ s.upsOn t.core = true)
    ∧ ((other { workQ with kind := 0 }).kind ≠ 1 ∧ (other { workQ with kind := 0 }).kind ≠ 2)
    ∧ ((other { workQ with kind := 2 }).kind = 2 ∧ ({ t with level := 0 } : Slat).level = 0)
    ∧ live s (t.sget 4).toNat
    ∧ (¬ live s' (t.sget 0).toNat ∧ (t.sget 0).toNat = 0) ∧ (¬ live s (t.sget 5).toNat ∧ ((t.sget 5).toNat, t.team) ∈ s.hub.retired)
    ∧ (¬ live s (t.sget 6).toNat ∧ (t.sget 6).toNat ≠ 0 ∧ ((t.sget 6).toNat, t.team) ∉ s.hub.retired) := by
  refine ⟨rfl, rfl, by decide, by decide, by decide, by decide, ⟨_, List.mem_singleton.2 rfl, rfl, .inr rfl⟩, ⟨?_, rfl⟩, ⟨?_, by decide⟩, ?_, by decide, by decide⟩
  · rintro ⟨g, h, -⟩; exact absurd h (by simp)
  · rintro ⟨g, h, -, h2⟩; rw [List.mem_singleton.1 h] at h2; exact absurd h2 (by decide)
  · rintro ⟨g, h, -, h2⟩; rw [List.mem_singleton.1 h] at h2; exact absurd h2 (by decide)

/-- Outside a handler, and in one. -/
theorem witness_TrapsReturns :
    s1.frag = some (t1, u1) ∧ t1.qHolds h0 = true ∧ t1.pend = [] ∧ t1.inh = false
    ∧ (with1 { t1 with inh := true, hand := some 0 } u1).frag = some ({ t1 with inh := true, hand := some 0, issue := some u1 }, u1) :=
  ⟨rfl, rfl, rfl, rfl, rfl⟩

/-- A handler set and none; POISON; a cause that arose in a handler. -/
theorem witness_TakingATrap :
    let c : Cause := ⟨0xE, 0, 0, 0, 0, 0#32, some 5#64, some 0#64, 0, false, 0⟩
    let t := { t1 with tvec := 1 }
    (with1 t u1).slat? t.uid = some { t with issue := some u1 } ∧ t.tvec ≠ 0 ∧ c.nested = false ∧ c.code ≠ 0xA ∧ t1.tvec = 0
    ∧ ({ c with nested := true } : Cause).nested = true ∧ ({ c with code := 0xA } : Cause).code = 0xA ∧ t.ended = false :=
  ⟨rfl, by decide, rfl, by decide, rfl, rfl, rfl, rfl⟩


/-! ### Events: a context whose tables map addresses 0 to 2^29 onto the drawer from 0x1000000000, a clause of one nop at 0x10000, a launch
record at 0x20000 -/

def lineT (pa : Nat) (bs : List (Nat × Byte)) : L2Line := ⟨pa / 128, ⟨bs, 0#32⟩, true, 0, 0, 0⟩

/-- The text, the record and the two table entries, in L2. -/
def l2T : List L2Line :=
  [lineT 0x1000010000 [(5, 0x1C), (7, 0xFC), (13, 0xC0), (14, 0xDD), (15, 0x21)],
   lineT 0x1000020000 [(7, 0x10), (10, 1), (16, 1), (17, 8), (24, 1), (26, 0x10), (29, 1)],
   lineT 0x1000100000 [(2, 0x20), (4, 0x10), (7, 0x40)], lineT 0x1000200000 [(4, 0x10), (6, 0xC0), (7, 0x91)]]

def ctxT : Context := ⟨0, 0, 0, false, 0x1000100000, 0, [], 0, false, [(0x1000010000, 65536)], [], none⟩

/-- The slat between clauses, at the head of that text. -/
def tb : Slat := { t1 with text := 0x10000, split := startSplit 0, issue := none }

/-- Nothing issuing. -/
def sT : State :=
  { s1 with home := { s1.home with l2 := l2T }, focus := none, snap := none, slats := [tb], hub := { s1.hub with contexts := [ctxT] } }

/-- The answer of a fetch is a word, and what follows holds of it. -/
def gives {α : Type} (x : Except State (α × State)) (p : α → State → Bool) : Bool := match x with
  | .ok (a, s) => p a s
  | .error _ => false

theorem gives_spec {α : Type} {x : Except State (α × State)} {p : α → State → Bool} (h : gives x p = true) :
    ∃ a s, x = .ok (a, s) ∧ p a s = true := by
  cases x with
  | ok y => exact ⟨y.1, y.2, rfl, h⟩
  | error e => exact absurd h (by simp [gives])

theorem quadSlats_one {s : State} {core quad : Nat} {t : Slat}
    (h : s.slats.filter (fun t => t.core == core && quadOf t.slot == quad && !t.ended) = [t]) : s.quadSlats core quad = [t] := by
  simp [State.quadSlats, h]

/-- sT as CLAUSE_ISSUE takes it up, its fetches done, and the candidate. -/
def sM : State := sT.mapSlats (fun t => if t.core == 0 && quadOf t.slot == 0 && sT.boundary t then t.arriveAll else t)
def sA : State := ((sM.clauseWant tb (tb.ent 0).pc).foldl (fun (s : State) pc => s.codeAhead tb pc) sM).restamp
def cA : Cand := ⟨3, 0, 0⟩
def tA : Slat := { tb with split := [(0, { tb.ent 0 with stamp := some 0 })] }

theorem fetchM : (sM.fetchAll 0 0).restamp = sA := by
  have one : sM.quadSlats 0 0 = [tb] := quadSlats_one (by decide +kernel)
  have on : sM.mayFetch tb 0 = true := by decide +kernel
  have off : ∀ (s : State) (e : Nat), ((tb.ent e).st == .running) = false → s.mayFetch tb e = false := fun s e h => by simp [State.mayFetch, h]
  rw [State.fetchAll, one, List.foldl_cons, List.foldl_nil, show List.range 8 = [0, 1, 2, 3, 4, 5, 6, 7] from rfl]
  simp only [List.foldl_cons, List.foldl_nil, on, if_true, off _ 1 rfl, off _ 2 rfl, off _ 3 rfl, off _ 4 rfl, off _ 5 rfl, off _ 6 rfl, off _ 7 rfl,
    Bool.false_eq_true, if_false, sA]

theorem quadA : sA.quadSlats 0 0 = [tA] := quadSlats_one (by decide +kernel)

theorem candsA : sA.candidates 0 0 = [cA] := by
  unfold State.candidates
  rw [quadA]
  decide +kernel

theorem witness_LauncherEvents_issue :
    let sb := sA.counted (sA.candidates 0 0) cA
    sT.focus = none ∧ (sM.fetchAll 0 0).restamp = sA
    ∧ (∀ x, x ∈ sA.quadSlats 0 0 → x.issue = none ∧ x.pend.filter x.mayTake = []) ∧ sA.choose (sA.candidates 0 0) = some cA
    ∧ sb.slat? cA.uid = some tb ∧ (tb.ent 0).rcv ≠ some (tb.ent 0).pc ∧ ∃ w s3, sb.fetch tb 0 0 (tb.ent 0).pc = .ok (w, s3)
      ∧ (match decodeHeader w with
         | .ok h => h == ⟨0, 0, 0, 7, 0, false⟩ && gives (s3.fetchWords tb 0 (tb.ent 0).pc h.words 1) (fun ws _ =>
             match decodeClause h ws with
             | .ok is => is == [.nop z0] && clsOf h.cls == some .alu
             | .error _ => false)
         | .error _ => false) = true := by
  simp only [candsA, quadA]
  refine ⟨rfl, fetchM, by decide +kernel, by decide +kernel, by decide +kernel, by decide +kernel, gives_spec (by decide +kernel)⟩

/-- Two fragments that each wait for the other, their fetches done; the first stands at its reconvergence address. -/
def tR : Slat :=
  { tb with split := [(0, { tb.ent 0 with mask := 0xFFFF#32, rcv := some 0#64, yld := some [(3, 1)], stamp := some 0 }),
                      (1, { tb.ent 0 with mask := 0xFFFF0000#32, yld := some [(3, 0)], stamp := some 0 })] }
def sR : State := { sA with slats := [tR] }

theorem fetchAll_done {s : State} {t : Slat} (one : s.quadSlats 0 0 = [t])
    (h : (List.range 8).all (fun e => !(s.mayFetch t e) || (s.clauseWant t (t.ent e).pc).isEmpty) = true) : s.fetchAll 0 0 = s := by
  have go : ∀ es : List Nat, es.all (fun e => !(s.mayFetch t e) || (s.clauseWant t (t.ent e).pc).isEmpty) = true →
      es.foldl (fun (s : State) e => if s.mayFetch t e then (s.clauseWant t (t.ent e).pc).foldl (fun (s : State) pc => s.codeAhead t pc) s else s) s = s := by
    intro es
    induction es with
    | nil => exact fun _ => rfl
    | cons e es ih =>
      intro h
      rw [List.all_cons, Bool.and_eq_true] at h
      rw [List.foldl_cons]
      by_cases m : s.mayFetch t e = true
      · have n : s.clauseWant t (t.ent e).pc = [] := List.isEmpty_iff.1 (by simpa [m] using h.1)
        rw [n, List.foldl_nil, ite_self]
        exact ih h.2
      · rw [if_neg m]
        exact ih h.2
  rw [State.fetchAll, one, List.foldl_cons, List.foldl_nil]
  exact go _ h

theorem witness_LauncherEvents_arrive :
    let s1 := ((sR.mapSlats (fun t => if t.core == 0 && quadOf t.slot == 0 && sR.boundary t then t.arriveAll else t)).fetchAll 0 0).restamp
    sR.focus = none ∧ (∀ x, x ∈ s1.quadSlats 0 0 → x.issue = none ∧ x.pend.filter x.mayTake = [])
    ∧ s1.choose (s1.candidates 0 0) = some cA
    ∧ (((s1.counted (s1.candidates 0 0) cA).slat? cA.uid).elim false (fun t => (t.ent 0).rcv == some (t.ent 0).pc)) = true := by
  have m : sR.mapSlats (fun t => if t.core == 0 && quadOf t.slot == 0 && sR.boundary t then t.arriveAll else t) = sR := by
    have e : (if tR.core == 0 && quadOf tR.slot == 0 && sR.boundary tR then tR.arriveAll else tR) = tR := by decide +kernel
    rw [show sR = { sR with slats := [tR] } from rfl]
    simp only [State.mapSlats, List.map_cons, List.map_nil]
    rw [show (({ sR with slats := [tR] } : State).boundary tR) = sR.boundary tR from rfl, e]
  have q : sR.quadSlats 0 0 = [tR] := quadSlats_one (by decide +kernel)
  have q1 : sR.restamp.quadSlats 0 0 = [tR] := quadSlats_one (by decide +kernel)
  have c : sR.restamp.candidates 0 0 = [cA, ⟨3, 0, 1⟩] := by
    unfold State.candidates
    rw [q1]
    decide +kernel
  simp only [m, fetchAll_done q (by decide +kernel), q1, c]
  refine ⟨rfl, by decide +kernel, by decide +kernel, by decide +kernel⟩

/-- A core placed that may begin at this very cycle. -/
theorem witness_LauncherEvents_start :
    let s := { s1 with cores := [(639, { Core.reset with started := false })] }
    (s.core 639).started = false ∧ (s.core 639).startAt ≤ s.now := by decide +kernel

/-- A launch queue whose one slot is published, and a second of less priority; a slot that no page holds. -/
def lq (prio : Nat) (base : W64) : Queue := { Queue.reset with base := base, cap := 7, prio := prio, lsize := 4, st := 1, wp := 1 }
def recT : LaunchRec := ⟨false, false, 0, false, [], 0x10000#64, 0, 0, 1, 1, 1, 1, 1, 0#64, []⟩

theorem witness_LauncherEvents_take :
    let s := { sT with hub := { sT.hub with queues := [(5, lq 7 0x20000#64), (7, lq 6 0x20000#64)] } }
    let b := { sT with hub := { sT.hub with queues := [(5, lq 7 0x400000000000#64)] }, home := { sT.home with l2 := sT.home.l2 ++ [lineT 0x1000100080 []] } }
    s.hub.queues.all (fun x => s.headReady x.2) = true ∧ b.hub.queues.all (fun x => b.headReady x.2) = true
    ∧ (5, lq 7 0x20000#64) ∈ s.hub.queues ∧ s.queue 5 = lq 7 0x20000#64 ∧ s.headOf (lq 7 0x20000#64) = .ready recT 1
    ∧ (∀ x, x ∈ s.hub.queues → x ≠ (5, lq 7 0x20000#64) → s.headOf x.2 ≠ .wait →
        x.2.eff < (lq 7 0x20000#64).eff ∨ (x.2.eff = (lq 7 0x20000#64).eff ∧ s.turnOf 5 (lq 7 0x20000#64).eff < s.turnOf x.1 (lq 7 0x20000#64).eff))
    ∧ (5, lq 7 0x400000000000#64) ∈ b.hub.queues ∧ b.queue 5 = lq 7 0x400000000000#64 ∧ b.headOf (lq 7 0x400000000000#64) = .bad 8 := by
  decide +kernel

/-- A grid of one team, not placed yet, on a device with no team; and one with nothing left to do. -/
def gridT : Grid := { soloGrid 1 with queue := some 5, nextTeam := 0, launch := { recT with sup := true } }

/-- A child grid that depends on a clamp at 0x20040. -/
def gridC : Grid := { gridT with queue := none, parent := some (9, 9), launch := { recT with deps := [(0, 0x20040#64, 1)] } }

theorem witness_LauncherEvents_place :
    let s := { sT with teams := [], slats := [], hub := { sT.hub with grids := [gridT] } }
    let k := { sT with teams := [], slats := [], hub := { sT.hub with grids := [gridC] } }
    (s.grid? 1 = some gridT ∧ s.placeable gridT = true ∧ s.mayPlace gridT = true ∧ [639].length = gridT.unit.length ∧ s.coresFor gridT = some 1
      ∧ gangOk gridT.launch.gang ((gridT.unit.zip [639]).map (fun x => (⟨x.1, x.2, 1⟩ : TeamSeat))) = true
      ∧ (s.placeAll gridT (gridT.unit.zip [639])).elim false (fun x => x.2 == [⟨0, 639, 1⟩]) = true ∧ gridT.queue ≠ none)
    ∧ (k.grid? 1 = some gridC ∧ k.placeable gridC = true ∧ k.mayPlace gridC = true
      ∧ (k.placeAll gridC (gridC.unit.zip [639])).elim false (fun x => gangOk gridC.launch.gang x.2) = true
      ∧ k.recReady gridC.ctx gridC.part gridC.level gridC.launch = true) := by decide +kernel

theorem witness_LauncherEvents_retire :
    let g := { gridT with nextTeam := 1 }
    let d := { g with launch := { recT with done := 0x30000#64 }, queue := none, token := some 4 }
    let s := fun (g : Grid) => { sT with teams := [], slats := [], hub := { sT.hub with grids := [g] }, home := { sT.home with l2 := sT.home.l2 ++ [lineT 0x1000030000 []] } }
    ((s g).grid? 1 = some g ∧ g.queue ≠ none ∧ (s g).gridOver g = true ∧ (s g).gridRecs 1 = [] ∧ g.launch.done = 0)
    ∧ (let w := (s d).hubWalks d.ctx d.part d.launch.done 16
       (s d).hubOk true w = true ∧ (s d).hubOk false [lineOf 0x1000030000] = true)
    ∧ ((s d).grid? 1 = some d ∧ d.nextTeam ≠ 0 ∧ (s d).gridOver d = true ∧ (s d).gridRecs 1 = [] ∧ d.dead = false ∧ d.launch.done ≠ 0
      ∧ d.token = some 4 ∧ (s d).hubCheck 0 0 1 ⟨false, true, false, some 8⟩ 0x30000#64 = .ok 0x1000030000 ⟨true, true, false, false⟩)
    ∧ (let k := { gridC with nextTeam := 0 }
       let l2 := sT.home.l2 ++ [lineT 0x1000020080 [(3, 0x40)]]
       let f := { k with launch := { k.launch with deps := [(0, 0x20080#64, 1)] } }
       let x := { s f with home := { sT.home with l2 := l2 } }
       (s k).depErr k.ctx k.part k.level k.launch = false ∧ x.grid? 1 = some f ∧ f.queue = none ∧ f.nextTeam = 0
       ∧ x.recReady f.ctx f.part f.level f.launch = true ∧ x.depErr f.ctx f.part f.level f.launch = true) := by decide +kernel

/-- QCTL values: a valid size for the physical function, a size that is none, and a function that is not enabled; the last queue. -/
theorem witness_QueueRegisters :
    let ok : W64 := 0x0000000400000000
    let bad : W64 := 0x0000001100000000
    let off : W64 := 0x0000F80400000000
    let at_ := fun (n : Nat) => { s1 with hub := { s1.hub with queues := [(1023, { Queue.reset with lsize := 4, st := n })] } }
    let lap : W64 := 17
    s1.boot.ready = true ∧ (s1.fn 0).busy = false ∧ (1023 < 1024 ∧ (0 = 0 ∨ (s1.queue 1023).fn = 0))
    ∧ (let x := (s1.queue 1023).setCtl true ok; x.st = 0 ∧ (s1.fn x.fn).en = true ∧ x.valid = true)
    ∧ (let x := (s1.queue 1023).setCtl true bad; x.st = 0 ∧ (s1.fn x.fn).en = true ∧ x.valid = false)
    ∧ (let x := (s1.queue 1023).setCtl true off; x.st = 0 ∧ (s1.fn x.fn).en = false)
    ∧ (((at_ 2).queue 1023).setCtl true ok).st = 2 ∧ (((at_ 4).queue 1023).setCtl true ok).st = 4
    ∧ (((at_ 1).queue 1023).setCtl true ok).st = 1 ∧ (((at_ 3).queue 1023).setCtl true ok).st = 3
    ∧ [1, 2, 4].all (fun n => ((at_ n).queue 1023).st == n && decide (2 ^ ((at_ n).queue 1023).lsize < natField lap.toNat 31 0)) = true
    ∧ (let y := (at_ 1).queue 1023; ¬ (y.dev = true ∧ y.kind = 1) ∧ 2 ^ y.lsize < (natField lap.toNat 31 0 + 2 ^ 32 - y.rp) % 2 ^ 32 ∧ y.st = 1
      ∧ ¬ (2 ^ y.lsize < (natField (16#64).toNat 31 0 + 2 ^ 32 - y.rp) % 2 ^ 32)) := by decide +kernel

/-- A queue of the slat's own context with one item, the dwords 1 and 2 at its ends: as deq's statement asks, for a work queue and, at level 1,
for a fault service queue. -/
theorem witness_SystemWaits_item :
    let q : Queue := { Queue.reset with base := 0x30000#64, lsize := 4, kind := 1, st := 1, rp := 15, wp := 16 }
    let t := { t1 with s := [(2, 1023#64)] }
    let s := fun (q : Queue) => { sT with trust := { sT.trust with ups := 0 }, focus := s1.focus, snap := s1.snap, slats := [{ t with issue := some u1 }], hub := { sT.hub with queues := [(1023, q)] }, home := { sT.home with
      l2 := sT.home.l2 ++ [lineT 0x1000030380 [(64, 1), (120, 2)]] } }
    let after := match exec (.deq { y0 with sD := 16, sA := 2 }) (s q) with
      | .next s => (s.slat? 3).map (fun t => (t.sget 15, t.sget 16, t.sget 23, t.sget 24, t.park, t.queue.length))
      | .fault _ => none
      | .refused _ => none
    [q, { q with kind := 2 }].all (fun q => let x := (s q).queue 1023
      (s q).frag == some ({ t with issue := some u1 }, u1) && t.qHolds h0 && !(t.srcS (.s 2)).2 && t.sget 2 == 1023#64 && x.ctx == t.ctx && !((s q).upsOn t.core)
        && x.st == 1 && x.rp != x.wp && x.waiters.isEmpty && (s q).hubReady [(s q).slotAt x x.rp false] && (match (s q).readSlot x x.rp with
          | .ok bs => bs.length == 64
          | .error _ => false)) = true
    ∧ ({ t with level := 1 } : Slat).level ≠ 0 ∧ after = some (0#64, 1#64, 2#64, 0#64, .none, 1) := by
  refine ⟨?_, ?_, ?_⟩ <;> decide +kernel

/-- A slat that has waited at that queue for 256 cycles, under upset protection. -/
theorem witness_SystemWaits_served :
    let q : Queue := { Queue.reset with base := 0x30000#64, lsize := 4, kind := 1, st := 1, rp := 15, wp := 16, waiters := [3] }
    let w := { tb with park := .deq, parkArg := 1023, parkDst := 16, parkAt := 1 }
    let s := { sT with now := 256, slats := [w], hub := { sT.hub with queues := [(1023, q)] }, home := { sT.home with
      l2 := sT.home.l2 ++ [lineT 0x1000030380 [(64, 1), (120, 2)]] } }
    s.queue 1023 = { s.queue 1023 with st := 1, waiters := [3] } ∧ (s.queue 1023).rp ≠ (s.queue 1023).wp ∧ s.slat? 3 = some w
    ∧ s.upsOn w.core = true ∧ s.beyond w.core (w.parkAt - 1) = true ∧ s.hubReady [s.slotAt (s.queue 1023) (s.queue 1023).rp false] = true
    ∧ (match s.readSlot (s.queue 1023) (s.queue 1023).rp with
      | .ok bs => bs.length == 64
      | .error _ => false) = true := by decide +kernel

/-- A fault service queue with room. -/
def fq : Queue := { Queue.reset with base := 0x30000#64, lsize := 4, kind := 2, st := 1 }
def held : FaultRec := ⟨9, 0, 0, 0x50000, 65536, 1, 0, some [1, 2, 3, 4, 5, 6, 7, 8], 0#64, 0⟩

theorem witness_FaultService_records :
    let l2 := sT.home.l2 ++ [lineT 0x1000030000 []]
    let s := { sT with hub := { sT.hub with queues := [(6, fq)], faults := [held] }, home := { sT.home with l2 := l2 } }
    let k := { sT with home := { sT.home with l2 := l2 }, hub := { sT.hub with queues := [(6, fq)], kills := [(0, [1, 2, 3, 4, 5, 6, 7, 8])] } }
    (s.hub.faults.find? (fun f => f.fn == 0 && f.held.isSome) = some held ∧ held.held = some [1, 2, 3, 4, 5, 6, 7, 8]
      ∧ (s.tryPost 0 [1, 2, 3, 4, 5, 6, 7, 8]).isSome = true)
    ∧ (k.hub.faults.find? (fun f => f.fn == 0 && f.held.isSome) = none
      ∧ k.hub.kills.find? (fun k => k.1 == 0) = some (0, [1, 2, 3, 4, 5, 6, 7, 8]) ∧ (k.tryPost 0 [1, 2, 3, 4, 5, 6, 7, 8]).isSome = true) := by
  decide +kernel

/-- A slat with an entry logged for the fault, one whose fetch waits on it, and one that does not wait. -/
theorem witness_FaultService_settle :
    let e : QEnt := ⟨20, 19, [.ls], .load 2 false 4 0, [⟨0, .glob 0x50000#64 none, none, .logged⟩], 0#64, 0, 0, 1, 0, false, none, none⟩
    let a := { tb with log := [⟨20, 0#64, 1#32, 0, 9, 1, 0, false⟩], queue := [e] }
    let b := { tb with uid := 4, split := [(0, { tb.ent 0 with fetch := some (9, 1) })] }
    let s := { sT with slats := [a, b, { tb with uid := 5 }], hub := { sT.hub with faults := [{ held with held := none }] } }
    s.boot.ready = true ∧ (s.fn 0).busy = false
    ∧ s.hub.faults.find? (fun f => f.token % 2 ^ 32 == (9 + 2 ^ 32) % 2 ^ 32 && f.fn == 0 && decide (f.kind < 2)) = some { held with held := none }
    ∧ s.slat? a.uid = some a ∧ a.ended = false
    ∧ (∃ l, l ∈ a.log ∧ l.token = 9 ∧ (a.qent? l.seq).isSome = true) ∧ s.slat? b.uid = some b ∧ b.ended = false ∧ (∃ x, x ∈ b.split ∧ x.2.fetch.map Prod.fst = some 9)
    ∧ ({ tb with uid := 5 } : Slat).awaits 9 = false ∧ ∀ j, j ∈ s.hub.jobs → j.tok.map Prod.fst = some 9 → j.uid ≠ 5 := by
  refine ⟨rfl, rfl, by decide +kernel, rfl, rfl, ⟨_, .head _, rfl, rfl⟩, rfl, rfl, ⟨_, .head _, rfl⟩, by decide +kernel, ?_⟩
  exact fun j h => absurd h List.not_mem_nil

/-- Commands: a new number and one that lives, a root, an end; the three MM operations; the first and the last function; tensor slots. -/
theorem witness_FunctionCommands :
    let s := { sT with hub := { sT.hub with fns := [(0, { Fn.reset 0 with tdBase := 0x40000, tdLen := 0x10000 })] } }
    s.boot.ready = true ∧ (s.fn 0).busy = false
    ∧ (let v : W64 := 0x400000100010FFFF
       natField v.toNat 63 62 = 1 ∧ s.context? (natField v.toNat 15 0) = none ∧ paRegion (natField v.toNat 51 16 * 65536) ≠ .none
       ∧ (s.fn (spaceFn 0 (natField v.toNat 60 56))).en = true ∧ s.partProt (s.fn 0).part = v.getLsbD 61)
    ∧ (let v : W64 := 0x4000001000100000; natField v.toNat 63 62 = 1 ∧ s.context? (natField v.toNat 15 0) ≠ none)
    ∧ (let v : W64 := 0x5F00001000100001; natField v.toNat 63 62 = 1 ∧ (s.fn (spaceFn 0 (natField v.toNat 60 56))).en = false)
    ∧ (let v : W64 := 0xC000001000200000
       natField v.toNat 63 62 = 3 ∧ (∃ c, s.context? (natField v.toNat 15 0) = some c ∧ c.fn = 0) ∧ paRegion (natField v.toNat 51 16 * 65536) ≠ .none)
    ∧ natField (0x8000000000000000#64).toNat 63 62 = 2
    ∧ [0x80000000#64, 0xA0000000#64, 0xC001FFFF#64].all (fun v => v.toNat.testBit 31 && natField v.toNat 63 32 == 0 && natField v.toNat 23 17 == 0
        && (v.toNat.testBit 16 || natField v.toNat 15 0 == 0)) = true
    ∧ (s.fn 0).mmBusy = none ∧ (s.fn 31).busy = false ∧ (0x80000000#64).getLsbD 31 = true
    ∧ (let v : W64 := 0x40FF00000007FFFF &&& ~~~0xFFFF#64
       natField v.toNat 63 62 = 1 ∧ (s.fn 0).tdBase.toNat % 65536 = 0 ∧ (s.fn 0).tdLen.toNat % 65536 = 0
       ∧ s.drawerRun 0 0 (s.fn 0).tdBase (s.fn 0).tdLen.toNat = some (0x1000040000 / 128) ∧ ∀ g, g ∈ s.hub.fns → g.2.tensors = [])
    ∧ natField (0x80FF000000000000#64).toNat 63 62 = 2
    ∧ (natField (0x8200000000000000#64).toNat 58 56 = 2 ∧ (0x8200000000000000#64).toNat.testBit 63 = true)
    ∧ ((0x8100000000000000#64).toNat.testBit 63 = true ∧ natField (0x8100000000000000#64).toNat 58 56 < 2) := by
  refine ⟨rfl, rfl, ?_, ?_, ?_, ⟨?_, ⟨ctxT, rfl, rfl⟩, ?_⟩, ?_, ?_, ?_, ?_, ?_, ?_, ?_, ?_, ?_, ?_⟩ <;> decide +kernel

theorem witness_RegisterSpace : s1.boot.ready = true ∧ (s1.fn 31).busy = false ∧ (s1.fn 0).busy = false ∧ (s1.queue 1023).st = 0
    ∧ natField (0x0000000F0000FFFF#64).toNat 17 16 = 0 ∧ (0x7FFFFFFF#64).getLsbD 31 = false := by decide +kernel

/-- A watchdog count that ends at this very cycle: a slat's, a row's, a grid's. -/
theorem witness_TrustAndPower_watchdog :
    let f := { Fn.reset 0 with wdSlat := 1, wdRow := 1, wdLnch := 1 }
    let m := { soloTeam 2 1 with killedAt := some 0 }
    let s := { sT with now := 3000, teams := [m], slats := [{ tb with park := .tbar, parkAt := 1977 }], hub := { sT.hub with fns := [(0, f)] } }
    s.slat? 3 = some { tb with park := .tbar, parkAt := 1977 } ∧ s.waitKind { tb with park := .tbar, parkAt := 1977 } ≠ 0
    ∧ (s.fn 0).wdSlat ≠ 0 ∧ 1977 - 1 + (s.fn 0).wdSlat * 1024 ≤ s.now
    ∧ s.teams.find? (fun m => m.grid == 1 && m.idx == 0) = some m ∧ s.teamOver m = false ∧ 0 + (s.fn 0).wdRow * 1024 ≤ s.now
    ∧ s.grid? 1 = some (soloGrid 1) ∧ (soloGrid 1).launch.persist = false ∧ (soloGrid 1).since + (s.fn 0).wdLnch * 3000 ≤ s.now := by decide +kernel

/-- Protection of die 3 switched on while the one context is of partition 0 of two; the last partition of four; an upset with its die's
protection on, and off. -/
theorem witness_TrustAndPower :
    let v : W64 := 0xF80
    let two := { sT with trust := { sT.trust with layout := 1 } }
    let four := { sT with trust := { sT.trust with layout := 2, pendingFw := some [1#8] } }
    State.reset.boot.ready = true ∧ (∀ c, c ∈ State.reset.hub.contexts → c.part ∉ [0])
    ∧ (natField v.toNat 7 4 = 8 ∧ natField v.toNat 1 0 = 0 ∧ State.reset.cfgDies 0 8 = [0, 1, 2, 3] ∧ State.reset.cfgDies 1 0 ≠ [])
    ∧ (1 ∈ partsOf two.trust.layout ∧ 3 ∈ partsOf four.trust.layout ∧ 1 ≤ four.boot.step)
    ∧ ((four.partTrust 3).enrolled.length < 8 ∧ (List.replicate 32 (7#8)).length = 32)
    ∧ (four.trust.pendingFw = some [1#8] ∧ four.hub.jobs = [])
    ∧ (∀ l : Nat, l < 32 → (l ∈ [31] ↔ l = 31)) ∧ (639 < 640 ∧ sT.upsOn 639 = true ∧ ({ sT with trust := { sT.trust with ups := 7 } } : State).upsOn 639 = false)
    ∧ (∀ a, a ∈ sT.answers → a.at_ ≤ sT.now - 256) ∧ 3 < 4 := by
  refine ⟨rfl, fun c h => absurd h List.not_mem_nil, by decide +kernel, by decide +kernel, by decide +kernel, by decide +kernel, by simp, by decide +kernel, ?_, by decide⟩
  exact fun a h => absurd h List.not_mem_nil


/-! ### Links, the drawer and the host, the fabric, the paths, the homes -/

/-- The controller with an all-Idle staging table, and class 30 bound; a link in a given state. -/
def stcT : State := { s1 with stc := { s1.stc with stage := (List.range 128).map (fun j => (j, 31)), classes := [(30, .fn 0)] } }
def linkT (fab : Bool) (n : Nat) (l : Link) : State := s1.modAny fab n (fun _ => l)

/-- Commands for the last links and the last class; each state of a link; the last fabric link reset. -/
theorem witness_LinkEvents :
    let tbl := List.replicate 128 (31 : Nat)
    let lk := fun (st : LinkSt) => linkT true 15 (Link.reset st)
    let slow : Slat := { tb with slim := 1, log := [⟨20, 0#64, 1#32, 3, 0, 0, 0, false⟩] }
    let sl := { sT with slats := [slow], now := 1024 }
    [(0x80001F00#64, 31), (0x80000F00#64, 15)].all (fun y => let n := y.1.toNat
      stcT.boot.ready && n.testBit 31 && stcT.stc.busyD.isEmpty && stcT.stc.busyF.isEmpty && stcZero n && natField n 30 29 == 0
        && natField n 12 8 == y.2) = true
    ∧ stcT.badTable false 31 stcT.stc.table = false ∧ stcT.badTable true 15 stcT.stc.table = false
    ∧ (natField (0xBE000000#64).toNat 30 29 = 1 ∧ natField (0xBE000000#64).toNat 28 24 ≠ 31 ∧ stcZero (0xBE000000#64).toNat = true
      ∧ (∀ y, y ∈ s1.stc.classes → y.1 ≠ 30))
    ∧ (natField (0xDE000000#64).toNat 30 29 = 2 ∧ natField (0xDE000000#64).toNat 28 24 = 30 ∧ stcZero (0xDE000000#64).toNat = true
      ∧ ∃ y, y ∈ stcT.stc.classes ∧ y.1 = 30)
    ∧ (let x := { Link.reset .up with load := some (tbl, 128) }
       (linkT true 15 x).anyLink true 15 = x ∧ (linkT true 15 x).switches true 15 128 { x with load := none } = true)
    ∧ (linkNo true 15 = true ∧ ((lk .up).anyLink true 15).st = .up ∧ ∃ i, i < 2 ∧ 0 < ((lk .up).anyLink true 15).spares.getD i 0)
    ∧ ((lk .swap).anyLink true 15).st = .swap ∧ ((lk .retrain).anyLink true 15).st = .retrain
    ∧ ((lk .down).boot.step = 8 ∧ (0xC000000F#64).toNat.testBit 31 = true ∧ (0xC000000F#64).toNat.testBit 30 = true ∧ natField (0xC000000F#64).toNat 4 0 = 15
      ∧ ((lk .down).anyLink true 15).st = .down)
    ∧ (sl.slat? 3 = some slow ∧ ∃ l, l ∈ slow.log ∧ l.kind = 3 ∧ l.told = false ∧ slow.slim ≠ 0#64 ∧ l.since + slow.slim.toNat * 1024 ≤ sl.now) := by
  refine ⟨by decide +kernel, by decide +kernel, by decide +kernel, ⟨by decide, by decide, by decide, fun y h => absurd h List.not_mem_nil⟩,
    ⟨by decide, by decide, by decide, _, .head _, rfl⟩, ⟨rfl, by decide +kernel⟩, ⟨rfl, rfl, 0, by decide⟩, rfl, rfl,
    ⟨rfl, by decide, by decide, by decide, rfl⟩, rfl, _, .head _, rfl, rfl, by decide, by decide⟩

/-- At most one command stands ready. -/
theorem commands_short {s : State} {cs : List Cmd}
    (h : (s.home.drawer.filter (fun d => d.sent.isNone)).map (fun d => (⟨d.age, d.line, d.wr, d.bg, d.fn, d.part, d.hint⟩ : Cmd))
      ++ s.asked.filter (fun x => paRegion (x.line * 128) == .drawer && !(s.home.drawer.any (fun d => d.line == x.line))) = cs)
    (n : cs.length ≤ 1) : s.commands = cs := by
  rw [State.commands]
  simp only [h]
  match cs, n with
  | [], _ => simp
  | [a], _ => simp

/-- The last drawer link before the slots at which its new tables take effect. -/
theorem witness_LinkEvents_tables :
    let tbl := List.replicate 128 (31 : Nat)
    let x := { Link.reset .up with load := some (tbl, 128) }
    let y := { Link.reset .up with slot := 128, readSoon := true }
    ((linkT false 31 x).anyLink false 31 = x ∧ (linkT false 31 x).switches false 31 128 { x with load := none } = true)
    ∧ (208 % 128 = 80 ∧ (linkT false 31 y).link 31 = y ∧ 208 < y.slot + 128 ∧ y.readSoon = true
      ∧ (linkT false 31 y).switches false 31 208 { y with readSoon := false } = true) := by
  have none : ∀ l k : Link, ((linkT false 31 l).modLink 31 (fun _ => k)).commands = [] := fun l k => commands_short (by rfl) (by decide)
  refine ⟨⟨rfl, ?_⟩, rfl, rfl, by decide, rfl, ?_⟩ <;>
    simp only [State.switches, State.reaches, State.slotCmds, none, Bool.false_eq_true, if_false] <;> decide +kernel

/-- A line of the drawer, one of host memory, and a load's request for a line. -/
def lnD : Nat := 0x1000050000 / 128
def lnH : Nat := (2 ^ 52 - 128) / 128
def reqT (line : Nat) (m : Msg) : Req := ⟨50, 3, 20, .ls, 0, 0, 0, 0, .mem, line, 0, false, m, .fresh⟩
def withReqs (rs : List Req) : State := { sT with home := { sT.home with reqs := rs } }
def withL2 (line : Nat) (dirty : Bool) : State := { sT with home := { sT.home with l2 := [⟨line, ⟨[(0, 1)], 0#32⟩, dirty, 0, 0, 0⟩] } }
def withDrawer (d : DAcc) : State := { sT with home := { sT.home with drawer := [d] } }

/-- A link whose table gives only its last slot, with a command that slot carries; one with none; the slots paired with an access's. -/
theorem witness_DrawerAndHost_slots :
    let last := { Link.reset .up with port := List.replicate 127 128 ++ [31] }
    let sr := (withReqs [reqT lnD (.read 2 [(0, lnD * 128)] none)]).modLink 1 (fun _ => last)
    let dr : DAcc := ⟨0, lnD, false, false, 0, 0, 0, [], 0#32, some (1, 79), 0, 0, false⟩
    (sr.reaches 1 127 = true ∧ sr.slotCmds 1 127 = [⟨50, lnD, false, false, 0, 0, 0⟩] ∧ sr.home.drawer = [])
    ∧ (sT.reaches 1 127 = true ∧ sT.slotCmds 1 127 = [])
    ∧ (withDrawer dr).reaches 1 159 = true ∧ (withDrawer { dr with wr := true, bytes := [(0, 1)] }).reaches 1 159 = true := by
  have one : ((withReqs [reqT lnD (.read 2 [(0, lnD * 128)] none)]).modLink 1 (fun _ => { Link.reset .up with port := List.replicate 127 128 ++ [31] })).commands
      = [⟨50, lnD, false, false, 0, 0, 0⟩] := commands_short (by decide +kernel) (by decide)
  have none : sT.commands = [] := commands_short (by decide +kernel) (by decide)
  have sent : ∀ d : DAcc, d.sent.isNone = false → (withDrawer d).commands = [] := fun d h => by
    refine commands_short ?_ (by decide)
    rw [show (withDrawer d).home.drawer = [d] from rfl, List.filter_cons, h]
    simp only [Bool.false_eq_true, if_false, List.filter_nil, List.map_nil, List.nil_append]
    rfl
  have d1 := sent ⟨0, lnD, false, false, 0, 0, 0, [], 0#32, some (1, 79), 0, 0, false⟩ rfl
  have d2 := sent ⟨0, lnD, true, false, 0, 0, 0, [(0, 1)], 0#32, some (1, 79), 0, 0, false⟩ rfl
  simp only [State.reaches, State.slotCmds, one, none, d1, d2]
  refine ⟨⟨?_, ?_, rfl⟩, ⟨?_, ?_⟩, ?_, ?_⟩ <;> decide +kernel

/-- A fill and a write acknowledged in the paired slot; dirty, clean and host lines;
a mailbox request on a held line, and one whose line is not held. -/
theorem witness_DrawerAndHost :
    let dr : DAcc := ⟨0, lnD, false, false, 0, 0, 0, [], 0#32, some (1, 79), 0, 0, false⟩
    let dw : DAcc := ⟨0, lnD, true, true, 0, 0, 0, [(0, 1)], 0#32, some (1, 79), 0, 0, false⟩
    let mailed := fun (m : Msg) => { reqT lnH m with mail := true }
    let held := fun (m : Msg) (own : List Nat) => { withReqs [mailed m] with host := { sT.host with owned := own, queue := [(3, 20, [(7, 1#8)])] } }
    let q := fun (m : Msg) (own : List Nat) => (held m own).agentQueue.head? = some (mailed m)
        ∧ ∀ q b, q ∈ (held m own).host.queue → b ∈ q.2.2 → untagLine (b.1 / 128) ≠ untagLine (mailed m).line
    sT.Inv ∧ ((withDrawer dr).home.drawer.find? (fun d => d.line == lnD && !d.wr && !d.again && d.sent.elim false (fun x => x.1 == 1 && x.2 + 80 == 159)) = some dr
      ∧ (withDrawer dr).l2? lnD = none ∧ (withDrawer dr).dstOf lnD = none ∧ (withDrawer dr).owner? lnD = none)
    ∧ ((withDrawer dw).home.drawer.find? (fun d => d.line == lnD && d.wr && !d.again && d.sent.elim false (fun x => x.1 == 1 && x.2 + 80 == 159)) = some dw)
    ∧ [true, false].all (fun d => [lnD, lnH].all (fun l => ((withL2 l d).l2? l).isSome && ((withL2 l d).owner? l).isNone && !((withL2 l d).waiting l)
        && !((withL2 l d).abandoning l) && (withL2 l d).home.drawer.isEmpty)) = true
    ∧ sT.l2? lnD = none ∧ sT.owner? lnD = none ∧ paRegion (lnD * 128) ≠ .host ∧ paRegion (lnH * 128) = .host ∧ sT.boot.modules ≠ 0
    ∧ q (.read 2 [(0, 0)] none) [lnH] ∧ q (.write [(0, 1)]) [lnH] ∧ q (.atomic 0 2 false false [⟨0, lnH * 128, 1, 0⟩]) [lnH] ∧ untagLine lnH ∈ [lnH]
    ∧ ((withReqs [reqT lnH (.read 2 [(0, lnH * 128)] none)]).asked.find? (fun x => untagLine x.line == untagLine lnH && paRegion (x.line * 128) == .host)).isSome = true
    ∧ ((held (.write []) []).host.owned = [] ∧ (held (.write []) []).host.queue = (3, 20, [(7, 1#8)]) :: []) := by
  have far : ∀ q b, q ∈ [((3 : Nat), (20 : Nat), [((7 : Nat), 1#8)])] → b ∈ q.2.2 → untagLine (b.1 / 128) ≠ untagLine lnH := by
    intro q b hq hb
    rw [List.mem_singleton.1 hq] at hb
    rw [List.mem_singleton.1 hb]
    decide +kernel
  refine ⟨⟨rfl, rfl, rfl⟩, ⟨by decide +kernel, by decide +kernel, rfl, rfl⟩, by decide +kernel,
    by decide +kernel, rfl, rfl, by decide +kernel, by decide +kernel, by decide, ⟨by decide +kernel, far⟩, ⟨by decide +kernel, far⟩, ⟨by decide +kernel, far⟩,
    by decide +kernel, by decide +kernel, rfl, rfl⟩

/-- A transfer to device 5, and windows over memory and over a persistent team's shares. -/
def xfT (op st : Nat) : Xfer := ⟨60, 3, 20, 0, 0, 0, 0, ⟨op, 0#64, 0#64, 4#64, 0x0050000000000000#64, 0⟩, [], [(0, 0x1000060000, 4)], [1, 2, 3, 4], st, 1, 0, none, 0, 0⟩
def winM : Window := ⟨true, false, 0, 0x40000#64, 0x100#64⟩
def winS : Window := ⟨true, true, 0, 1#64, 0#64⟩
def grpT : Group := ⟨true, 2, 1, 1, 4, 7, 0#64, 0x80#64⟩
def sF : State :=
  { sT with home := { sT.home with l2 := sT.home.l2 ++ [lineT 0x1000040000 [], lineT 0x1000040080 [], lineT 0x1000060000 []] }, teams := [soloTeam 2 1], hub := { sT.hub with
      grids := [{ soloGrid 1 with launch := { recT with persist := true } }]
      fns := [(0, { Fn.reset 0 with windows := [(7, winM), (8, winS)], groups := [(0, grpT)] })] } }
def withXfer (x : Xfer) (rs : List Reply) : State := { sF with fab := { sF.fab with xfers := [x], replies := rs } }

theorem answered_reply {s : State} {x : Xfer} {code : Nat} {bytes : List Byte}
    (h : s.fab.replies.any (fun r => r.own == some x.id && r.code == code && r.bytes == bytes && !(s.owes r.id)) = true) :
    s.answered x code bytes = true := by simp [State.answered, h]

/-- The last slot of a frame carries a put; puts and gets to the last byte of a window and one past it, and to a share; this device's own.
-/
theorem witness_FabricEvents :
    let p : PeerPut := ⟨5, 0, 7, 0, 0xFC, [1, 2, 3, 4], false, 0xF0, none, 0, 0, false⟩
    let ps : PeerPut := ⟨5, 0, 8, 0, 12, [1, 2, 3, 4], false, 0, none, 0, 0, false⟩
    let lost := { p with lost := true }
    let g : PeerGet := ⟨5, 0, 7, 0, 0xFC, 4, none, 0, 0⟩
    let sent := withXfer (xfT 1 2) []
    let lone := withXfer (xfT 1 3) []
    let last := (withXfer (xfT 0 1) []).modAny true 1 (fun _ => { Link.reset .up with port := List.replicate 127 128 ++ [31] })
    (last.fabricReaches 1 127 = true ∧ last.fabricReady 1 127 = [xfT 0 1] ∧ sent.fabricReaches 1 127 = true ∧ sent.fabricReady 1 127 = [])
    ∧ sF.hubOk true ((sF.hubWalks 0 0 0x400FC#64 4 ++ sF.hubWalks 0 0 0x400F0#64 16).eraseDups) = true
    ∧ sF.hubOk false [lineOf 0x10000400FC] = true ∧ sF.hubOk true [lineOf 0x10000400FC] = true ∧ sF.hubOk false (segLines (xfT 2 2).dst) = true
    ∧ (sF.ownPut p = true ∧ sF.windowOf 0 9 (some p.ctx) = .error 2 ∧ sF.windowOf 0 7 (some p.ctx) = .ok winM ∧ sF.windowOf 0 8 (some p.ctx) = .ok winS
      ∧ sF.ownPut lost = true ∧ lost.lost = true ∧ lost.ncl = false)
    ∧ (sF.windowAt winM Need.xferDst p.rank p.off p.bytes.length = some (.mem [(0, 0x10000400FC, 4)]) ∧ sF.windowClamp winM p.rank p.coff ≠ none)
    ∧ (sF.windowTeam winS ≠ none ∧ sF.windowAt winS Need.xferDst ps.rank ps.off ps.bytes.length = some (.spad 0 12) ∧ sF.windowClamp winS 0 ps.coff ≠ none
      ∧ Memory.wf (sF.core 0).spad = true)
    ∧ (sF.ownGet g = true ∧ sF.windowAt winM Need.xferSrc 0 0xFC g.len = some (.mem [(0, 0x10000400FC, 4)])
      ∧ sF.windowAt winM Need.xferSrc 0 0xFD g.len = none ∧ sF.windowAt winS Need.xferSrc 0 12 g.len = some (.spad 0 12))
    ∧ (let s := withXfer (xfT 2 2) [⟨61, 0, some 60, 0, [1, 2, 3, 4]⟩]
       s.xfer? 60 = some (xfT 2 2) ∧ ([1, 2, 3, 4] : List Byte).length = (xfT 2 2).ops.n.toNat ∧ (s.flink 0).st = .up
       ∧ s.answered (xfT 2 2) 0 [1, 2, 3, 4] = true)
    ∧ (sent.groupOf 0 0 = some grpT
      ∧ sent.fab.xfers.find? (fun x => x.fn == 0 && x.ops.op == 1 && x.st == 2 && x.ops.key.2 == 0 && natField x.ops.e.toNat 31 16 == 0
          && x.ops.d.toNat == 0) = some (xfT 1 2)
      ∧ ([1, 2, 3, 4] : List Byte).length = grpT.chunk 0 ∧ (xfT 1 2).redAllowed grpT.nm [1, 2, 3, 4] = true ∧ (sent.fn 0).busy = false ∧ sent.windowOf 0 grpT.win none = .ok winM
      ∧ sent.windowAt winM Need.xferDst 0 (grpT.boff.toNat + 0 * (grpT.csz * 128)) 4 = some (.mem [(0, 0x1000040000, 4)])
      ∧ sent.windowClamp winM 0 (grpT.cboff.toNat + 16 * 0) = some (.mem 0x1000040080))
    ∧ (let s := withXfer (xfT 0 2) [⟨61, 0, some 60, 0, []⟩]
       s.xfer? 60 = some (xfT 0 2) ∧ s.slat? 3 = some tb ∧ s.answered (xfT 0 2) 0 [] = true)
    ∧ (lone.xfer? 60 = some (xfT 1 3) ∧ lone.slat? 3 = some tb ∧ lone.owes 60 = false)
    ∧ (let s := withXfer (xfT 0 2) [⟨61, 0, some 60, 5, []⟩]
       2 ≤ (xfT 0 2).st ∧ s.answered (xfT 0 2) 5 [] = true ∧ tb.ended = false) := by
  refine ⟨⟨by decide +kernel, by decide +kernel, by decide +kernel, by decide +kernel⟩, by decide +kernel, by decide +kernel, by decide +kernel, by decide +kernel,
    ⟨rfl, ?_, ?_, ?_, rfl, rfl, rfl⟩, ⟨by decide +kernel, by decide +kernel⟩, ⟨by decide +kernel, by decide +kernel, by decide +kernel, rfl⟩,
    ⟨rfl, by decide +kernel, by decide +kernel, by decide +kernel⟩, ⟨rfl, rfl, rfl, answered_reply rfl⟩,
    ⟨by decide +kernel, by decide +kernel, by decide, by decide +kernel, rfl, ?_, by decide +kernel, by decide +kernel⟩, ⟨rfl, rfl, answered_reply rfl⟩, ⟨rfl, rfl, rfl⟩,
    ⟨by decide, answered_reply rfl, rfl⟩⟩ <;> rfl

/-- An entry of the slat tb, and a lane at an address of the mapped range or at one that an earlier translation gives. -/
def entT (op : EOp) (lanes : List Lane) : QEnt := ⟨20, 19, [.ls], op, lanes, 0#64, 0, 0, 1, 0, false, none, none⟩
def laneV (va : W64) : Lane := ⟨0, .glob va none, none, .queued⟩
def laneB : Lane := ⟨0, .glob 0x50000#64 (some (0x1000050000, ⟨true, true, false, true⟩)), none, .queued⟩
def regT : Region := ⟨0, 3, 0x50000, 0x10000, 0x41000000#32, 2, false⟩
def recD (share : W32) : DeltaRec := ⟨lnD, false, [], 0#32, share, false, 30, 0, 3⟩
def sP (e : QEnt) (c : Core) : State :=
  { sT with home := { sT.home with regions := [regT] }, slats := [{ tb with queue := [e], accd := [lnD] }], cores := [(0, c)],
            hub := { sT.hub with queues := [(6, fq)] } }
def tP (e : QEnt) : Slat := { tb with queue := [e], accd := [lnD] }

/-- What the checks of an entry's lanes come to. -/
abbrev fatesOf (s : State) (e : QEnt) : List (Lane × LaneFate) × State :=
  s.checkLanes (tP e) e.op.ask e.regen ((e.lanes.filter (fun x => x.st == .queued)).map
    (fun x => if x.data.isNone then { x with data := (tP e).capture e.op x.l } else x))

/-- What PathEvents asks of an entry whose one line is lnD. -/
abbrev Passes (s : State) (e : QEnt) : Prop :=
  s.slat? 3 = some (tP e) ∧ (tP e).qent? 20 = some e ∧ s.mayLeave (tP e) e = true
  ∧ s.hubOk true (s.walksFor 0 0 0 (s.entVas (tP e) e)) = true
  ∧ (tP e).markedLanes e = [] ∧ (∀ x, x ∈ e.lanes → x.st = .queued)
  ∧ (e.lanes.map Lane.l).Nodup
  ∧ (passedOf (fatesOf s e).1).map Passed.lane = (e.lanes.filter (fun x => x.st == .queued)).map
      (fun x => if x.data.isNone then { x with data := (tP e).capture e.op x.l } else x)
  ∧ passedOf (fatesOf s e).1 ≠ [] ∧ (∀ p, p ∈ passedOf (fatesOf s e).1 → p.bank = none ∧ p.perm.mail = false ∧ p.a / 128 = lnD)

/-- A load that its core's L1 serves and one that goes to the home. -/
theorem witness_PathEvents_load :
    let e := entT (.load 2 false 4 0) [laneV 0x50000#64]
    let s := sP e Core.reset
    Passes s e ∧ (∀ p, p ∈ passedOf (fatesOf s e).1 → (fatesOf s e).2.bounded (tP e) p.lane.loc p.perm = none ∧ (tP e).has p.lane.l = true)
    ∧ (((fatesOf s e).2.core 0).l1? lnD).isNone = true
    ∧ Passes (sP e { Core.reset with l1 := [⟨lnD, false, LineVal.zero, 0⟩] }) e := by decide +kernel

/-- A store, an atomic, an arrival, a wait: no record stands. -/
theorem witness_PathEvents_write :
    (let e := entT (.store 2 false (.v 4) 0) [laneV 0x50000#64, { laneV 0x50004#64 with l := 31 }]
     Passes (sP e Core.reset) e ∧ ((passedOf (fatesOf (sP e Core.reset) e).1).map Passed.a).Nodup ∧ ((fatesOf (sP e Core.reset) e).2.core 0).rec? lnD = none)
    ∧ Passes (sP (entT (.atomic 7 2 false false 4 (.v 6)) [laneV 0x5007C#64]) Core.reset) (entT (.atomic 7 2 false false 4 (.v 6)) [laneV 0x5007C#64])
    ∧ (let e := entT (.clamp .arrive 0 0#64) [laneV 0x50070#64]
       Passes (sP e Core.reset) e ∧ (passedOf (fatesOf (sP e Core.reset) e).1).length = 1)
    ∧ (let e := entT (.clamp (.wait 1) 0 0#64) [laneV 0x50070#64]
       Passes (sP e Core.reset) e ∧ (passedOf (fatesOf (sP e Core.reset) e).1).length = 1) := by
  refine ⟨?_, ?_, ?_, ?_⟩ <;> decide +kernel

/-- An addition outside the regions, in one without a record, and in one whose record's share it stays within. -/
theorem witness_PathEvents_acc :
    let e := entT (.acc false (.v 4)) [laneV 0x50000#64]
    let b := entT (.acc false (.v 4)) [laneB]
    let kept := { Core.reset with recs := [recD 0x40A00000#32] }
    (Passes (sP e Core.reset) e ∧ ∀ p, p ∈ passedOf (fatesOf (sP e Core.reset) e).1 → (fatesOf (sP e Core.reset) e).2.bounded (tP e) p.lane.loc p.perm = none)
    ∧ (Passes (sP b Core.reset) b
      ∧ (∀ p, p ∈ passedOf (fatesOf (sP b Core.reset) b).1 → (fatesOf (sP b Core.reset) b).2.bounded (tP b) p.lane.loc p.perm = some regT)
      ∧ ((fatesOf (sP b Core.reset) b).2.core 0).rec? lnD = none)
    ∧ (Passes (sP b kept) b ∧ ((fatesOf (sP b kept) b).2.core 0).rec? lnD = some (recD 0x40A00000#32)
      ∧ flt (f32 (0x40A00000#32)) (f32 (gaugeMax 0#32 (gaugePass 0#32 [(0, 0#32)]))) = false
      ∧ (passedOf (fatesOf (sP b kept) b).1).map (fun p => (p.a % 128 / elemBytes false, BitVec.ofNat 32 (p.lane.data.getD 0))) = [(0, 0#32)]) := by
  decide +kernel

/-- A lane misaligned, and one on a page that is not present, with a service queue that takes the fault. -/
theorem witness_PathEvents_fault :
    let e := entT (.load 2 false 4 0) [laneV 0x50001#64]
    let f := entT (.store 2 false (.v 4) 0) [laneV 0x20000000#64]
    let s := sP f Core.reset
    let fs := (fatesOf s f).1
    let walks := fun (s : State) (e : QEnt) => s.hubOk true (s.walksFor 0 0 0 (s.entVas (tP e) e))
    (walks (sP e Core.reset) e = true ∧ walks s f = true ∧ e.cid ∉ (tP e).told
      ∧ (let n := { sP e Core.reset with home := { sT.home with l2 := [] } }; walks n e = false ∧ n.mayLeave (tP e) e = true))
    ∧ ((sP e Core.reset).mayLeave (tP e) e = true ∧ (fatesOf (sP e Core.reset) e).1.map Prod.snd = [.sync 4 1]
      ∧ (laneV 0x50001#64).st = .queued ∧ (tP e).markedLanes e = [])
    ∧ (s.mayLeave (tP f) f = true ∧ (tP f).markedLanes f = [] ∧ (tP f).logFull = false ∧ fs.length = 1
      ∧ (routedOf fs).any (fun r => (((fatesOf s f).2.modSlat 3 (fun t => t.setQent { f with lanes := [{ laneV 0x20000000#64 with data := some 0 }] })).serve
          ((tP f).setQent { f with lanes := [{ laneV 0x20000000#64 with data := some 0 }] }) r.kind f.op.ask.access r.page r.size 0x20000000#64
          (lanesMask [r.lane]) r.leaf r.link).1.isSome) = true) := by decide +kernel

/-- A grd and a drn of a line with a record; a copy, and a put. -/
theorem witness_PathEvents_whole :
    let g := entT (.grd 4) [laneV 0x50000#64]
    let d := entT (.drn 0 0#64) [laneV 0x50000#64]
    let k : CopyOps := ⟨0, 0x60000#64, 0x50000#64, 128#64, 0#64, 0, 0⟩
    let x : XferOps := ⟨0, 0#64, 0x50000#64, 4#64, 0x0050008000000000#64, 0⟩
    let c := entT (.copy k) []
    let y := entT (.xfer x) []
    let kept := { Core.reset with recs := [recD 0x40A00000#32] }
    let walks := fun (s : State) (e : QEnt) => s.hubOk true (s.walksFor 0 0 0 (s.entVas (tP e) e))
    (walks (sP g kept) g = true ∧ walks (sP d kept) d = true ∧ walks (sP c kept) c = true ∧ walks (sP y kept) y = true)
    ∧ ((sP g kept).mayLeave (tP g) g = true ∧ g.lanes.head? = some (laneV 0x50000#64) ∧ ((sP g kept).lanePa (tP g) (.glob 0x50000#64 none)).isSome = true)
    ∧ ((sP d kept).mayLeave (tP d) d = true ∧ (sP d kept).drnRecs (tP d) 0 0#64 d.lanes ≠ [] ∧ (sP d Core.reset).mayLeave (tP d) d = true
      ∧ (sP d Core.reset).drnRecs (tP d) 0 0#64 d.lanes = [])
    ∧ ((sP c kept).mayLeave (tP c) c = true ∧ k.op ≠ 7 ∧ (sP c kept).coreReady (tP c).core ((sP c kept).descAs (tP c) k c.regen) = true
      ∧ (match ((sP c kept).checkCopy (tP c) k c.regen).1 with
        | .ok _ => true
        | .error _ => false) = true)
    ∧ ((sP y kept).mayLeave (tP y) y = true ∧ (sP y kept).xferForm (tP y) x = none ∧ (match ((sP y kept).rangeOk (tP y) Need.xferSrc y.regen x.s 4 1).1 with
        | .ok _ => true
        | .error _ => false) = true) := by decide +kernel

/-- A release at its home that has drains to issue, and whose drains are done; an acquire that promotes this very team, and one of no such
team. -/
theorem witness_PathEvents_markers :
    let rel : Marker := ⟨true, true, false, none, 0, 0, false, 0⟩
    let acq : Marker := ⟨false, true, false, some 0, 2, 0, true, 0⟩
    let r := { entT (.marker rel) [] with paths := [.ls, .ac] }
    let r1 := { entT (.marker { rel with stage := 1 }) [] with paths := [.ls, .ac] }
    let a := entT (.marker acq) []
    let s := fun (e : QEnt) => { sP e Core.reset with next := 40, teams := [soloTeam 2 1] }
    ((s r).slat? 3 = some (tP r) ∧ 20 < (s r).next ∧ (tP r).older r = [] ∧ rel.rel = true ∧ rel.home = true ∧ Path.ac ∈ r.paths ∧ rel.stage = 0)
    ∧ ((s r1).slat? 3 = some (tP r1) ∧ (s r1).undrained 0 0 = false ∧ (s r1).reached (tP r1) r1 { rel with stage := 1 } = true)
    ∧ ((s a).slat? 3 = some (tP a) ∧ (tP a).older a = [] ∧ acq.rel = false ∧ (s a).promoted (tP a) 0 = [0] ∧ 2 ≤ acq.stage
      ∧ (s a).undrained 0 0 = false ∧ (s a).promoted (tP a) 9 = []) := by
  refine ⟨by decide +kernel, by decide +kernel, by decide +kernel, by decide +kernel, rfl, ?_, by decide, by decide +kernel, by decide +kernel⟩
  simp [State.promoted, State.teamSlats, soloTeam, sP, tP, tb, t1, soloSlat, List.eraseDups]
  decide +kernel

/-- The head of a window at the very cycle it may exit: a request for a home, a peer's bytes, none, a copy, a transfer; one of the last two that
has left and may begin; and what is owed before them. -/
theorem witness_PathEvents_window :
    let q := fun (tgt : Tgt) (m : Msg) => ({ reqT lnD m with tgt := tgt } : Req)
    let k := fun (n : Nat) => (⟨60, 3, 20, 0, 0, 0, 0, ⟨n, 0x50000#64, 0x60000#64, 128#64, 0#64, 0, 0⟩, Xform.ident, [(0, 0x1000060000, 128)],
      [(0, 0x1000050000, 128)], false, [], none, 0, [], [], [], [], []⟩ : Copy)
    let s : Req → State := fun r =>
      { sF with now := 256, cores := [(0, { Core.reset with hw := [⟨0, r⟩] })],
                home := { sF.home with copies := [k 0] }, fab := { sF.fab with xfers := [{ xfT 0 0 with src := [(0, 0x1000060000, 4)] }] } }
    let left : Req → State := fun r => { s r with cores := [], home := { (s r).home with starts := [r] } }
    [q .mem (.write [(0, 1)]), q (.spad 7) (.write [(0, 1)]), q (.spad 7) (.write []), q .mem (.copy 60), q .mem (.xfer 60)].all (fun r =>
      ((s r).core 0).hw == [⟨0, r⟩] && decide (0 + 256 ≤ (s r).now) && !((s r).owed r.core r.id)
        && ((s r).home.starts.find? (fun r => r.core == 0)).isNone) = true
    ∧ [q .mem (.copy 60), q .mem (.xfer 60)].all (fun r => (left r).home.starts.find? (fun r => r.core == 0) == some r && !((left r).owed r.core r.id)
        && ((((left r).copy? 60).elim [] (left r).collapseLines).all (left r).ripe) && (left r).hubOk true ((left r).xferLines 60)
        && ((left r).xfer? 60).isSome) = true
    ∧ Memory.wf ((s (q (.spad 7) (.write []))).core 7).spad = true
    ∧ (let o : Req → State := fun r => { s r with home := { (s r).home with reqs := [{ reqT lnD (.write []) with id := 49 }] } }
       [q (.spad 7) (.write [(0, 1)]), q .mem (.copy 60), q .mem (.xfer 60)].all (fun r => (o r).owed 0 50) = true) := by decide +kernel

/-- One request at a home that holds its line clean; the slat's entry that it serves; core 0 with some L1 lines. -/
def sH (m : Msg) (tgt : Tgt) (e : QEnt) (l1 : List L1Line) (owned : List (Nat × Nat)) : State :=
  { sF with home := { sF.home with reqs := [{ reqT lnD m with tgt := tgt }], l2 := [⟨lnD, LineVal.zero, false, 0, 0, 0⟩], owned := owned },
            slats := [tP e], cores := [(0, { Core.reset with l1 := l1 })] }
def rH (m : Msg) (tgt : Tgt) : Req := { reqT lnD m with tgt := tgt }
def eLd : QEnt := entT (.load 2 false 4 0) [{ laneV 0x50000#64 with st := .sent }]
def eAt : QEnt := entT (.atomic 0 2 false false 4 (.v 6)) [{ laneV 0x50000#64 with st := .sent, data := some 1 }]
def eCl (k : ClampOp) : QEnt := entT (.clamp k 0 0#64) [{ laneV 0x50000#64 with st := .sent }]
def mAt : Msg := .atomic 0 2 false false [⟨0, lnD * 128, 1, 0⟩]
def mOwn : Msg := .own 0 2 false false [⟨0, lnD * 128, 1, 0⟩]

theorem settled_spec {s : State} {r : Req} (h : (s.settled r).2 = true) : s.settled r = ((s.settled r).1, true) := by rw [← h]

theorem witness_HomeEvents_reads :
    let mr : Msg := .read 2 [(0, lnD * 128)] none
    let s := sH mr .mem eLd [] []
    let p := sH .prefetch .mem eLd [] []
    let v := sH (.stat 5) .mem (entT (.copy ⟨7, 0#64, 0x50000#64, 0#64, 0#64, 5, 0⟩) []) [] []
    let c := fun (k : ClampOp) => sH (.clamp k (lnD * 128)) .mem (eCl k) [] []
    (s.req? 50 = some (rH mr .mem) ∧ s.turn (rH mr .mem) = true ∧ s.budget? lnD = none ∧ s.atHand lnD = some LineVal.zero
      ∧ s.slat? 3 = some (tP eLd) ∧ (tP eLd).qent? 20 = some eLd ∧ (tP eLd).has 0 = true ∧ (∃ y, y ∈ eLd.lanes ∧ y.l = 0 ∧ y.st ≠ .logged)
      ∧ (eLd.lanes.map Lane.l).Nodup ∧ (s.core 0).l1? lnD = none ∧ (s.core 0).rec? lnD = none
      ∧ s.drainHeld (rH mr .mem) = false ∧ (s.core 0).l1Room lnD = true)
    ∧ (p.turn (rH .prefetch .mem) = true ∧ p.drainHeld (rH .prefetch .mem) = false ∧ p.atHand lnD ≠ none)
    ∧ (v.turn (rH (.stat 5) .mem) = true ∧ v.drainHeld (rH (.stat 5) .mem) = false ∧ (v.slat? 3).isSome = true)
    ∧ [ClampOp.test 6 1, .test 6 0, .wait 0, .wait 1].all (fun k => (c k).turn (rH (.clamp k (lnD * 128)) .mem) && !((c k).drainHeld (rH (.clamp k (lnD * 128)) .mem)) && ((c k).owner? lnD).isNone
        && (c k).present lnD && (c k).slat? 3 == some (tP (eCl k)) && (tP (eCl k)).qent? 20 == some (eCl k)) = true := by
  refine ⟨⟨?_, ?_, ?_, ?_, ?_, ?_, ?_, ⟨_, .head _, rfl, by decide⟩, ?_, ?_, ?_, ?_, ?_⟩, ?_, ?_, ?_⟩ <;> decide +kernel

/-- A store to the last core's bank and to memory, to the drawer and to the host; an atomic there, on an owned copy and at its home. -/
theorem witness_HomeEvents_writes :
    let ws := fun (tgt : Tgt) => sH (.write [(lnD * 128 + 127, 1)]) tgt eLd [] []
    let wr := fun (tgt : Tgt) => rH (.write [(lnD * 128 + 127, 1)]) tgt
    let y : L1Line := ⟨lnD, true, LineVal.zero, 0⟩
    let o := sH mAt .mem eAt [y] [(lnD, 0)]
    let a := sH mAt .mem eAt [] []
    let b := sH mAt (.spad 639) eAt [] []
    ((ws (.spad 639)).turn (wr (.spad 639)) = true ∧ Memory.wf ((ws (.spad 639)).core 639).spad = true)
    ∧ ((ws .mem).turn (wr .mem) = true ∧ (ws .mem).owner? lnD = none ∧ (ws .mem).dstOf lnD = none ∧ (ws .mem).writable lnD [(lnD * 128 + 127, 1)] = true ∧ ((ws .mem).settled (wr .mem)).2 = true)
    ∧ (b.turn (rH mAt (.spad 639)) = true ∧ b.slat? 3 = some (tP eAt) ∧ (tP eAt).qent? 20 = some eAt ∧ (b.core 639).badLanes 2 [⟨0, lnD * 128, 1, 0⟩] = 0#32)
    ∧ (o.turn (rH mAt .mem) = true ∧ o.owner? lnD = some 0 ∧ (o.core 0).l1? lnD = some y ∧ y.val.badLanes 2 [⟨0, lnD * 128, 1, 0⟩] = 0#32)
    ∧ (a.turn (rH mAt .mem) = true ∧ a.owner? lnD = none ∧ a.ripe lnD = true ∧ a.present lnD = true ∧ (a.settled (rH mAt .mem)).2 = true
      ∧ ((a.settled (rH mAt .mem)).1.homeVal lnD).badLanes 2 [⟨0, lnD * 128, 1, 0⟩] = 0#32 ∧ (a.settled (rH mAt .mem)).1.slats = a.slats) := by
  refine ⟨?_, ?_, ?_, ?_, ?_⟩ <;> decide +kernel

/-- A unit's request for a line to read and to write; an abandoned line, and a dirty host line flushed. -/
theorem witness_HomeEvents_units :
    let u := fun (m : Msg) => sH m .mem eLd [] []
    let lines : List L2Line := [⟨lnH, ⟨[(0, 1)], 0#32⟩, true, 0, 0, 0⟩]
    let h := { u (.clear true) with home := { (u (.clear true)).home with reqs := [{ rH (.clear true) .mem with line := lnH }], l2 := lines } }
    ([true, false].all (fun rd => (u (.hub rd)).turn (rH (.hub rd) .mem) && (rH (.hub rd) .mem).st == .fresh && (u (.hub rd)).present lnD
        && (u (.hub rd)).ripe lnD && ((u (.hub rd)).owner? lnD).isNone && ((u (.hub rd)).settled (rH (.hub rd) .mem)).2)) = true
    ∧ ((u (.clear false)).turn (rH (.clear false) .mem) = true ∧ (u (.clear false)).clearable false lnD = true
      ∧ ((u (.clear false)).settled (rH (.clear false) .mem)).2 = true)
    ∧ (let r := { rH (.clear true) .mem with line := lnH }
       h.turn r = true ∧ h.clearable true lnH = true ∧ h.owner? lnH = none ∧ (h.settled r).2 = true
       ∧ ((h.settled r).1.l2? lnH).elim false L2Line.dirty = true) := by
  refine ⟨?_, ?_, ?_⟩ <;> decide +kernel

/-- Clamp steps in memory and in a share; a line granted to a core, and one that no lane wants any more; an owned copy that another core's load wants; a clean copy. -/
theorem witness_HomeEvents_steps :
    let k : Msg := .clamp .arrive (lnD * 128)
    let j : Msg := .clamp .arrive 16
    let c := sH k .mem (eCl .arrive) [] []
    let d := sH j (.spad 0) (eCl .arrive) [] []
    let g := sH mOwn .mem eAt [] []
    let y : L1Line := ⟨lnD, true, LineVal.zero, 0⟩
    let o := sH (.read 2 [] none) .mem eAt [y] [(lnD, 0)]
    let n : Msg := .own 0 2 false false []
    let v := sH n .mem eAt [] []
    (v.turn (rH n .mem) = true ∧ v.owner? lnD = none ∧ v.ripe lnD = true ∧ (v.core 0).l1Room lnD = true ∧ (v.settled (rH n .mem)).2 = true)
    ∧ (c.turn (rH k .mem) = true ∧ c.owner? lnD = none ∧ c.ripe lnD = true ∧ c.present lnD = true ∧ (c.settled (rH k .mem)).2 = true)
    ∧ (d.turn (rH j (.spad 0)) = true ∧ d.spadPlace 0 16 = some (2, 0, 16))
    ∧ (g.turn (rH mOwn .mem) = true ∧ g.owner? lnD = none ∧ g.ripe lnD = true ∧ g.present lnD = true ∧ (g.settled (rH mOwn .mem)).2 = true
      ∧ (g.settled (rH mOwn .mem)).1.owner? lnD = none ∧ (g.core 0).l1Room lnD = true
      ∧ ((g.settled (rH mOwn .mem)).1.core 0).l1Room lnD = true)
    ∧ (o.owner? lnD = some 0 ∧ (o.core 0).l1? lnD = some y ∧ o.wanted 0 lnD = true)
    ∧ ((sH k .mem eAt [⟨lnD, false, LineVal.zero, 0⟩] []).core 0).l1? lnD = some ⟨lnD, false, LineVal.zero, 0⟩ := by
  refine ⟨?_, ?_, ?_, ?_, ?_, ?_⟩ <;> decide +kernel

/-- A budget entry of the line with core 7 its sharer, and a request of core 0. -/
def budT (n : Nat) : Budget := ⟨lnD, 0, 3, 0, false, 0x41000000#32, n, 0x40800000#32, [(7, 0)], 1⟩
def sB (m : Msg) (st : ReqSt) (bs : List Budget) (regs : List Region) : State :=
  { sF with home := { sF.home with reqs := [{ reqT lnD m with st := st }], l2 := [⟨lnD, LineVal.zero, false, 0, 0, 0⟩], budget := bs, regions := regs } }

/-- A grant with a seat left, a new entry, and none; an addition; the three messages that settle; their order. -/
theorem witness_BoundedEvents_requests :
    let g : Msg := .grant false 3 [(0, 1#32)]
    let ready := fun (m : Msg) (bs : List Budget) (regs : List Region) =>
      (sB m .fresh bs regs).req? 50 == some (reqT lnD m) && ((sB m .fresh bs regs).owner? lnD).isNone && (sB m .fresh bs regs).ripe lnD
        && (sB m .fresh bs regs).turn (reqT lnD m) && ((sB m .fresh bs regs).settled (reqT lnD m)).2
    let settles := fun (m : Msg) => (sB m .fresh [budT 2] []).settleReady (reqT lnD m)
    let s1 := fun (bs : List Budget) (regs : List Region) => ((sB g .fresh bs regs).settled (reqT lnD g)).1
    (ready g [budT 2] [regT] = true ∧ (s1 [budT 2] [regT]).budget? lnD = some (budT 2))
    ∧ (ready g [] [regT] = true ∧ (s1 [] [regT]).budget? lnD = none) ∧ ready g [] [] = true ∧ ready (.homeAdd false [(0, 1#32)]) [budT 2] [] = true
    ∧ settles (.drain false [(0, 1#32)]) = true ∧ settles (.giveUp false []) = true ∧ settles (.reply false [] true 51) = true
    ∧ settles (.reply false [] true 50) = true := by
  refine ⟨?_, ?_, ?_, ?_, ?_, ?_, ?_, ?_⟩ <;> decide +kernel

/-- A tolerant read with no entry, with an entry its tolerance covers, and with one whose sharer is drained first, then done. -/
theorem witness_BoundedEvents_reads :
    let m := fun (tol : W32) => Msg.read 4 [(0, lnD * 128)] (some tol)
    let s := fun (tol : W32) (st : ReqSt) (bs : List Budget) => sB (m tol) st bs []
    let r := fun (tol : W32) (st : ReqSt) => { reqT lnD (m tol) with st := st }
    let ok := fun (tol : W32) (st : ReqSt) (bs : List Budget) => (s tol st bs).req? 50 == some (r tol st) && (s tol st bs).turn (r tol st)
        && !((s tol st bs).drainHeld (r tol st)) && (s tol st bs).atHand lnD == some LineVal.zero
    (ok 0#32 .fresh [] = true ∧ (s 0#32 .fresh []).budget? lnD = none)
    ∧ (ok 0x40800000#32 .fresh [budT 2] = true ∧ (s 0x40800000#32 .fresh [budT 2]).budget? lnD = some (budT 2)
      ∧ (budT 2).toDrain 0 0x40800000#32 = [])
    ∧ (ok 0#32 .fresh [budT 2] = true ∧ (s 0#32 .fresh [budT 2]).budget? lnD = some (budT 2) ∧ (budT 2).toDrain 0 0#32 = [7])
    ∧ ok 0#32 (.drains []) [budT 2] = true
    ∧ (let p : Msg := .read 4 [(0, lnD * 128)] none
       let b := sB p .fresh [budT 2] []
       b.req? 50 = some (reqT lnD p) ∧ b.turn (reqT lnD p) = true ∧ b.drainHeld (reqT lnD p) = false ∧ b.atHand lnD = some LineVal.zero
       ∧ b.budget? lnD ≠ none) := by
  refine ⟨?_, ⟨?_, ?_, ?_⟩, ⟨?_, ?_, ?_⟩, ?_, ?_⟩ <;> decide +kernel

/-- A reply with a share for core 0, which has one record fewer than it can hold; one where the L1 is full of clean lines; one
without a context, and one whose lanes have been taken back; a force, an acknowledgement; a record drained of itself.
-/
theorem witness_BoundedEvents_cores :
    let s := fun (m : NetMsg) (rs : List DeltaRec) =>
      { sT with home := { sT.home with net := [⟨41, 0, m, none⟩] }, cores := [(0, { Core.reset with recs := rs })] }
    let others := (List.range 383).map (fun i => { recD 0#32 with line := i })
    let rep : NetMsg := .reply lnD false (some 0x40800000#32) 0 3
    let c := ((s rep []).core 0).dropL1 lnD
    let full := { s rep [] with cores := [(0, { Core.reset with l1 := List.replicate 1536 ⟨lnD + 1, false, LineVal.zero, 0⟩ })] }
    let back := { s rep [] with home := { sT.home with net := [⟨41, 0, rep, some (3, 20, false)⟩] } }
    let lone : NetMsg := .reply lnD false (some 0x40800000#32) noCtx 0
    ((s rep others).net? 41 = some ⟨41, 0, rep, none⟩ ∧ ((s rep others).core 0).rec? lnD = none
      ∧ (((s rep others).core 0).dropL1 lnD).recs.length < 384 ∧ ((s rep []).core 0).rec? lnD = none ∧ c.recs.length < 384
      ∧ c.l1.length + c.recLines (fun _ => true) + 1 ≤ Config.l1Lines
      ∧ (c.l1.filter (fun y => sameL1Set y.line lnD)).length + c.recLines (sameL1Set lnD) + 1 ≤ Config.l1Ways)
    ∧ (full.net? 41 = some ⟨41, 0, rep, none⟩ ∧ (full.core 0).rec? lnD = none
      ∧ Config.l1Lines < (full.core 0).l1.length + 1
      ∧ (((full.modCore 0 (fun c => c.dropL1 lnD)).roomRec 0).roomL1 0 lnD 1 (2 * Config.l1Lines)).isSome = true)
    ∧ ((s lone []).net? 41 = some ⟨41, 0, lone, none⟩ ∧ ((s lone []).core 0).rec? lnD = none)
    ∧ back.net? 41 = some ⟨41, 0, rep, some (3, 20, false)⟩
    ∧ ((s (.force lnD true 50) [recD 0#32]).net? 41 = some ⟨41, 0, .force lnD true 50, none⟩
      ∧ ((s (.force lnD true 50) [recD 0#32]).core 0).rec? lnD = some (recD 0#32) ∧ ((s (.force lnD true 50) []).core 0).rec? lnD = none)
    ∧ ((s (.ack lnD) [recD 0#32]).home.net.find? (fun n => n.core == 0 && n.msg == .ack lnD) = some ⟨41, 0, .ack lnD, none⟩
      ∧ (s (.ack lnD) [recD 0#32]).net? 41 = some ⟨41, 0, .ack lnD, none⟩)
    ∧ (((s (.ack lnD) [recD 0#32]).core 0).rec? lnD = some (recD 0#32) ∧ (recD 0#32).draining = false) := by
  refine ⟨?_, ⟨?_, ?_, ?_, ?_⟩, ?_, ?_, ?_, ?_, ?_⟩ <;> decide +kernel

/-- A copy of one line from lnS to lnD, an entry that resolves lnD to lnS, and a state with both lines. -/
def lnS : Nat := 0x1000060000 / 128
def opsC (op : Nat) : CopyOps := ⟨op, 0x50000#64, 0x60000#64, 128#64, 0#64, 0, 0⟩
def cpT (op : Nat) : Copy := ⟨60, 3, 20, 0, 0, 0, 0, opsC op, Xform.ident, [(0, lnS * 128, 128)], [(0, lnD * 128, 128)], true, [], none, 0, [], [lnD],
  [(lnS, ⟨[(5, 7)], 0#32⟩)], [], []⟩
def venT (todo : List Nat) : Veneer := ⟨9, false, 0, 0, 0, 0, lnD, 1, lnS * 128, Xform.ident, 0, 0, 0, todo, [], 60⟩
def sC (cs : List Copy) (vs : List Veneer) (rs : List Req) : State :=
  let l2 : List L2Line := [⟨lnS, ⟨[(5, 7)], 0#32⟩, true, 0, 0, 1⟩, ⟨lnD, LineVal.zero, false, 0, 0, 0⟩]
  { sF with home := { sF.home with copies := cs, veneers := vs, reqs := rs, l2 := l2 } }

theorem deps_venT (todo : List Nat) : (venT todo).lines = [lnD] ∧ (∀ a, a ∈ (venT todo).feeds lnD → lineOf a = lnS)
    ∧ (∃ a, a ∈ (venT todo).feeds lnD ∧ lineOf a = lnS) := by
  have h : ((venT []).feeds lnD).all (fun a => lineOf a == lnS) = true ∧ (venT []).feeds lnD ≠ [] := by
    refine ⟨?_, ?_⟩ <;> decide +kernel
  refine ⟨by simp [Veneer.lines, venT], fun a ha => ?_, ?_⟩
  · exact eq_of_beq (List.all_eq_true.1 h.1 a ha)
  · obtain ⟨a, ha⟩ := List.exists_mem_of_ne_nil _ h.2
    exact ⟨a, ha, eq_of_beq (List.all_eq_true.1 h.1 a ha)⟩

/-- No line depends on lnD, with that entry or without one. -/
theorem deps_lnD {cs : List Copy} {rs : List Req} {todo : List Nat} : (sC cs [venT todo] rs).dependents lnD = [] := by
  refine dependents_nil (fun v hv m hm a ha => ?_)
  rw [List.mem_singleton.1 hv] at hm ha
  rw [(deps_venT todo).1] at hm
  rw [List.mem_singleton.1 hm] at ha
  rw [(deps_venT todo).2.1 a ha]
  decide +kernel

/-- A source step; destination steps of a vmat, a vdrop, a copy performed, one that joins its entry, one into the last byte of a share. -/
theorem witness_CopyEvents_steps :
    let src := { cpT 0 with srcTodo := [lnS], snaps := [] }
    let bank := { cpT 4 with banks := [(2, 0, 262144 - 128)], dstTodo := [], dst := [], coff := some 0 }
    let s := sC [cpT 0] [] []
    let j := sC [cpT 0] [venT [lnD]] []
    (((sC [src] [] []).unvia 60).copy? 60 = some src ∧ lnS ∈ src.srcTodo ∧ (sC [src] [] []).owed 0 60 = false ∧ (sC [src] [] []).owner? lnS = none
      ∧ (sC [src] [] []).readable lnS = true ∧ (((sC [src] [] []).unvia 60).copyReq? 60 lnS) = none ∧ (sC [src] [] []).budget? lnS = none
      ∧ (sC [src] [] []).dstOf lnS = none ∧ (sC [src] [] []).atHand lnS = some ⟨[(5, 7)], 0#32⟩)
    ∧ (s.copy? 60 = some (cpT 0) ∧ (cpT 0).out = true ∧ (cpT 0).srcTodo = [] ∧ s.owed 0 60 = false ∧ (cpT 0).banks = [] ∧ lnD ∈ (cpT 0).dstTodo
      ∧ s.owner? lnD = none ∧ s.waiting lnD = false ∧ s.copyReq? 60 lnD = none ∧ (cpT 0).ops.op ≤ 2 ∧ s.dependents lnD = [] ∧ s.depsLeft lnD true = false
      ∧ s.budget? lnD = none ∧ s.dstOf lnD = none ∧ s.joining (cpT 0) lnD = none ∧ (s.stepDeps (cpT 0) lnD).all s.near = true)
    ∧ ((sC [cpT 5] [venT []] []).copy? 60 = some (cpT 5) ∧ (cpT 5).ops.op = 5 ∧ (sC [cpT 5] [venT []] []).dstOf lnD = some (venT [])
      ∧ ((sC [cpT 5] [venT []] []).stepDeps (cpT 5) lnD).all (sC [cpT 5] [venT []] []).near = true)
    ∧ ((sC [cpT 6] [venT []] []).copy? 60 = some (cpT 6) ∧ (cpT 6).ops.op = 6 ∧ (sC [cpT 6] [venT []] []).budget? lnD = none
      ∧ ((sC [cpT 6] [venT []] []).stepDeps (cpT 6) lnD).all (sC [cpT 6] [venT []] []).near = true)
    ∧ (j.copy? 60 = some (cpT 0) ∧ (j.stepDeps (cpT 0) lnD).all j.near = true ∧ j.dependents lnD = [] ∧ j.depsLeft lnD true = false ∧ j.dstOf lnD = none ∧ j.joining (cpT 0) lnD = some (venT [lnD]) ∧ lnD ∉ (cpT 0).perform
      ∧ (((cpT 0).lineBytes lnD).1.all (fun b => (j.resolved (venT [lnD]) lnD).get b.1 == b.2)) = true)
    ∧ ((sC [bank] [] []).copy? 60 = some bank ∧ bank.banks.find? (fun b => b.2.1 == 0) = some (2, 0, 262144 - 128)
      ∧ (sC [bank] [] []).spadByte 2 0 (262144 - 128) = some (0, 262144 - 128) ∧ Memory.wf ((sC [bank] [] []).core 0).spad = true) := by
  refine ⟨?_, ?_, ?_, ?_, ⟨?_, ?_, deps_lnD, ?_⟩, ?_⟩ <;> decide +kernel

/-- A materialised line is in no entry any more. -/
theorem witness_CopyEvents_vmat : ((sC [cpT 5] [venT []] []).materialise lnD 3 20).dstOf lnD = none := by decide +kernel

/-- A fill whose source has to be read, and one that has it; a line that a write waits for, and a hot entry; the wait over. -/
theorem witness_CopyEvents_fills :
    let rd := reqT lnD (.read 2 [] none)
    let wr := { reqT lnS (.write [(lnS * 128, 1)]) with st := .mat }
    let f : VFill := ⟨lnD, [(lnS, ⟨[(5, 7)], 0#32⟩)]⟩
    let s := sC [] [venT []] [rd]
    let g := { s with home := { s.home with filling := [f] } }
    let w := sC [] [venT []] [wr]
    let h := sC [] [{ venT [] with promoting := true }] []
    let d := sC [] [] [wr]
    let b := { d with home := { d.home with budget := [{ budT 2 with line := lnS }] } }
    (s.dstOf lnD = some (venT []) ∧ s.fillWanted lnD = true ∧ lnS ∈ (venT []).deps lnD ∧ s.readable lnS = true ∧ s.owner? lnS = none
      ∧ s.held lnS = some ⟨[(5, 7)], 0#32⟩)
    ∧ (g.dstOf lnD = some (venT []) ∧ g.home.filling.find? (fun f => f.line == lnD) = some f ∧ ∀ d, d ∈ (venT []).deps lnD → ∃ y, y ∈ f.got ∧ y.1 = d)
    ∧ (w.waiting lnD = false ∧ w.dstOf lnD = some (venT []) ∧ wr ∈ w.home.reqs ∧ wr.tgt = .mem ∧ wr.st = .mat ∧ w.ripe lnD = true ∧ lnD ∈ w.joinedDependents lnS)
    ∧ (h.home.veneers.find? (fun v => v.idx == 9 && v.promoting) = some { venT [] with promoting := true }
      ∧ ({ venT [] with promoting := true } : Veneer).lines.find? (fun m => ({ venT [] with promoting := true } : Veneer).isDst m) = some lnD
      ∧ h.waiting lnD = false ∧ h.ripe lnD = true)
    ∧ (d.req? 50 = some wr ∧ d.depsLeft lnS wr.isCopy = false ∧ d.budget? lnS = none)
    ∧ (b.req? 50 = some wr ∧ b.depsLeft lnS wr.isCopy = false ∧ b.budget? lnS = some { budT 2 with line := lnS }) := by
  have src : lnS ∈ (venT []).deps lnD := mem_deps.2 (deps_venT []).2.2
  refine ⟨⟨?_, ?_, src, ?_, ?_, ?_⟩, ⟨?_, ?_, fun d hd => ⟨_, .head _, ?_⟩⟩, ⟨?_, ?_, .head _, rfl, rfl, ?_, ?_⟩, ?_, ?_, ?_⟩
  case refine_8 => obtain ⟨a, ha, e⟩ := mem_deps.1 hd; exact ((deps_venT []).2.1 a ha).symm.trans e
  case refine_12 =>
    refine List.mem_filter.2 ⟨mem_dependents.2 ⟨venT [], .head _, List.not_mem_nil, ?_, src⟩, by decide +kernel⟩
    rw [(deps_venT []).1]
    exact .head _
  all_goals decide +kernel

/-- A count and an error mark owed. -/
theorem witness_CopyEvents_counts :
    let k : Count := ⟨70, .spad 2 0 0, 128, false, 0, 60⟩
    let s := fun (k : Count) => { sF with home := { sF.home with counts := [k] } }
    (s k).home.counts.find? (fun x => x.id == 70) = some k ∧ k.err = false ∧ (s k).hubOk false k.loc.lines = true
    ∧ (s { k with err := true }).home.counts.find? (fun x => x.id == 70) = some { k with err := true } := ⟨rfl, rfl, rfl, rfl⟩

/-! ## Single steps: results the manual states -/

/-- v1, v2, v3 of lane 0, and lane 0 alone active. -/
def slatV (a b c : W32) : Slat :=
  let t : Slat := (((t1.vput 1 0 a false).vput 2 0 b false).vput 3 0 c false)
  { t with split := [(0, { t.ent 0 with mask := 1#32 })] }

/-- v4 of lane 0 after an instruction. -/
def v4after (i : Instr) (t : Slat) : Option W32 := match exec i (with1 t u1) with
  | .next s => (s.slat? 3).map (fun t => t.vget 4 0)
  | .fault _ => none
  | .refused _ => none

def rV (m : Mod) : ROp := { r0 with dst := 4, a := .v 1, b := .v 2, c := .v 3, m := m }
/-- R71: FP32 to E4M3 with a rounding and an overflow mode. -/
def toE4 (rnd ovf : BitVec 2) (ftz : Bool) (x : W32) : Option W32 := v4after (.fcvt (rV ⟨11, rnd, ftz, ovf, 8⟩)) (slatV x 0 0)

/-- The table after R71: 0.3, 464, 465, -1000, 2^-10, 3 * 2^-10, NaN. -/
theorem test_step_fcvt_table :
    toE4 0 0 false 0x3E99999A#32 = some 0x2A ∧ toE4 1 0 false 0x3E99999A#32 = some 0x29 ∧ toE4 0 0 false 0x43E80000#32 = some 0x7E
    ∧ toE4 0 1 false 0x43E88000#32 = some 0x7E ∧ toE4 0 2 false 0x43E88000#32 = some 0x7F ∧ toE4 1 1 false 0x43E88000#32 = some 0x7E
    ∧ toE4 0 1 false 0xC47A0000#32 = some 0xFE ∧ toE4 0 0 false 0x3A800000#32 = some 0x00 ∧ toE4 2 0 false 0x3A800000#32 = some 0x01
    ∧ toE4 0 0 false 0x3B400000#32 = some 0x02 ∧ toE4 1 0 false 0x3B400000#32 = some 0x01 ∧ toE4 0 0 true 0x3B400000#32 = some 0x00
    ∧ toE4 0 0 false 0x7FC00000#32 = some 0x7F := by
  refine ⟨?_, ?_, ?_, ?_, ?_, ?_, ?_, ?_, ?_, ?_, ?_, ?_, ?_⟩ <;> decide +kernel

/-- R126: the majority of three is k = 0x70; a select of b where a is 1, else c, is k = 0x38. -/
theorem test_step_lgf :
    v4after (.lgf (rV ⟨0, 0, true, 3, 0⟩)) (slatV 0xFF00F0F0#32 0x0FF0FF00#32 0x00FFFF0F#32) = some 0x0FF0FF00
    ∧ v4after (.lgf (rV ⟨0, 0, false, 3, 8⟩)) (slatV 0xFF00F0F0#32 0x12345678#32 0xABCDEF01#32) = some 0x12CD5F71 := by
  refine ⟨?_, ?_⟩ <;> decide +kernel

/-- R130: c = 0x04050607 writes b with its bytes reversed; c = 0x18181800 sign-extends byte 0 of a. -/
theorem test_step_bmix :
    v4after (.bmix (rV m0)) (slatV 0xAABBCCDD#32 0x11223344#32 0x04050607#32) = some 0x44332211
    ∧ v4after (.bmix (rV m0)) (slatV 0x00000080#32 0x11223344#32 0x18181800#32) = some 0xFFFFFF80 := by
  refine ⟨?_, ?_⟩ <;> decide +kernel

/-- The text before R135: ffma.rd of 1.0, -1.0 and 1.0 gives -0; R137: frnd.rne of -0.3 gives -0. -/
theorem test_step_signed_zero :
    v4after (.ffma (rV ⟨0, 3, false, 0, 0⟩)) (slatV 0x3F800000#32 0xBF800000#32 0x3F800000#32) = some 0x80000000
    ∧ v4after (.frnd (rV m0)) (slatV 0xBE99999A#32 0 0) = some 0x80000000 := by
  refine ⟨?_, ?_⟩ <;> decide +kernel

/-- R125, R128: |-2^31| is 0x80000000 unless .sat; clz of 0 is 32. -/
theorem test_step_iabs_clz :
    v4after (.iabs (rV m0)) (slatV 0x80000000#32 0 0) = some 0x80000000 ∧ v4after (.iabs (rV { m0 with ovf := 1 })) (slatV 0x80000000#32 0 0) = some 0x7FFFFFFF
    ∧ v4after (.clz (rV m0)) (slatV 0 0 0) = some 32 := by
  refine ⟨?_, ?_, ?_⟩ <;> decide +kernel

/-- R77's example: a float lred over lanes that hold 1.0, 2^24, 1.0 and -2^24 gives every lane 1.0. -/
theorem test_step_lred :
    let t : Slat := { (((t1.vput 1 0 0x3F800000 false).vput 1 1 0x4B800000 false).vput 1 2 0x3F800000 false).vput 1 3 0xCB800000 false with width := 4 }
    let i : Instr := .lred { r0 with dst := 4, a := .v 1, m := { m0 with fmt := 8 } }
    (match exec i (with1 t u1) with
      | .next s => (s.slat? 3).elim false (fun t => (List.range 4).all (fun l => t.vget 4 l == 0x3F800000#32))
      | .fault _ => false
      | .refused _ => false) = true := by decide +kernel

/-- The example after R181: what write slot 64 sends for is read in slot 16 of the next frame. -/
theorem test_read_table : (readTable ((List.range 128).map (fun k => if k % 32 = 0 ∧ k < 128 then 3 else 31)))[16]? = some 3 := by decide

/-- The example after R230: a BF16 1.0 scaled by 512.0 to E4M3 is 0x7E, or 0x7F under .nan. -/
theorem test_veneer_conversion :
    let x : Xform := ⟨2, 0, 0, 0, 10, 11, 0, 0, 0x44000000#32⟩
    x.elem [0x80, 0x3F] = [0x7E] ∧ ({ x with ovf := 2 } : Xform).elem [0x80, 0x3F] = [0x7F] := by
  refine ⟨?_, ?_⟩ <;> decide +kernel

end Sys2Proof.Tests
end

section
/-! SUPPORT. Control registers: what srd and swr do at and above the slat's level, and O13. -/

namespace Sys2Proof.Machine

open Sys2Proof

theorem aboveLevel_iff {level n : Nat} : aboveLevel level n = true ↔ 1024 ≤ n ∨ (256 ≤ n ∧ level = 0) := by
  simp [aboveLevel]

section Levels

variable {s : State} {t : Slat} {u : Issue} {o : IOp}

/-- srd of a register the slat's level reaches gives what the register holds (R103). -/
theorem srd_gives (hf : s.frag = some (t, u)) (hg : t.qHolds o.h = true) (ha : aboveLevel t.level o.imm.toNat = false) :
    ScalarGives (.srd o) s t u o.dst.toNat (s.special t u o.imm.toNat) :=
  ScalarGives.of (by
    show scaDo s o.h [] _ = _
    rw [scaDo_next _ hf hg (by simp)]
    simp only [ha]
    rfl)

/-- srd above the slat's level aborts the clause with PRIV, reason 1 (R104). -/
theorem srd_above (hf : s.frag = some (t, u)) (hg : t.qHolds o.h = true) (ha : aboveLevel t.level o.imm.toNat = true) :
    exec (.srd o) s = .next (s.abortAlu t u (u.cause 3 1 0)) := by
  show scaDo s o.h [] _ = _
  rw [scaDo_next _ hf hg (by simp)]
  simp only [ha]
  rfl

/-- swr above the slat's level does the same. -/
theorem swr_above (hf : s.frag = some (t, u)) (hg : t.qHolds o.h = true) (hp : (t.srcS o.a).2 = false)
    (ha : aboveLevel t.level o.imm.toNat = true) : exec (.swr o) s = .next (s.abortAlu t u (u.cause 3 1 0)) := by
  show scaDo s o.h [o.a] _ = _
  rw [scaDo_next _ hf hg (by simpa using hp)]
  simp only [ha]
  rfl

/-- The slat and the clause after a swr of register n. -/
def swrEffect (t : Slat) (u : Issue) (a : W64) : Nat → Slat × Issue
  | 0x00B => ({ t with slim := a }, u)
  | 0x010 => ({ t with tvec := a }, u)
  | 0x012 => ({ t with tepc := a }, u)
  | 0x150 => (t, { u with fres := u.fres ++ [a] })
  | _ => (t, u)

/-- swr of a register the slat's level reaches has that register's effect and no other (R109). -/
theorem swr_completes (hf : s.frag = some (t, u)) (hg : t.qHolds o.h = true) (hp : (t.srcS o.a).2 = false)
    (ha : aboveLevel t.level o.imm.toNat = false) {n : Nat} (hn : o.imm.toNat = n) :
    Completes (.swr o) s (swrEffect t u (t.srcS o.a).1 n).1 (swrEffect t u (t.srcS o.a).1 n).2 := by
  show scaDo s o.h [o.a] _ = _
  rw [scaDo_next _ hf hg (by simpa using hp)]
  simp only [hn, hn ▸ ha, Bool.false_eq_true, if_false]
  unfold swrEffect
  split <;> simp only [*]

end Levels

theorem special_eq {s : State} {t : Slat} {u : Issue} {n k : Nat} {x : W64} (hn : n = k) (hx : s.special t u k = x) :
    s.special t u n = x := by rw [hn, hx]

theorem special_toNat {s : State} {t : Slat} {u : Issue} {n k x : Nat} (hn : n = k) (hx : s.special t u k = BitVec.ofNat 64 x) :
    (s.special t u n).toNat = x % 2 ^ 64 := by rw [special_eq hn hx, BitVec.toNat_ofNat]

/-- The lowest lane of a mask heads its list of lanes. -/
theorem laneList_headD {m : W32} {l : Nat} (hl : l < 32) (hm : m.getLsbD l = true) (hk : ∀ k, k < l → m.getLsbD k = false) :
    (laneList m).headD 0 = l := by
  have hfind : (List.range 32).find? (fun k => m.getLsbD k) = some l := by
    rw [List.find?_range_eq_some]
    exact ⟨hm, List.mem_range.2 hl, fun k h => by simp [hk k h]⟩
  rw [List.headD_eq_head?_getD, laneList, upTo, List.head?_filter, hfind, Option.getD_some]

/-- A team's row of special registers, %team, %rank and %grank, where the slat's team is known. -/
theorem special_team {s : State} {t : Slat} {m : Team} (hm : s.team? t.team = some m) (u : Issue) :
    s.special t u 3 = BitVec.ofNat 64 m.idx ∧ s.special t u 5 = BitVec.ofNat 64 m.grank
      ∧ s.special t u 4 = BitVec.ofNat 64 (m.cores.findIdx (fun c => c.1 == t.core)) := by
  simp [State.special, State.rank, Team.rankOf, hm]

theorem State.cyc_later (s : State) (core d : Nat) : ({ s with now := s.now + d } : State).cyc core = s.cyc core + d := by
  simp only [State.cyc, Nat.add_assoc]

/-- Settles O13: srd by cases on the register it reads, swr by the effect of the register it writes; both abort above the level. -/
theorem controlRegisters : Obligations.ControlRegisters := by
  unfold Obligations.ControlRegisters
  intro s t u o hf hg n above
  have level : ¬ above → aboveLevel t.level n = false := fun h => Bool.eq_false_iff.2 (fun e => h (aboveLevel_iff.1 e))
  refine ⟨fun h => ⟨_, srd_gives hf hg (level h), ?_⟩, fun h hp => ?_, fun h => srd_above hf hg (aboveLevel_iff.2 h),
    fun h hp => swr_above hf hg hp (aboveLevel_iff.2 h)⟩
  · refine ⟨fun e => special_eq e rfl, fun e => special_toNat e rfl, fun e => special_toNat e rfl, fun e => special_toNat e rfl,
      fun e => special_toNat e rfl, fun e => special_eq e rfl, fun e => special_eq e rfl, fun e => special_toNat e rfl,
      fun e => special_eq e rfl, fun e => special_eq e rfl, fun e => special_eq e rfl, fun e => special_eq e rfl, fun m hm => ?_,
      fun e => ⟨special_toNat e rfl, s.cyc_later t.core⟩,
      ⟨fun e => special_toNat e rfl, fun e => special_toNat e rfl, fun e => special_toNat e rfl, fun e => special_toNat e rfl,
        fun e => special_toNat e rfl, fun e => special_toNat e rfl, fun e => special_toNat e rfl⟩, fun e l hl hm hk => ?_⟩
    · obtain ⟨hidx, hgrank, hrank⟩ := special_team hm u
      exact ⟨fun e => special_toNat e hidx, fun e => special_toNat e hgrank, fun e => special_toNat e hrank⟩
    · have lowest := special_toNat (s := s) (t := t) (u := u) e rfl
      rw [lowest, laneList_headD hl hm hk]
      omega
  · have reached {k : Nat} (e : n = k) := swr_completes hf hg hp (level h) e
    exact ⟨reached, reached, reached, reached⟩

end Sys2Proof.Machine
end

section
/-! SUPPORT. The register spaces: what a write to a register leaves at it and at every other. -/

namespace Sys2Proof.Machine

open Sys2Proof

/-! ## Fields of a dword -/

/-- A mask in two parts selects in two parts. -/
theorem and_mask_split (n a k b : Nat) (hb : b < 2 ^ k) : n &&& (2 ^ k * a + b) = 2 ^ k * (n / 2 ^ k &&& a) + (n % 2 ^ k &&& b) := by
  have hlow : n % 2 ^ k &&& b < 2 ^ k := Nat.lt_of_le_of_lt Nat.and_le_right hb
  refine Nat.eq_of_testBit_eq (fun i => ?_)
  rw [Nat.testBit_and, Nat.testBit_two_pow_mul_add _ hb, Nat.testBit_two_pow_mul_add _ hlow]
  split
  · next h => simp [h]
  · next h => simp [Nat.testBit_div_two_pow, Nat.sub_add_cancel (Nat.le_of_not_lt h)]

/-- A number is the part of a dword that a mask selects. -/
theorem ofNat_eq_and {x : Nat} {v mask : W64} (h : x = v.toNat &&& mask.toNat) : BitVec.ofNat 64 x = v &&& mask := by
  rw [h, ← BitVec.toNat_and, BitVec.ofNat_toNat, BitVec.setWidth_eq]

theorem ofNat_toNat_all (v : W64) : BitVec.ofNat 64 v.toNat = v &&& -1#64 := by
  rw [BitVec.ofNat_toNat, BitVec.setWidth_eq]
  exact (BitVec.and_allOnes).symm

/-- A low field is what a mask of ones selects. -/
theorem natField_low_and (n k : Nat) : natField n k 0 = n &&& (2 ^ (k + 1) - 1) := by
  rw [Nat.and_two_pow_sub_one_eq_mod]
  rfl

theorem flag_testBit (n k j : Nat) : flag (n.testBit k) j = n / 2 ^ k % 2 * 2 ^ j := by
  rw [Nat.testBit_eq_decide_div_mod_eq]
  rcases Nat.mod_two_eq_zero_or_one (n / 2 ^ k) with h | h <;> simp [flag, h]

/-! The dwords with fields, as they read after a write. -/

theorem Window.word_setWord_zero (w : Window) (v : W64) : BitVec.ofNat 64 ((w.setWord 0 v).word 0) = v &&& 0xC00000000000FFFF#64 := by
  refine ofNat_eq_and ?_
  have hm := and_mask_split v.toNat 3 62 0xFFFF (by decide)
  rw [Nat.and_two_pow_sub_one_eq_mod _ 2, Nat.and_two_pow_sub_one_eq_mod _ 16] at hm
  simp only [Window.setWord, Window.word, ← BitVec.testBit_toNat, flag_testBit, natField, Nat.shiftRight_eq_div_pow]
  have hv := v.isLt
  show _ = v.toNat &&& (2 ^ 62 * 3 + 0xFFFF)
  omega

theorem Group.word_setWord_zero (g : Group) (v : W64) : BitVec.ofNat 64 ((g.setWord 0 v).word 0) = v &&& 0x8003FFFFFFFFFFFF#64 := by
  refine ofNat_eq_and ?_
  have hm := and_mask_split v.toNat 1 63 (2 ^ 50 - 1) (by decide)
  rw [Nat.and_two_pow_sub_one_eq_mod _ 1, Nat.and_two_pow_sub_one_eq_mod _ 50] at hm
  simp only [Group.setWord, Group.word, flag_testBit, natField, Nat.shiftRight_eq_div_pow]
  have hv := v.isLt
  show _ = v.toNat &&& (2 ^ 63 * 1 + (2 ^ 50 - 1))
  omega

theorem Group.word_setWord_one (g : Group) (v : W64) : BitVec.ofNat 64 ((g.setWord 1 v).word 1) = v &&& 0xFFFFFFFF000000FF#64 := by
  refine ofNat_eq_and ?_
  have hm := and_mask_split v.toNat (2 ^ 32 - 1) 32 (2 ^ 8 - 1) (by decide)
  rw [Nat.and_two_pow_sub_one_eq_mod _ 32, Nat.and_two_pow_sub_one_eq_mod _ 8] at hm
  simp only [Group.setWord, Group.word, natField, Nat.shiftRight_eq_div_pow]
  have hv := v.isLt
  show _ = v.toNat &&& (2 ^ 32 * (2 ^ 32 - 1) + (2 ^ 8 - 1))
  omega

/-- What holds of each two of four dwords, by the one written. -/
theorem two_of_four {P : Nat → Nat → Prop} (h0 : P 1 0 ∧ P 2 0 ∧ P 3 0) (h1 : P 0 1 ∧ P 2 1 ∧ P 3 1) (h2 : P 0 2 ∧ P 1 2 ∧ P 3 2)
    (h3 : P 0 3 ∧ P 1 3 ∧ P 2 3) {i j : Nat} (hi : i < 4) (hj : j < 4) (h : i ≠ j) : P i j := by
  obtain rfl | rfl | rfl | rfl : j = 0 ∨ j = 1 ∨ j = 2 ∨ j = 3 := by omega
  · obtain rfl | rfl | rfl : i = 1 ∨ i = 2 ∨ i = 3 := by omega
    · exact h0.1
    · exact h0.2.1
    · exact h0.2.2
  · obtain rfl | rfl | rfl : i = 0 ∨ i = 2 ∨ i = 3 := by omega
    · exact h1.1
    · exact h1.2.1
    · exact h1.2.2
  · obtain rfl | rfl | rfl : i = 0 ∨ i = 1 ∨ i = 3 := by omega
    · exact h2.1
    · exact h2.2.1
    · exact h2.2.2
  · obtain rfl | rfl | rfl : i = 0 ∨ i = 1 ∨ i = 2 := by omega
    · exact h3.1
    · exact h3.2.1
    · exact h3.2.2

/-- A dword written to a window leaves its others. -/
theorem Window.word_setWord_other (w : Window) {i j : Nat} (v : W64) (hi : i < 4) (hj : j < 4) (h : i ≠ j) :
    (w.setWord j v).word i = w.word i :=
  two_of_four (P := fun i j => (w.setWord j v).word i = w.word i) ⟨rfl, rfl, rfl⟩ ⟨rfl, rfl, rfl⟩ ⟨rfl, rfl, rfl⟩ ⟨rfl, rfl, rfl⟩ hi hj h

/-- A dword written to a group leaves its others. -/
theorem Group.word_setWord_other (g : Group) {i j : Nat} (v : W64) (hi : i < 4) (hj : j < 4) (h : i ≠ j) :
    (g.setWord j v).word i = g.word i :=
  two_of_four (P := fun i j => (g.setWord j v).word i = g.word i) ⟨rfl, rfl, rfl⟩ ⟨rfl, rfl, rfl⟩ ⟨rfl, rfl, rfl⟩ ⟨rfl, rfl, rfl⟩ hi hj h

/-- FN_CTL's en, part and ways (R360). -/
theorem fnCtl_fields (n : Nat) : flag (n.testBit 30) 30 + natField n 17 16 * 2 ^ 16 + natField n 15 0 = n &&& 0x4003FFFF := by
  have hm := and_mask_split n 1 30 (2 ^ 18 - 1) (by decide)
  rw [Nat.and_two_pow_sub_one_eq_mod _ 1, Nat.and_two_pow_sub_one_eq_mod _ 18] at hm
  simp only [flag_testBit, natField, Nat.shiftRight_eq_div_pow]
  show _ = n &&& (2 ^ 30 * 1 + (2 ^ 18 - 1))
  omega

/-! ## The staging table -/

/-- An entry of the staging table as a write leaves it: bits [6:5] are zero. -/
def stageByte (b : Nat) : Nat := b / 128 * 128 + b % 32

/-- Eight bytes of the staging table as a dword. -/
def stageDword (m : List (Nat × Nat)) (a : Nat) : Nat := (List.range 8).foldl (fun n i => n + sget 0 m (a + i) * 256 ^ i) 0

/-- The number of which f gives the k lowest bytes. -/
def byteSum (f : Nat → Nat) : Nat → Nat
  | 0 => 0
  | k + 1 => byteSum f k + f k * 256 ^ k

theorem byteSum_congr {f g : Nat → Nat} : ∀ {k : Nat}, (∀ i, i < k → f i = g i) → byteSum f k = byteSum g k
  | 0, _ => rfl
  | k + 1, h => by rw [byteSum, byteSum, byteSum_congr (fun i hi => h i (Nat.lt_succ_of_lt hi)), h k (Nat.lt_succ_self k)]

/-- The lowest byte taken off. -/
theorem byteSum_low (f : Nat → Nat) : ∀ k, byteSum f (k + 1) = 256 * byteSum (fun i => f (i + 1)) k + f 0
  | 0 => by rw [byteSum, byteSum, byteSum, Nat.pow_zero, Nat.mul_one, Nat.mul_zero]
  | k + 1 => by
    rw [byteSum, byteSum_low f k, byteSum, Nat.pow_succ, ← Nat.mul_assoc]
    omega

theorem foldl_eq_byteSum (f : Nat → Nat) : ∀ k, (List.range k).foldl (fun n i => n + f i * 256 ^ i) 0 = byteSum f k
  | 0 => rfl
  | k + 1 => by rw [List.range_succ, List.foldl_append, foldl_eq_byteSum f k, List.foldl_cons, List.foldl_nil, byteSum]

theorem stageDword_eq_byteSum (m : List (Nat × Nat)) (a : Nat) : stageDword m a = byteSum (fun i => sget 0 m (a + i)) 8 :=
  foldl_eq_byteSum (fun i => sget 0 m (a + i)) 8

/-- A dword written to the staging table. -/
def stagePut (m : List (Nat × Nat)) (a n : Nat) : List (Nat × Nat) :=
  (List.range 8).foldl (fun m i => sput m (a + i) (stageByte (n / 256 ^ i % 256))) m

/-- Entries written in turn, read. -/
theorem sget_foldl_sput {β : Type} (d : β) (m : List (Nat × β)) (a : Nat) (f : Nat → β) (j : Nat) : ∀ n,
    sget d ((List.range n).foldl (fun m i => sput m (a + i) (f i)) m) j = if a ≤ j ∧ j < a + n then f (j - a) else sget d m j
  | 0 => by rw [if_neg (by omega)]; rfl
  | n + 1 => by
    rw [List.range_succ, List.foldl_append, List.foldl_cons, List.foldl_nil]
    by_cases h : j = a + n
    · subst h
      simp
    · rw [sget_sput_other _ _ _ _ _ h, sget_foldl_sput d m a f j n]
      exact ite_congr (propext (by omega)) (fun _ => rfl) (fun _ => rfl)

theorem stageDword_stagePut_other (m : List (Nat × Nat)) {a b : Nat} (n : Nat) (h : b + 8 ≤ a ∨ a + 8 ≤ b) :
    stageDword (stagePut m a n) b = stageDword m b := by
  rw [stageDword_eq_byteSum, stageDword_eq_byteSum]
  refine byteSum_congr (fun i hi => ?_)
  rw [stagePut, sget_foldl_sput, if_neg (by omega)]

/-- A mask whose lowest byte is that of a staging entry. -/
theorem and_stageMask (n a : Nat) : n &&& (256 * a + 0x9F) = 256 * (n / 256 &&& a) + stageByte (n % 256) := by
  have hbyte : n % 256 &&& 0x9F = 128 * (n % 256 / 128 &&& 1) + (n % 256 % 128 &&& 31) := and_mask_split (n % 256) 1 7 31 (by decide)
  rw [Nat.and_two_pow_sub_one_eq_mod _ 1, Nat.and_two_pow_sub_one_eq_mod _ 5] at hbyte
  calc n &&& (256 * a + 0x9F) = 256 * (n / 256 &&& a) + (n % 256 &&& 0x9F) := and_mask_split n a 8 0x9F (by decide)
    _ = 256 * (n / 256 &&& a) + stageByte (n % 256) := by
      rw [hbyte, stageByte]
      omega

/-- The writable bits of k entries of the staging table. -/
def stageMask : Nat → Nat
  | 0 => 0
  | k + 1 => 256 * stageMask k + 0x9F

/-- Entry by entry, a write keeps what the mask selects. -/
theorem and_stageMask_eq_byteSum : ∀ k n, n &&& stageMask k = byteSum (fun i => stageByte (n / 256 ^ i % 256)) k
  | 0, n => Nat.and_zero n
  | k + 1, n => by
    have shift : ∀ i, i < k → stageByte (n / 256 / 256 ^ i % 256) = stageByte (n / 256 ^ (i + 1) % 256) := fun i _ => by
      rw [Nat.div_div_eq_div_mul, Nat.pow_succ, Nat.mul_comm]
    rw [stageMask, and_stageMask, and_stageMask_eq_byteSum k, byteSum_low, byteSum_congr shift, Nat.pow_zero, Nat.div_one]

theorem stageDword_stagePut_same (m : List (Nat × Nat)) (a n : Nat) : stageDword (stagePut m a n) a = n &&& 0x9F9F9F9F9F9F9F9F := by
  calc stageDword (stagePut m a n) a = byteSum (fun i => stageByte (n / 256 ^ i % 256)) 8 := by
        rw [stageDword_eq_byteSum]
        refine byteSum_congr (fun i hi => ?_)
        rw [stagePut, sget_foldl_sput, if_pos (by omega), Nat.add_sub_cancel_left]
    _ = n &&& stageMask 8 := (and_stageMask_eq_byteSum 8 n).symm
    _ = n &&& 0x9F9F9F9F9F9F9F9F := congrArg (n &&& ·) (show stageMask 8 = 0x9F9F9F9F9F9F9F9F by decide)

/-! ## The two parts of a space -/

/-- Where a function's own registers stand, those of the physical function alone left out. -/
def OwnOff (off : Nat) : Prop :=
  0x4400 ≤ off ∧ off < 0x18000 ∧ off ≠ 0x4440 ∧ off ≠ 0x4500 ∧ off ≠ 0x4840 ∧ off ≠ 0x4880 ∧ off ≠ 0x48A0

/-- Where registers of the physical function alone stand. -/
def PhysOff (off : Nat) : Prop := off < 0x4400 ∨ 0x18000 ≤ off

section Spaces

variable {s : State} {fn off : Nat} {v : W64}

theorem readPhys_own (h : OwnOff off) : s.readPhys off = 0 := by
  unfold OwnOff at h
  unfold State.readPhys
  simp (disch := omega) only [if_neg]

theorem readOwn_phys (h : PhysOff off) : s.readOwn fn off = 0 := by
  unfold PhysOff at h
  unfold State.readOwn
  simp (disch := omega) only [if_neg]

theorem writePhys_own (h : OwnOff off) : s.writePhys off v = s := by
  unfold OwnOff at h
  unfold State.writePhys
  simp (disch := omega) only [if_neg]

theorem writeOwn_phys (h : PhysOff off) : s.writeOwn fn off v = s := by
  unfold PhysOff at h
  unfold State.writeOwn
  simp (disch := omega) only [if_neg]

theorem registerWrite_own (ho : s.open_ fn = true) (h8 : off % 8 = 0) (h : OwnOff off) :
    exec (.registerWrite fn off v) s = .next (s.writeOwn fn off v) := by
  show execRegisterWrite fn off v s = _
  simp [execRegisterWrite, ho, h8, writePhys_own h]

theorem registerWrite_phys (ho : s.open_ 0 = true) (h8 : off % 8 = 0) (h : PhysOff off) :
    exec (.registerWrite 0 off v) s = .next (s.writePhys off v) := by
  show execRegisterWrite 0 off v s = _
  simp [execRegisterWrite, ho, h8, writeOwn_phys h]

theorem readReg_own (ho : s.open_ fn = true) (h : OwnOff off) : s.readReg fn off = BitVec.ofNat 64 (s.readOwn fn off) := by
  have hb : off ≠ 0x4880 := by unfold OwnOff at h; omega
  simp [State.readReg, ho, readPhys_own h, hb]

theorem readReg_phys (ho : s.open_ 0 = true) (h : PhysOff off) : s.readReg 0 off = BitVec.ofNat 64 (s.readPhys off) := by
  have hb : off ≠ 0x4880 := by unfold PhysOff at h; omega
  simp [State.readReg, ho, readOwn_phys h, hb]

theorem readReg_congr {s' : State} (hb : s'.boot = s.boot) (ho : s'.open_ fn = s.open_ fn) (hp : fn = 0 → s'.readPhys off = s.readPhys off)
    (hw : s'.readOwn fn off = s.readOwn fn off) : s'.readReg fn off = s.readReg fn off := by
  unfold State.readReg
  rw [hb, ho, hw]
  by_cases h : fn = 0
  · rw [hp h]
  · simp only [h, if_false]

end Spaces

/-- A write that changes the controller, the functions and the queues alone. -/
def RegFrame (s s' : State) : Prop := s' = { s with stc := s'.stc, hub := { s.hub with fns := s'.hub.fns, queues := s'.hub.queues } }

theorem RegFrame.boot {s s' : State} (h : RegFrame s s') : s'.boot = s.boot := by rw [h]

/-- A dword written to a register reads back under a mask, and every other register of the space reads as before. -/
def Keeps (s : State) (fn : Nat) (v : W64) (off : Nat) (mask : W64) : Prop :=
  Yields (.registerWrite fn off v) s (fun s' => s'.readReg fn off = v &&& mask
    ∧ (∀ o, o % 8 = 0 → o ≠ off → s'.readReg fn o = s.readReg fn o) ∧ RegFrame s s')

/-- A write to one of a function's own registers. -/
theorem Keeps.own {s s' : State} {fn off x : Nat} {v mask : W64} (ho : s.open_ fn = true) (h8 : off % 8 = 0) (h : OwnOff off)
    (hs : s.writeOwn fn off v = s') (hf : RegFrame s s') (ho' : s'.open_ fn = s.open_ fn) (hp : ∀ o, o % 8 = 0 → s'.readPhys o = s.readPhys o)
    (hr : ∀ o, o % 8 = 0 → s'.readOwn fn o = if o = off then x else s.readOwn fn o) (hx : BitVec.ofNat 64 x = v &&& mask) :
    Keeps s fn v off mask := by
  refine ⟨s', hs ▸ registerWrite_own ho h8 h, ?_, fun o o8 hne => ?_, hf⟩
  · rw [readReg_own (ho'.trans ho) h, hr off h8, if_pos rfl, hx]
  · exact readReg_congr hf.boot ho' (fun _ => hp o o8) ((hr o o8).trans (if_neg hne))

/-- A write to a register of the physical function alone. -/
theorem Keeps.phys {s s' : State} {off x : Nat} {v mask : W64} (ho : s.open_ 0 = true) (h8 : off % 8 = 0) (h : PhysOff off)
    (hs : s.writePhys off v = s') (hf : RegFrame s s') (ho' : s'.open_ 0 = s.open_ 0) (hw : ∀ o, s'.readOwn 0 o = s.readOwn 0 o)
    (hr : ∀ o, o % 8 = 0 → s'.readPhys o = if o = off then x else s.readPhys o) (hx : BitVec.ofNat 64 x = v &&& mask) :
    Keeps s 0 v off mask := by
  refine ⟨s', hs ▸ registerWrite_phys ho h8 h, ?_, fun o o8 hne => ?_, hf⟩
  · rw [readReg_phys (ho'.trans ho) h, hr off h8, if_pos rfl, hx]
  · exact readReg_congr hf.boot ho' (fun _ => (hr o o8).trans (if_neg hne)) (hw o)

/-! ## Tables of registers -/

/-- One dword of a table changes: F and G give the dword j of entry k before and after, the table stands at b in entries of e bytes. -/
theorem table_put {F G : Nat → Nat → Nat} {b e off : Nat} (he : e = 16 ∨ e = 32) (hb : b % 32 = 0) (hoff : b ≤ off) (h8 : off % 8 = 0)
    (hk : ∀ k j, k ≠ (off - b) / e → G k j = F k j)
    (hj : ∀ j, 8 * j < e → j ≠ off % e / 8 → G ((off - b) / e) j = F ((off - b) / e) j) {o : Nat} (ho : b ≤ o) (o8 : o % 8 = 0) :
    G ((o - b) / e) (o % e / 8) = if o = off then G ((off - b) / e) (off % e / 8) else F ((o - b) / e) (o % e / 8) := by
  by_cases h : o = off
  · rw [if_pos h, h]
  · rw [if_neg h]
    by_cases hi : (o - b) / e = (off - b) / e
    · rw [hi]
      have hd : 8 * (o % e / 8) < e ∧ o % e / 8 ≠ off % e / 8 := by
        rcases he with rfl | rfl <;> omega
      exact hj _ hd.1 hd.2
    · exact hk _ _ hi

/-! ## A function's block -/

/-- The fields of a function's block that its physical registers show, and busy. -/
def Fn.config (x : Fn) : (Bool × Bool × Nat × Nat × Nat × Nat × Nat) × Nat × Nat × Nat :=
  ((x.busy, x.en, x.part, x.ways, x.shq, x.vq, x.thr), x.wdRow, x.wdSlat, x.wdLnch)

/-- A block that differs in its configuration alone. -/
def Fn.SameOwn (x y : Fn) : Prop :=
  x = { y with en := x.en, part := x.part, ways := x.ways, shq := x.shq, vq := x.vq, thr := x.thr, wdRow := x.wdRow, wdSlat := x.wdSlat,
               wdLnch := x.wdLnch }

theorem State.fn_modFn (s : State) (f k : Nat) (g : Fn → Fn) : (s.modFn f g).fn k = if k = f then g (s.fn f) else s.fn k := by
  split
  · next h => rw [h, State.fn_modFn_same]
  · next h => exact s.fn_modFn_other g h

theorem open_modFn {s : State} {f : Nat} {g : Fn → Fn} (hb : (g (s.fn f)).busy = (s.fn f).busy) (k : Nat) : (s.modFn f g).open_ k = s.open_ k := by
  unfold State.open_
  rw [State.fn_modFn, State.modFn_boot]
  split
  · next h => rw [hb, h]
  · rfl

/-- The dwords of a function's watchdog counts (R386). -/
def Fn.wdReg (x : Fn) (j : Nat) : Nat := if j = 0 then x.wdRow * 2 ^ 32 + x.wdSlat else x.wdLnch

theorem readPhys_fnReg (s : State) {o : Nat} (h : 0x20000 ≤ o) (h' : o < 0x20400) :
    s.readPhys o = s.fnReg ((o - 0x20000) / 32) (o % 32 / 8) := by
  unfold State.readPhys
  simp (disch := omega) only [if_neg, if_pos]

theorem readPhys_wdReg (s : State) {o : Nat} (h : 0x20800 ≤ o) (h' : o < 0x20A00) (h8 : o % 8 = 0) :
    s.readPhys o = (s.fn ((o - 0x20800) / 16)).wdReg (o % 16 / 8) := by
  unfold State.readPhys
  simp (disch := omega) only [if_neg, if_pos]
  have hj : o % 16 / 8 = 0 ↔ o % 16 = 0 := by omega
  exact ite_congr (propext hj.symm) (fun _ => rfl) (fun _ => rfl)

/-- Outside the functions' blocks the physical function reads no block. -/
theorem readPhys_modFn_other (s : State) (f : Nat) (g : Fn → Fn) {o : Nat} (h : o < 0x20000 ∨ 0x20A00 ≤ o ∨ (0x20400 ≤ o ∧ o < 0x20800)) :
    (s.modFn f g).readPhys o = s.readPhys o := by
  have hc : ¬ (0x20000 ≤ o ∧ o < 0x20400) := by omega
  have hw : ¬ (0x20800 ≤ o ∧ o < 0x20A00) := by omega
  unfold State.readPhys
  simp only [if_neg hc, if_neg hw]
  rfl

/-- FN_CTL to FN_USE show a block's first fields, and what the function has at the homes. -/
theorem fnReg_congr {s s' : State} {k : Nat} (hc : (s'.fn k).config.1 = (s.fn k).config.1) (hh : s'.home = s.home) (j : Nat) :
    s'.fnReg k j = s.fnReg k j := by
  simp only [Fn.config, Prod.mk.injEq] at hc
  simp only [State.fnReg, State.vused, hc, hh]

theorem Fn.wdReg_congr {x y : Fn} (h : x.config.2 = y.config.2) (j : Nat) : x.wdReg j = y.wdReg j := by
  simp only [Fn.config, Prod.mk.injEq] at h
  simp only [Fn.wdReg, h]

/-- What a block changed in one function shows of any. -/
theorem modFn_shows {β : Type} {s : State} {f : Nat} {g : Fn → Fn} (p : Fn → β) (h : p (g (s.fn f)) = p (s.fn f)) (k : Nat) :
    p ((s.modFn f g).fn k) = p (s.fn k) := by
  rw [State.fn_modFn]
  split
  · next e => rw [h, e]
  · rfl

/-- Outside FN_CTL to FN_USE a change that spares the watchdog counts does not show. -/
theorem readPhys_modFn_ctl {s : State} {f : Nat} {g : Fn → Fn} (hc : (g (s.fn f)).config.2 = (s.fn f).config.2) {o : Nat} (h8 : o % 8 = 0)
    (h : o < 0x20000 ∨ 0x20400 ≤ o) : (s.modFn f g).readPhys o = s.readPhys o := by
  by_cases hwd : 0x20800 ≤ o ∧ o < 0x20A00
  · rw [readPhys_wdReg _ hwd.1 hwd.2 h8, readPhys_wdReg _ hwd.1 hwd.2 h8]
    exact Fn.wdReg_congr (modFn_shows (fun x => x.config.2) hc _) _
  · exact readPhys_modFn_other s f g (by omega)

/-- Outside the watchdog counts a change that spares the other fields does not show. -/
theorem readPhys_modFn_wd {s : State} {f : Nat} {g : Fn → Fn} (hc : (g (s.fn f)).config.1 = (s.fn f).config.1) {o : Nat}
    (h : o < 0x20800 ∨ 0x20A00 ≤ o) : (s.modFn f g).readPhys o = s.readPhys o := by
  by_cases hctl : 0x20000 ≤ o ∧ o < 0x20400
  · rw [readPhys_fnReg _ hctl.1 hctl.2, readPhys_fnReg _ hctl.1 hctl.2]
    exact fnReg_congr (modFn_shows (fun x => x.config.1) hc _) rfl _
  · exact readPhys_modFn_other s f g (by omega)

/-- A block whose configuration stays reads the same to the physical function. -/
theorem readPhys_modFn_config {s : State} {f : Nat} {g : Fn → Fn} (hc : (g (s.fn f)).config = (s.fn f).config) {o : Nat} (h8 : o % 8 = 0) :
    (s.modFn f g).readPhys o = s.readPhys o := by
  by_cases h : o < 0x20800 ∨ 0x20A00 ≤ o
  · exact readPhys_modFn_wd (congrArg Prod.fst hc) h
  · exact readPhys_modFn_ctl (congrArg Prod.snd hc) h8 (by omega)

/-- A change of a block's configuration shows in no function's own registers. -/
theorem readOwn_modFn_config {s : State} {f : Nat} {g : Fn → Fn} (hg : (g (s.fn f)).SameOwn (s.fn f)) (fn o : Nat) :
    (s.modFn f g).readOwn fn o = s.readOwn fn o := by
  have same : ((s.modFn f g).fn fn).SameOwn (s.fn fn) := by
    rw [State.fn_modFn]
    split
    · next h => rw [h]; exact hg
    · rfl
  have hopen : (s.modFn f g).open_ fn = s.open_ fn := open_modFn (by rw [hg]) fn
  unfold State.readOwn State.queueReach
  rw [hopen, same]
  rfl

/-! ## Registers of every function -/

/-- A write that changes a function's own block, its configuration apart. -/
theorem Keeps.ownBlock {s : State} {fn off x : Nat} {v mask : W64} {g : Fn → Fn} (ho : s.open_ fn = true) (h8 : off % 8 = 0) (h : OwnOff off)
    (hs : s.writeOwn fn off v = s.modFn fn g) (hc : (g (s.fn fn)).config = (s.fn fn).config)
    (hr : ∀ o, o % 8 = 0 → (s.modFn fn g).readOwn fn o = if o = off then x else s.readOwn fn o) (hx : BitVec.ofNat 64 x = v &&& mask) :
    Keeps s fn v off mask :=
  Keeps.own ho h8 h hs rfl (open_modFn (congrArg (fun c => c.1.1) hc) fn) (fun _ o8 => readPhys_modFn_config hc o8) hr hx

/-- A register that holds one dword written (R362, R374, R381). -/
def Fn.setDword (f : Fn) (off : Nat) (v : W64) : Fn :=
  match off with
  | 0x4420 => { f with mmBase := v }
  | 0x4428 => { f with mmLen := v }
  | 0x4600 => { f with tdBase := v }
  | 0x4608 => { f with tdLen := v }
  | 0x4700 => { f with jxSrc := v }
  | 0x4708 => { f with jxText := v }
  | 0x4710 => { f with jxData := v }
  | _ => f

/-- Where the registers that hold one dword stand. -/
def dwordOffs : List Nat := [0x4420, 0x4428, 0x4600, 0x4608, 0x4700, 0x4708, 0x4710]

/-- What holds at each of them holds at all. -/
theorem dwordOffs_cases {P : Nat → Prop} (h : P 0x4420 ∧ P 0x4428 ∧ P 0x4600 ∧ P 0x4608 ∧ P 0x4700 ∧ P 0x4708 ∧ P 0x4710) :
    ∀ off, off ∈ dwordOffs → P off := by
  simpa only [dwordOffs, List.forall_mem_cons, List.not_mem_nil, false_imp_iff, implies_true, and_true] using h

theorem dwordOffs_own : ∀ off, off ∈ dwordOffs → off % 8 = 0 ∧ OwnOff off :=
  dwordOffs_cases (by simp [OwnOff])

theorem writeOwn_dword (s : State) (fn : Nat) (v : W64) :
    ∀ off, off ∈ dwordOffs → s.writeOwn fn off v = s.modFn fn (fun f => f.setDword off v) :=
  dwordOffs_cases ⟨rfl, rfl, rfl, rfl, rfl, rfl, rfl⟩

theorem Fn.setDword_config (f : Fn) (off : Nat) (v : W64) : (f.setDword off v).config = f.config := by
  unfold Fn.setDword
  split <;> rfl

theorem readOwn_setDword_same (s : State) (fn : Nat) (v : W64) :
    ∀ off, off ∈ dwordOffs → (s.modFn fn (fun f => f.setDword off v)).readOwn fn off = v.toNat := by
  refine dwordOffs_cases ⟨?_, ?_, ?_, ?_, ?_, ?_, ?_⟩
  all_goals
    unfold State.readOwn
    rw [State.fn_modFn_same]
    rfl

theorem readOwn_setDword_other (s : State) (fn : Nat) (v : W64) {o : Nat} :
    ∀ off, off ∈ dwordOffs → o ≠ off → (s.modFn fn (fun f => f.setDword off v)).readOwn fn o = s.readOwn fn o := by
  have hopen : ∀ off, (s.modFn fn (fun f => f.setDword off v)).open_ fn = s.open_ fn := fun off =>
    open_modFn (congrArg (fun c => c.1.1) (Fn.setDword_config _ off v)) fn
  refine dwordOffs_cases ⟨?_, ?_, ?_, ?_, ?_, ?_, ?_⟩
  all_goals
    intro h
    unfold State.readOwn State.queueReach
    rw [hopen, State.fn_modFn_same]
    simp only [if_neg h]
    rfl

theorem Keeps.dword {s : State} {fn off : Nat} (v : W64) (ho : s.open_ fn = true) (h : off ∈ dwordOffs) : Keeps s fn v off (-1#64) := by
  obtain ⟨h8, hoff⟩ := dwordOffs_own off h
  refine Keeps.ownBlock ho h8 hoff (writeOwn_dword s fn v off h) (Fn.setDword_config _ off v) (fun o _ => ?_) (ofNat_toNat_all v)
  split
  · next e => rw [e, readOwn_setDword_same s fn v off h]
  · next e => exact readOwn_setDword_other s fn v off h e

/-! The tables of a function's own space. -/

/-- A kernel registration's dwords (R364). -/
def kernelWord (k : W64 × Nat) (j : Nat) : Nat := if j = 0 then k.1.toNat else k.2

/-- A kernel registration's dword written. -/
def setKernelWord (k : W64 × Nat) (j : Nat) (v : W64) : W64 × Nat := if j = 0 then (v, k.2) else (k.1, natField v.toNat 15 0)

section OwnTables

variable {s : State} {fn o : Nat}

theorem readOwn_kernel (h : 0x5000 ≤ o) (h' : o < 0x6000) (h8 : o % 8 = 0) :
    s.readOwn fn o = kernelWord (sget (0#64, 0) (s.fn fn).kernels ((o - 0x5000) / 16)) (o % 16 / 8) := by
  unfold State.readOwn
  simp (disch := omega) only [if_neg, if_pos]
  have hj : o % 16 / 8 = 0 ↔ o % 16 = 0 := by omega
  exact ite_congr (propext hj.symm) (fun _ => rfl) (fun _ => rfl)

theorem readOwn_window (h : 0x6000 ≤ o) (h' : o < 0x8000) :
    s.readOwn fn o = (sget Window.zero (s.fn fn).windows ((o - 0x6000) / 32)).word (o % 32 / 8) := by
  unfold State.readOwn
  simp (disch := omega) only [if_neg, if_pos]

theorem readOwn_group (h : 0x8000 ≤ o) (h' : o < 0x10000) :
    s.readOwn fn o = (sget Group.zero (s.fn fn).groups ((o - 0x8000) / 32)).word (o % 32 / 8) := by
  unfold State.readOwn
  simp (disch := omega) only [if_neg, if_pos]

/-- Where no table that changes shows, a block with changed tables reads as before. -/
theorem readOwn_modFn_tables {g : Fn → Fn} {ks : List (Nat × W64 × Nat)} {ws : List (Nat × Window)} {gs : List (Nat × Group)}
    (hg : g (s.fn fn) = { s.fn fn with kernels := ks, windows := ws, groups := gs }) (h8 : o % 8 = 0)
    (hk : 0x5000 ≤ o → o < 0x6000 → ks = (s.fn fn).kernels) (hw : 0x6000 ≤ o → o < 0x8000 → ws = (s.fn fn).windows)
    (hr : 0x8000 ≤ o → o < 0x10000 → gs = (s.fn fn).groups) : (s.modFn fn g).readOwn fn o = s.readOwn fn o := by
  by_cases ik : 0x5000 ≤ o ∧ o < 0x6000
  · rw [readOwn_kernel ik.1 ik.2 h8, readOwn_kernel ik.1 ik.2 h8, State.fn_modFn_same, hg, hk ik.1 ik.2]
  by_cases iw : 0x6000 ≤ o ∧ o < 0x8000
  · rw [readOwn_window iw.1 iw.2, readOwn_window iw.1 iw.2, State.fn_modFn_same, hg, hw iw.1 iw.2]
  by_cases ig : 0x8000 ≤ o ∧ o < 0x10000
  · rw [readOwn_group ig.1 ig.2, readOwn_group ig.1 ig.2, State.fn_modFn_same, hg, hr ig.1 ig.2]
  have hopen : (s.modFn fn g).open_ fn = s.open_ fn := open_modFn (by rw [hg]) fn
  unfold State.readOwn State.queueReach
  rw [hopen, State.fn_modFn_same, hg]
  simp only [if_neg ik, if_neg iw, if_neg ig]
  rfl

end OwnTables

/-- A table of a function's own space: where it stands, how many bytes a row takes, its rows in the block, and a row's dwords. -/
structure RegTable (β : Type) where
  base : Nat
  top : Nat
  size : Nat
  zero : β
  rows : Fn → List (Nat × β)
  setRows : Fn → List (Nat × β) → Fn
  word : β → Nat → Nat
  setWord : β → Nat → W64 → β

namespace RegTable

variable {β : Type} (T : RegTable β)

/-- The row in which an offset stands. -/
def row (f : Fn) (off : Nat) : β := sget T.zero (T.rows f) ((off - T.base) / T.size)

/-- The block with the dword at an offset written. -/
def put (off : Nat) (v : W64) (f : Fn) : Fn :=
  T.setRows f (sput (T.rows f) ((off - T.base) / T.size) (T.setWord (T.row f off) (off % T.size / 8) v))

/-- The table is one of the model's: its registers are read and written as its rows' dwords, and each dword of a row stands alone. -/
structure Models : Prop where
  size_eq : T.size = 16 ∨ T.size = 32
  base_mod : T.base % 32 = 0
  own : ∀ o, T.base ≤ o → o < T.top → OwnOff o
  rows_setRows : ∀ f m, T.rows (T.setRows f m) = m
  config : ∀ f m, (T.setRows f m).config = f.config
  reads : ∀ (s : State) fn o, T.base ≤ o → o < T.top → o % 8 = 0 → s.readOwn fn o = T.word (T.row (s.fn fn) o) (o % T.size / 8)
  writes : ∀ (s : State) fn off v, T.base ≤ off → off < T.top → off % 8 = 0 → s.writeOwn fn off v = s.modFn fn (T.put off v)
  elsewhere : ∀ (s : State) fn off v o, o % 8 = 0 → (o < T.base ∨ T.top ≤ o) →
    (s.modFn fn (T.put off v)).readOwn fn o = s.readOwn fn o
  word_other : ∀ x i j v, 8 * i < T.size → 8 * j < T.size → i ≠ j → T.word (T.setWord x j v) i = T.word x i

end RegTable

/-- A dword written to a register of such a table. -/
theorem Keeps.table {β : Type} {T : RegTable β} (hT : T.Models) {s : State} {fn off j : Nat} {v mask : W64} (ho : s.open_ fn = true)
    (hlo : T.base ≤ off) (hhi : off < T.top) (h8 : off % 8 = 0) (hj : off % T.size / 8 = j)
    (hx : ∀ x, BitVec.ofNat 64 (T.word (T.setWord x j v) j) = v &&& mask) : Keeps s fn v off mask := by
  subst hj
  refine Keeps.ownBlock ho h8 (hT.own off hlo hhi) (hT.writes s fn off v hlo hhi h8) (hT.config _ _) (fun o o8 => ?_) (hx (T.row (s.fn fn) off))
  by_cases hin : T.base ≤ o ∧ o < T.top
  · rw [hT.reads _ fn o hin.1 hin.2 o8, hT.reads s fn o hin.1 hin.2 o8, State.fn_modFn_same, RegTable.row, RegTable.put, hT.rows_setRows]
    have hput := table_put (o := o) hT.size_eq hT.base_mod hlo h8
      (F := fun k j => T.word (sget T.zero (T.rows (s.fn fn)) k) j)
      (G := fun k j => T.word (sget T.zero (sput (T.rows (s.fn fn)) ((off - T.base) / T.size)
        (T.setWord (T.row (s.fn fn) off) (off % T.size / 8) v)) k) j)
      (fun k j hk => by rw [sget_sput_other _ _ _ _ _ hk])
      (fun j hj hne => by
        have hoff : 8 * (off % T.size / 8) < T.size := by rcases hT.size_eq with e | e <;> rw [e] <;> omega
        simp only [sget_sput_same]
        exact hT.word_other _ j _ v hj hoff hne) hin.1 o8
    simpa only [sget_sput_same, RegTable.row] using hput
  · rw [if_neg (by rintro rfl; exact hin ⟨hlo, hhi⟩)]
    exact hT.elsewhere s fn off v o o8 (by omega)

/-- The regeneration kernels (R364). -/
def kernelTable : RegTable (W64 × Nat) :=
  ⟨0x5000, 0x6000, 16, (0#64, 0), Fn.kernels, fun f m => { f with kernels := m }, kernelWord, setKernelWord⟩

/-- The receive windows (R364). -/
def windowTable : RegTable Window :=
  ⟨0x6000, 0x8000, 32, Window.zero, Fn.windows, fun f m => { f with windows := m }, Window.word, Window.setWord⟩

/-- The reduction groups (R364). -/
def groupTable : RegTable Group :=
  ⟨0x8000, 0x10000, 32, Group.zero, Fn.groups, fun f m => { f with groups := m }, Group.word, Group.setWord⟩

theorem kernelTable_models : kernelTable.Models where
  size_eq := .inl rfl
  base_mod := rfl
  own o h h' := by
    have h : 0x5000 ≤ o := h
    have h' : o < 0x6000 := h'
    unfold OwnOff
    omega
  rows_setRows _ _ := rfl
  config _ _ := rfl
  reads s fn o h h' h8 := readOwn_kernel h h' h8
  writes s fn off v h h' h8 := by
    have h : 0x5000 ≤ off := h
    have h' : off < 0x6000 := h'
    unfold State.writeOwn
    simp (disch := omega) only [if_neg, if_pos]
    have hj : off % 16 = 0 ↔ off % 16 / 8 = 0 := by omega
    simp only [hj]
    rfl
  elsewhere s fn off v o h8 h := by
    have h : o < 0x5000 ∨ 0x6000 ≤ o := h
    exact readOwn_modFn_tables rfl h8 (by omega) (fun _ _ => rfl) (fun _ _ => rfl)
  word_other x i j v hi hj hne := by
    have hi : 8 * i < 16 := hi
    have hj : 8 * j < 16 := hj
    show kernelWord (setKernelWord x j v) i = kernelWord x i
    unfold kernelWord setKernelWord
    by_cases h : j = 0
    · simp [h, show i ≠ 0 from h ▸ hne]
    · simp [h, show i = 0 by omega]

theorem windowTable_models : windowTable.Models where
  size_eq := .inr rfl
  base_mod := rfl
  own o h h' := by
    have h : 0x6000 ≤ o := h
    have h' : o < 0x8000 := h'
    unfold OwnOff
    omega
  rows_setRows _ _ := rfl
  config _ _ := rfl
  reads s fn o h h' _ := readOwn_window h h'
  writes s fn off v h h' _ := by
    have h : 0x6000 ≤ off := h
    have h' : off < 0x8000 := h'
    unfold State.writeOwn
    simp (disch := omega) only [if_neg, if_pos]
    rfl
  elsewhere s fn off v o h8 h := by
    have h : o < 0x6000 ∨ 0x8000 ≤ o := h
    exact readOwn_modFn_tables rfl h8 (fun _ _ => rfl) (by omega) (fun _ _ => rfl)
  word_other x i j v hi hj hne := by
    have hi : 8 * i < 32 := hi
    have hj : 8 * j < 32 := hj
    exact x.word_setWord_other v (by omega) (by omega) hne

theorem groupTable_models : groupTable.Models where
  size_eq := .inr rfl
  base_mod := rfl
  own o h h' := by
    have h : 0x8000 ≤ o := h
    have h' : o < 0x10000 := h'
    unfold OwnOff
    omega
  rows_setRows _ _ := rfl
  config _ _ := rfl
  reads s fn o h h' _ := readOwn_group h h'
  writes s fn off v h h' _ := by
    have h : 0x8000 ≤ off := h
    have h' : off < 0x10000 := h'
    unfold State.writeOwn
    simp (disch := omega) only [if_neg, if_pos]
    rfl
  elsewhere s fn off v o h8 h := by
    have h : o < 0x8000 ∨ 0x10000 ≤ o := h
    exact readOwn_modFn_tables rfl h8 (fun _ _ => rfl) (fun _ _ => rfl) (by omega)
  word_other x i j v hi hj hne := by
    have hi : 8 * i < 32 := hi
    have hj : 8 * j < 32 := hj
    exact x.word_setWord_other v (by omega) (by omega) hne

/-! The queues' base addresses. -/

/-- A queue's dwords (R308). -/
def Queue.word (q : Queue) (j : Nat) : Nat :=
  match j with
  | 0 => q.base.toNat
  | 1 => q.ctl
  | 2 => q.rp
  | _ => q.wp

/-- QBASE written: it holds while the queue is Disabled (R309). -/
def Queue.setBase (v : W64) (q : Queue) : Queue := if q.st = 0 then { q with base := v } else q

theorem Queue.setBase_disabled {q : Queue} (v : W64) (h : q.st = 0) : q.setBase v = { q with base := v } := if_pos h

theorem Queue.fn_setBase (q : Queue) (v : W64) : (q.setBase v).fn = q.fn := by
  unfold Queue.setBase
  split <;> rfl

theorem Queue.word_setBase_other (q : Queue) (v : W64) {j : Nat} (h : j ≠ 0) : (q.setBase v).word j = q.word j := by
  unfold Queue.setBase
  split
  · unfold Queue.word
    split
    · exact absurd rfl h
    all_goals rfl
  · rfl

/-- What a function reads of a dword of a queue. -/
def State.queueWord (s : State) (fn k j : Nat) : Nat := if s.queueReach fn k then (s.queue k).word j else 0

section Queues

variable {s : State} {fn o k : Nat}

theorem readOwn_queue (h : 0x10000 ≤ o) (h' : o < 0x18000) : s.readOwn fn o = s.queueWord fn ((o - 0x10000) / 32) (o % 32 / 8) := by
  unfold State.readOwn State.queueWord
  simp (disch := omega) only [if_neg, if_pos]
  cases s.queueReach fn ((o - 0x10000) / 32) <;> rfl

theorem readOwn_modQueue_other (g : Queue → Queue) (h : o < 0x10000 ∨ 0x18000 ≤ o) : (s.modQueue k g).readOwn fn o = s.readOwn fn o := by
  have hq : ¬ (0x10000 ≤ o ∧ o < 0x18000) := by omega
  unfold State.readOwn
  simp only [if_neg hq]
  rfl

/-- A queue that keeps its function is reached as before. -/
theorem queueReach_modQueue {g : Queue → Queue} (hg : (g (s.queue k)).fn = (s.queue k).fn) (n : Nat) :
    (s.modQueue k g).queueReach fn n = s.queueReach fn n := by
  have hfn : ((s.modQueue k g).queue n).fn = (s.queue n).fn := by
    by_cases h : n = k
    · rw [h, State.queue_modQueue_same, hg]
    · rw [s.queue_modQueue_other g h]
  unfold State.queueReach
  rw [hfn]
  rfl

theorem queueReach_of (ho : s.open_ fn = true) (hk : k < 1024) (hf : fn = 0 ∨ (s.queue k).fn = fn) : s.queueReach fn k = true := by
  simp [State.queueReach, ho, hk, hf]

/-- A dword of a queue written by a function. -/
def State.writeQueue (s : State) (fn k j : Nat) (v : W64) : State :=
  if !(s.queueReach fn k) then s
  else match j with
    | 0 => s.modQueue k (Queue.setBase v)
    | 1 => if natField v.toNat 17 16 = 0 then s.modQueue k (fun q => q.setCtl (fn == 0) v) else s
    | _ => s

theorem writeOwn_queue (v : W64) (h : 0x10000 ≤ o) (h' : o < 0x18000) :
    s.writeOwn fn o v = s.writeQueue fn ((o - 0x10000) / 32) (o % 32 / 8) v := by
  unfold State.writeOwn
  simp (disch := omega) only [if_neg, if_pos]
  rfl

theorem writeOwn_queueBase (v : W64) (hk : k < 1024) (hr : s.queueReach fn k = true) :
    s.writeOwn fn (0x10000 + 32 * k) v = s.modQueue k (Queue.setBase v) := by
  rw [writeOwn_queue v (by omega) (by omega), show (0x10000 + 32 * k - 0x10000) / 32 = k by omega,
    show (0x10000 + 32 * k) % 32 / 8 = 0 by omega]
  simp only [State.writeQueue, hr]
  rfl

theorem writeOwn_queueCtl (v : W64) (hk : k < 1024) (hr : s.queueReach fn k = true) (hz : natField v.toNat 17 16 = 0) :
    s.writeOwn fn (0x10008 + 32 * k) v = s.modQueue k (fun q => q.setCtl (fn == 0) v) := by
  rw [writeOwn_queue v (by omega) (by omega), show (0x10008 + 32 * k - 0x10000) / 32 = k by omega,
    show (0x10008 + 32 * k) % 32 / 8 = 1 by omega]
  simp only [State.writeQueue, hr, hz]
  rfl

/-- The base of a queue that is Disabled (R309). -/
theorem Keeps.queueBase (v : W64) (ho : s.open_ fn = true) (hk : k < 1024) (hf : fn = 0 ∨ (s.queue k).fn = fn) (hst : (s.queue k).st = 0) :
    Keeps s fn v (0x10000 + 32 * k) (-1#64) := by
  have hoff : OwnOff (0x10000 + 32 * k) := by unfold OwnOff; omega
  have hrow : (0x10000 + 32 * k - 0x10000) / 32 = k := by omega
  have hdw : (0x10000 + 32 * k) % 32 / 8 = 0 := by omega
  have hr := queueReach_of ho hk hf
  have hreach := queueReach_modQueue (fn := fn) ((s.queue k).fn_setBase v)
  refine Keeps.own ho (by omega) hoff (writeOwn_queueBase v hk hr) rfl rfl (fun _ _ => rfl) (fun o o8 => ?_) (ofNat_toNat_all v)
  by_cases hin : 0x10000 ≤ o ∧ o < 0x18000
  · rw [readOwn_queue hin.1 hin.2, readOwn_queue hin.1 hin.2]
    have hput := table_put (o := o) (b := 0x10000) (off := 0x10000 + 32 * k) (.inr rfl) rfl (by omega) (by omega)
      (F := s.queueWord fn) (G := (s.modQueue k (Queue.setBase v)).queueWord fn)
      (fun n j hn => by
        rw [hrow] at hn
        rw [State.queueWord, State.queueWord, hreach, s.queue_modQueue_other _ hn])
      (fun j _ hne => by
        rw [hdw] at hne
        rw [hrow, State.queueWord, State.queueWord, hreach, State.queue_modQueue_same, Queue.word_setBase_other _ v hne])
      hin.1 o8
    rw [hput, hrow, hdw]
    refine ite_congr rfl (fun _ => ?_) (fun _ => rfl)
    rw [State.queueWord, hreach, hr, if_pos rfl, State.queue_modQueue_same, Queue.setBase_disabled v hst]
    rfl
  · rw [if_neg (by omega)]
    exact readOwn_modQueue_other _ (by omega)

end Queues

/-! ## Registers of the physical function -/

/-- A write that changes a function's configuration. -/
theorem Keeps.physBlock {s : State} {off f x : Nat} {v mask : W64} {g : Fn → Fn} (ho : s.open_ 0 = true) (h8 : off % 8 = 0) (h : PhysOff off)
    (hs : s.writePhys off v = s.modFn f g) (hg : (g (s.fn f)).SameOwn (s.fn f))
    (hr : ∀ o, o % 8 = 0 → (s.modFn f g).readPhys o = if o = off then x else s.readPhys o) (hx : BitVec.ofNat 64 x = v &&& mask) :
    Keeps s 0 v off mask :=
  Keeps.phys ho h8 h hs rfl (open_modFn (by rw [hg]) 0) (readOwn_modFn_config hg 0) hr hx

theorem readPhys_stage (s : State) {o : Nat} (h : 0x4000 ≤ o) (h' : o < 0x4080) : s.readPhys o = stageDword s.stc.stage (o - 0x4000) := by
  unfold State.readPhys
  rw [if_pos ⟨h, h'⟩]
  rfl

theorem writePhys_stage (s : State) {off : Nat} (v : W64) (h : 0x4000 ≤ off) (h' : off < 0x4080) :
    s.writePhys off v = s.modStc (fun c => { c with stage := stagePut c.stage (off - 0x4000) v.toNat }) := by
  unfold State.writePhys
  rw [if_pos ⟨h, h'⟩]
  rfl

/-- Beside the staging table its writes show nowhere. -/
theorem readPhys_modStage_other (s : State) (m : List (Nat × Nat)) {o : Nat} (h : o < 0x4000 ∨ 0x4080 ≤ o) :
    (s.modStc (fun c => { c with stage := m })).readPhys o = s.readPhys o := by
  have hs : ¬ (0x4000 ≤ o ∧ o < 0x4080) := by omega
  unfold State.readPhys
  rw [if_neg hs, if_neg hs]
  rfl

/-- The staging table (R184). -/
theorem Keeps.stage {s : State} {off : Nat} (v : W64) (ho : s.open_ 0 = true) (h8 : off % 8 = 0) (h : 0x4000 ≤ off) (h' : off < 0x4080) :
    Keeps s 0 v off 0x9F9F9F9F9F9F9F9F#64 := by
  refine Keeps.phys ho h8 (.inl (by omega)) (writePhys_stage s v h h') rfl rfl (fun _ => rfl) (fun o o8 => ?_)
    (ofNat_eq_and (x := v.toNat &&& 0x9F9F9F9F9F9F9F9F) rfl)
  by_cases hin : 0x4000 ≤ o ∧ o < 0x4080
  · rw [readPhys_stage _ hin.1 hin.2, readPhys_stage _ hin.1 hin.2]
    show stageDword (stagePut s.stc.stage (off - 0x4000) v.toNat) (o - 0x4000) = _
    split
    · next e => rw [e, stageDword_stagePut_same]
    · next e => exact stageDword_stagePut_other _ _ (by omega)
  · rw [if_neg (by omega)]
    exact readPhys_modStage_other s _ (by omega)

/-! The functions' blocks as the physical function writes them. -/

section Blocks

variable {s : State} {off : Nat} {v : W64}

theorem writePhys_fnReg (h : 0x20000 ≤ off) (h' : off < 0x20400) :
    s.writePhys off v = s.modFn ((off - 0x20000) / 32) (fun x => x.setReg (off % 32 / 8) v.toNat) := by
  unfold State.writePhys
  simp (disch := omega) only [if_neg, if_pos]

theorem Fn.setReg_sameOwn (x : Fn) (j n : Nat) : (x.setReg j n).SameOwn x := by
  unfold Fn.setReg
  split
  · split <;> rfl
  all_goals rfl

theorem Fn.setReg_wd (x : Fn) (j n : Nat) : (x.setReg j n).config.2 = x.config.2 := by
  unfold Fn.setReg
  split
  · split <;> rfl
  all_goals rfl

theorem Fn.setReg_ctl (x : Fn) {n : Nat} (h : n.testBit 31 = false) :
    x.setReg 0 n = { x with en := n.testBit 30, part := natField n 17 16, ways := natField n 15 0 } := by
  simp [Fn.setReg, h]

/-- FN_CTL written changes en, part and ways at most. -/
theorem Fn.setReg_zero (x : Fn) (n : Nat) : ∃ en part ways, x.setReg 0 n = { x with en := en, part := part, ways := ways } := by
  by_cases h : n.testBit 31 = true
  · exact ⟨x.en, x.part, x.ways, if_pos h⟩
  · exact ⟨_, _, _, if_neg h⟩

/-- The dwords of a function's block, u what FN_USE shows (R360). -/
def Fn.ctlReg (x : Fn) (u j : Nat) : Nat :=
  match j with
  | 0 => flag x.busy 32 + flag x.en 30 + x.part * 2 ^ 16 + x.ways
  | 1 => x.shq * 2 ^ 32 + x.vq
  | 2 => x.thr
  | _ => u

theorem fnReg_eq_ctlReg (s : State) (f j : Nat) :
    s.fnReg f j = (s.fn f).ctlReg ((s.home.budget.filter (fun b => b.fn == f)).length * 2 ^ 32 + s.vused f) j := by
  match j with
  | 0 => rfl
  | 1 => rfl
  | 2 => rfl
  | _ + 3 => rfl

/-- A dword written to a block leaves its others. -/
theorem Fn.ctlReg_setReg_other (x : Fn) (u n : Nat) {i j : Nat} (hi : i < 4) (hj : j < 4) (h : i ≠ j) :
    (x.setReg j n).ctlReg u i = x.ctlReg u i := by
  obtain ⟨en, part, ways, e⟩ := x.setReg_zero n
  have zero : ∀ i, (x.setReg 0 n).ctlReg u i = ({ x with en := en, part := part, ways := ways } : Fn).ctlReg u i := fun i =>
    congrArg (fun y => y.ctlReg u i) e
  exact two_of_four (P := fun i j => (x.setReg j n).ctlReg u i = x.ctlReg u i) ⟨zero 1, zero 2, zero 3⟩ ⟨rfl, rfl, rfl⟩ ⟨rfl, rfl, rfl⟩
    ⟨rfl, rfl, rfl⟩ hi hj h

/-- A dword written to a function's block leaves its others. -/
theorem fnReg_setReg_other (s : State) (f n : Nat) {i j : Nat} (hi : i < 4) (hj : j < 4) (h : i ≠ j) :
    (s.modFn f (fun x => x.setReg j n)).fnReg f i = s.fnReg f i := by
  rw [fnReg_eq_ctlReg, fnReg_eq_ctlReg, State.fn_modFn_same]
  exact (s.fn f).ctlReg_setReg_other _ n hi hj h

/-- A dword of a function's block (R360). -/
theorem Keeps.fnReg {f j : Nat} {mask : W64} (ho : s.open_ 0 = true) (hf : f < 32) (hj : j < 4)
    (hx : BitVec.ofNat 64 ((s.modFn f (fun x => x.setReg j v.toNat)).fnReg f j) = v &&& mask) : Keeps s 0 v (0x20000 + 32 * f + 8 * j) mask := by
  have hrow : (0x20000 + 32 * f + 8 * j - 0x20000) / 32 = f := by omega
  have hdw : (0x20000 + 32 * f + 8 * j) % 32 / 8 = j := by omega
  have hw := writePhys_fnReg (s := s) (off := 0x20000 + 32 * f + 8 * j) (v := v) (by omega) (by omega)
  rw [hrow, hdw] at hw
  have hown := Fn.setReg_sameOwn (s.fn f) j v.toNat
  refine Keeps.physBlock ho (by omega) (.inr (by omega)) hw hown (fun o o8 => ?_) hx
  by_cases hin : 0x20000 ≤ o ∧ o < 0x20400
  · rw [readPhys_fnReg _ hin.1 hin.2, readPhys_fnReg _ hin.1 hin.2]
    have hput := table_put (o := o) (b := 0x20000) (off := 0x20000 + 32 * f + 8 * j) (.inr rfl) rfl (by omega) (by omega)
      (F := s.fnReg) (G := (s.modFn f (fun x => x.setReg j v.toNat)).fnReg)
      (fun k i hk => fnReg_congr (congrArg (fun x : Fn => x.config.1) (s.fn_modFn_other _ (hrow ▸ hk))) rfl i)
      (fun i hi hne => by
        rw [hrow]
        exact fnReg_setReg_other s f _ (by omega) hj (hdw ▸ hne))
      hin.1 o8
    rwa [hrow, hdw] at hput
  · rw [if_neg (by omega)]
    exact readPhys_modFn_ctl (Fn.setReg_wd _ _ _) o8 (by omega)

/-- FN_CTL, no reset asked, of a function that is not being reset. -/
theorem Keeps.fnCtl {f : Nat} (ho : s.open_ 0 = true) (hf : f < 32) (hv : v.getLsbD 31 = false) (hb : (s.fn f).busy = false) :
    Keeps s 0 v (0x20000 + 32 * f) 0x4003FFFF#64 := by
  refine Keeps.fnReg (j := 0) ho hf (by decide) (ofNat_eq_and ?_)
  have hset := (s.fn f).setReg_ctl ((BitVec.testBit_toNat v).trans hv)
  have hread : (s.modFn f (fun x => x.setReg 0 v.toNat)).fnReg f 0
      = flag false 32 + flag (v.toNat.testBit 30) 30 + natField v.toNat 17 16 * 2 ^ 16 + natField v.toNat 15 0 := by
    simp only [State.fnReg, State.fn_modFn_same, hset, hb]
  rw [hread, show flag false 32 = 0 from rfl, Nat.zero_add]
  exact fnCtl_fields v.toNat

theorem Keeps.fnVthr {f : Nat} (ho : s.open_ 0 = true) (hf : f < 32) : Keeps s 0 v (0x20010 + 32 * f) 0xFFFFFFFF#64 := by
  have h := Keeps.fnReg (s := s) (v := v) (f := f) (j := 2) (mask := 0xFFFFFFFF#64) ho hf (by decide) (ofNat_eq_and (by
    simp only [State.fnReg, State.fn_modFn_same]
    exact natField_low_and v.toNat 31))
  rwa [show 0x20000 + 32 * f + 8 * 2 = 0x20010 + 32 * f by omega] at h

/-- FN_QUOTA holds what is written up to the numbers there are (R360). -/
theorem fnQuota_write {f : Nat} (ho : s.open_ 0 = true) (hf : f < 32) : Yields (.registerWrite 0 (0x20008 + 32 * f) v) s (fun s' =>
    s'.fn f = { s.fn f with shq := min (natField v.toNat 51 32) 524287, vq := min (natField v.toNat 10 0) 1024 }) := by
  refine ⟨_, registerWrite_phys ho (by omega) (.inr (by omega)), ?_⟩
  have hrow : (0x20008 + 32 * f - 0x20000) / 32 = f := by omega
  have hdw : (0x20008 + 32 * f) % 32 / 8 = 1 := by omega
  rw [writePhys_fnReg (by omega) (by omega), hrow, hdw]
  exact s.fn_modFn_same f _

/-- The watchdog counts' dwords written (R386). -/
def Fn.setWd (j n : Nat) (x : Fn) : Fn :=
  if j = 0 then { x with wdRow := natField n 63 32, wdSlat := natField n 31 0 } else { x with wdLnch := natField n 31 0 }

theorem Fn.setWd_sameOwn (x : Fn) (j n : Nat) : (x.setWd j n).SameOwn x := by
  unfold Fn.setWd
  split <;> rfl

theorem Fn.setWd_ctl (x : Fn) (j n : Nat) : (x.setWd j n).config.1 = x.config.1 := by
  unfold Fn.setWd
  split <;> rfl

theorem Fn.wdReg_setWd_other (x : Fn) {i j : Nat} (n : Nat) (hi : i < 2) (hj : j < 2) (h : i ≠ j) : (x.setWd j n).wdReg i = x.wdReg i := by
  obtain ⟨rfl, rfl⟩ | ⟨rfl, rfl⟩ : (i = 1 ∧ j = 0) ∨ (i = 0 ∧ j = 1) := by omega
  · simp only [Fn.setWd, Fn.wdReg, if_pos, if_neg Nat.one_ne_zero]
  · simp only [Fn.setWd, Fn.wdReg, if_pos, if_neg Nat.one_ne_zero]

theorem writePhys_wdReg (h : 0x20800 ≤ off) (h' : off < 0x20A00) (h8 : off % 8 = 0) :
    s.writePhys off v = s.modFn ((off - 0x20800) / 16) (Fn.setWd (off % 16 / 8) v.toNat) := by
  unfold State.writePhys
  simp (disch := omega) only [if_neg, if_pos]
  have hj : off % 16 = 0 ↔ off % 16 / 8 = 0 := by omega
  simp only [hj]
  rfl

/-- A dword of a function's watchdog counts. -/
theorem Keeps.wdReg {f j : Nat} {mask : W64} (ho : s.open_ 0 = true) (hf : f < 32) (hj : j < 2)
    (hx : BitVec.ofNat 64 (((s.fn f).setWd j v.toNat).wdReg j) = v &&& mask) : Keeps s 0 v (0x20800 + 16 * f + 8 * j) mask := by
  have hrow : (0x20800 + 16 * f + 8 * j - 0x20800) / 16 = f := by omega
  have hdw : (0x20800 + 16 * f + 8 * j) % 16 / 8 = j := by omega
  have hw := writePhys_wdReg (s := s) (off := 0x20800 + 16 * f + 8 * j) (v := v) (by omega) (by omega) (by omega)
  rw [hrow, hdw] at hw
  have hown := Fn.setWd_sameOwn (s.fn f) j v.toNat
  refine Keeps.physBlock ho (by omega) (.inr (by omega)) hw hown (fun o o8 => ?_) hx
  by_cases hin : 0x20800 ≤ o ∧ o < 0x20A00
  · rw [readPhys_wdReg _ hin.1 hin.2 o8, readPhys_wdReg _ hin.1 hin.2 o8]
    have hput := table_put (o := o) (b := 0x20800) (off := 0x20800 + 16 * f + 8 * j) (.inl rfl) rfl (by omega) (by omega)
      (F := fun k i => (s.fn k).wdReg i) (G := fun k i => ((s.modFn f (Fn.setWd j v.toNat)).fn k).wdReg i)
      (fun k i hk => by rw [s.fn_modFn_other _ (hrow ▸ hk)])
      (fun i hi hne => by
        rw [hrow, State.fn_modFn_same]
        exact Fn.wdReg_setWd_other _ _ (by omega) hj (hdw ▸ hne))
      hin.1 o8
    rwa [hrow, hdw, State.fn_modFn_same] at hput
  · rw [if_neg (by omega)]
    exact readPhys_modFn_wd (Fn.setWd_ctl _ _ _) (by omega)

theorem Keeps.fnWdt {f : Nat} (ho : s.open_ 0 = true) (hf : f < 32) :
    Keeps s 0 v (0x20800 + 16 * f) (-1#64) ∧ Keeps s 0 v (0x20808 + 16 * f) 0xFFFFFFFF#64 := by
  constructor
  · refine Keeps.wdReg (j := 0) ho hf (by decide) ?_
    have hfields : natField v.toNat 63 32 * 2 ^ 32 + natField v.toNat 31 0 = v.toNat := by
      simp only [natField, Nat.shiftRight_eq_div_pow]
      omega
    exact (congrArg _ hfields).trans (ofNat_toNat_all v)
  · have h := Keeps.wdReg (s := s) (v := v) (f := f) (j := 1) (mask := 0xFFFFFFFF#64) ho hf (by decide)
      (ofNat_eq_and (natField_low_and v.toNat 31))
    rwa [show 0x20800 + 16 * f + 8 * 1 = 0x20808 + 16 * f by omega] at h

end Blocks

/-! ## Errors cleared -/

/-- A change k of the function's block that leaves err's bit 0 is err cleared (R396). -/
theorem statusErrClear_clears {s : State} {fn off x : Nat} {k : Fn → Fn} (ho : s.open_ fn = true) (h : OwnOff off)
    (he : exec (.statusErrClear fn off) s = .next (s.modFn fn k)) (hb : (k (s.fn fn)).busy = (s.fn fn).busy)
    (hr : (s.modFn fn k).readOwn fn off = x) (hx : x.testBit 1 = false) :
    Yields (.statusErrClear fn off) s (fun s' => s' = s.modFn fn k ∧ s'.readReg fn off &&& 2#64 = 0#64) := by
  refine ⟨_, he, rfl, ?_⟩
  rw [readReg_own ((open_modFn hb fn).trans ho) h, hr]
  have hbit : (BitVec.ofNat 64 x).getLsbD 1 = false := by rw [BitVec.getLsbD_ofNat, hx]; rfl
  exact (BitVec.and_twoPow (BitVec.ofNat 64 x) 1).trans (if_neg (by rw [hbit]; exact Bool.false_ne_true))

/-- Which change of the block clears which register's err. -/
theorem statusErrClear_own {s : State} {fn : Nat} (ho : s.open_ fn = true) :
    exec (.statusErrClear fn 0x4408) s = .next (s.modFn fn (fun f => { f with ctxErr := false }))
      ∧ exec (.statusErrClear fn 0x4438) s = .next (s.modFn fn (fun f => { f with mmErr := false }))
      ∧ exec (.statusErrClear fn 0x4618) s = .next (s.modFn fn (fun f => { f with tdErr := false }))
      ∧ exec (.statusErrClear fn 0x4720) s = .next (s.modFn fn (fun f => { f with jxErr := false, jxWhy := 0 })) := by
  refine ⟨?_, ?_, ?_, ?_⟩
  all_goals
    show execStatusErrClear fn _ s = _
    simp [execStatusErrClear, ho]

/-- STC_STAT.err, of the physical function. -/
theorem statusErrClear_stc {s : State} (ho : s.open_ 0 = true) :
    exec (.statusErrClear 0 0x4088) s = .next { s with stc := { s.stc with err := false } } := by
  show execStatusErrClear 0 _ s = _
  simp [execStatusErrClear, ho, State.modStc]

/-- A busy flag leaves err's bit alone. -/
theorem flag_zero_testBit_one (b : Bool) : (flag b 0).testBit 1 = false := by
  cases b <;> rfl

/-- Each status register's err cleared, a function's own. -/
theorem statusErrClear_clears_own {s : State} {fn : Nat} (ho : s.open_ fn = true) :
    let clears := fun (off : Nat) (k : Fn → Fn) => Yields (.statusErrClear fn off) s (fun s' => s' = s.modFn fn k
      ∧ s'.readReg fn off &&& 2#64 = 0#64)
    clears 0x4408 (fun f => { f with ctxErr := false }) ∧ clears 0x4438 (fun f => { f with mmErr := false })
      ∧ clears 0x4618 (fun f => { f with tdErr := false }) ∧ clears 0x4720 (fun f => { f with jxErr := false, jxWhy := 0 }) := by
  obtain ⟨ctx, mm, td, jx⟩ := statusErrClear_own ho
  have own : OwnOff 0x4408 ∧ OwnOff 0x4438 ∧ OwnOff 0x4618 ∧ OwnOff 0x4720 := by simp [OwnOff]
  obtain ⟨octx, omm, otd, ojx⟩ := own
  refine ⟨statusErrClear_clears (x := 0) ho octx ctx rfl ?_ rfl,
    statusErrClear_clears (x := flag (s.fn fn).mmBusy.isSome 0) ho omm mm rfl ?_ (flag_zero_testBit_one _),
    statusErrClear_clears (x := flag (s.fn fn).tdBusy.isSome 0) ho otd td rfl ?_ (flag_zero_testBit_one _),
    statusErrClear_clears (x := flag (s.fn fn).jxBusy 0) ho ojx jx rfl ?_ (flag_zero_testBit_one _)⟩
  all_goals simp [State.readOwn, flag]

/-! ## The space -/

section Space

variable {s : State} {fn k : Nat} (v : W64)

theorem Keeps.kernels (ho : s.open_ fn = true) (hk : k < 256) :
    Keeps s fn v (0x5000 + 16 * k) (-1#64) ∧ Keeps s fn v (0x5008 + 16 * k) 0xFFFF#64 := by
  have kernel {off j : Nat} {mask : W64} := Keeps.table kernelTable_models (off := off) (j := j) (v := v) (mask := mask) ho
  simp only [kernelTable] at kernel
  exact ⟨kernel (j := 0) (by omega) (by omega) (by omega) (by omega) (fun _ => ofNat_toNat_all v),
    kernel (j := 1) (by omega) (by omega) (by omega) (by omega) (fun _ => ofNat_eq_and (natField_low_and v.toNat 15))⟩

theorem Keeps.windows (ho : s.open_ fn = true) (hk : k < 256) :
    Keeps s fn v (0x6000 + 32 * k) 0xC00000000000FFFF#64 ∧ Keeps s fn v (0x6008 + 32 * k) (-1#64) ∧ Keeps s fn v (0x6010 + 32 * k) (-1#64) := by
  have window {off j : Nat} {mask : W64} := Keeps.table windowTable_models (off := off) (j := j) (v := v) (mask := mask) ho
  simp only [windowTable] at window
  exact ⟨window (j := 0) (by omega) (by omega) (by omega) (by omega) (fun w => w.word_setWord_zero v),
    window (j := 1) (by omega) (by omega) (by omega) (by omega) (fun _ => ofNat_toNat_all v),
    window (j := 2) (by omega) (by omega) (by omega) (by omega) (fun _ => ofNat_toNat_all v)⟩

theorem Keeps.groups (ho : s.open_ fn = true) (hk : k < 1024) :
    Keeps s fn v (0x8000 + 32 * k) 0x8003FFFFFFFFFFFF#64 ∧ Keeps s fn v (0x8008 + 32 * k) 0xFFFFFFFF000000FF#64
      ∧ Keeps s fn v (0x8010 + 32 * k) (-1#64) ∧ Keeps s fn v (0x8018 + 32 * k) (-1#64) := by
  have group {off j : Nat} {mask : W64} := Keeps.table groupTable_models (off := off) (j := j) (v := v) (mask := mask) ho
  simp only [groupTable] at group
  exact ⟨group (j := 0) (by omega) (by omega) (by omega) (by omega) (fun g => g.word_setWord_zero v),
    group (j := 1) (by omega) (by omega) (by omega) (by omega) (fun g => g.word_setWord_one v),
    group (j := 2) (by omega) (by omega) (by omega) (by omega) (fun _ => ofNat_toNat_all v),
    group (j := 3) (by omega) (by omega) (by omega) (by omega) (fun _ => ofNat_toNat_all v)⟩

/-- QCTL written by a function that reaches the queue, its zero-field zero (R308). -/
theorem queueCtl_write (ho : s.open_ fn = true) (hk : k < 1024) (hf : fn = 0 ∨ (s.queue k).fn = fn) (hz : natField v.toNat 17 16 = 0) :
    Yields (.registerWrite fn (0x10008 + 32 * k) v) s (fun s' => s' = s.modQueue k (fun q => q.setCtl (fn == 0) v)) := by
  have hoff : OwnOff (0x10008 + 32 * k) := by unfold OwnOff; omega
  exact ⟨_, registerWrite_own ho (by omega) hoff, writeOwn_queueCtl v hk (queueReach_of ho hk hf) hz⟩

theorem open_of (hr : s.boot.ready = true) (hb : (s.fn fn).busy = false) : s.open_ fn = true := by
  simp [State.open_, hr, hb]

end Space

/-- Settles O52: each register by what its write changes, those of a table by its rows. -/
theorem registerSpace : Obligations.RegisterSpace := by
  unfold Obligations.RegisterSpace
  intro s fn v hready hbusy
  have ho := open_of hready hbusy
  refine ⟨fun off h => Keeps.dword v ho h, fun k hk => ?_, fun k hk => ?_, fun h0 => ?_, ?_⟩
  · obtain ⟨record, ctx⟩ := Keeps.kernels v ho hk
    exact ⟨record, ctx, Keeps.windows v ho hk⟩
  · obtain ⟨w0, w1, w2, w3⟩ := Keeps.groups v ho hk
    exact ⟨w0, w1, w2, w3, fun hf => ⟨Keeps.queueBase v ho hk hf, queueCtl_write v ho hk hf⟩⟩
  · subst h0
    refine ⟨fun k hk => Keeps.stage v ho (by omega) (by omega) (by omega), fun g hg => ?_⟩
    obtain ⟨wd, lnch⟩ := Keeps.fnWdt (v := v) ho hg
    exact ⟨Keeps.fnVthr ho hg, wd, lnch, Keeps.fnCtl ho hg, fnQuota_write ho hg⟩
  · obtain ⟨ctx, mm, td, jx⟩ := statusErrClear_clears_own ho
    refine ⟨ctx, mm, td, jx, fun h0 => ?_⟩
    subst h0
    exact ⟨_, statusErrClear_stc ho, rfl⟩

end Sys2Proof.Machine
end

section
/-! SUPPORT. Words of the encoding tables: when a word decodes to a row of the map, when a header word is accepted, and O1. -/

namespace Sys2Proof

/-- A word whose opcode has a row in the map decodes to that row's instruction, its operands those of the row's format, unless a reason of
R57 applies to it. -/
theorem decodeWord_of_row {α : Type} {w : W64} {op : Nat} {mk : α → Instr} {parse : W64 → α} {o : α} (hop : opField w = op)
    (hrow : ofOp w op = some (mk (parse w))) (hparse : parse w = o) (hwf : (mk o).wf = true) (hbody : op < 0x3F0 := by decide) :
    decodeWord w = .ok (mk o) := by
  have hreasons : (mk o).reasons = [] := List.isEmpty_iff.1 hwf
  simp only [decodeWord, hop, if_neg (Nat.not_le.2 hbody), hrow, hparse, hreasons, List.min?_nil]

/-- A word with the marker of a header whose fields keep R53 is accepted, with those fields (R33). -/
theorem decodeHeader_of_fields {w : W64} {h : Header} (hmark : isHeader w = true) (hfields : headerOf w = h) (hctr : h.tctr ≠ 6#3)
    (hthr : h.tctr = 7#3 → h.thr = 0#4) (hmask : h.mask.getLsbD h.tctr.toNat = false) (hcls : h.cls.toNat < 5)
    (hzero : w.extractLsb' 0 37 = 0#37) : decodeHeader w = .ok h := by
  have hthreshold : (h.tctr == 7#3 && h.thr != 0#4) = false := by
    simpa only [Bool.and_eq_false_imp, beq_iff_eq, bne_eq_false_iff_eq] using hthr
  simp [decodeHeader, hmark, hfields, hctr, hthreshold, hmask, hcls, hzero]

/-- Settles O1: each word by the row of its opcode and the format that row gives it, the header by its fields. -/
theorem decodedWords : Obligations.DecodedWords := by
  unfold Obligations.DecodedWords
  exact ⟨decodeWord_of_row (op := 0x001) (mk := .sadd) (parse := parseR) rfl rfl rfl rfl,
    decodeWord_of_row (op := 0x041) (mk := .saddI) (parse := parseI) rfl rfl rfl rfl,
    decodeWord_of_row (op := 0x085) (mk := .exit) (parse := parseZ) rfl rfl rfl rfl,
    decodeWord_of_row (op := 0x280) (mk := .ld) (parse := parseM) rfl rfl rfl rfl,
    decodeWord_of_row (op := 0x3B7) (mk := .ctxs) (parse := parseY) rfl rfl rfl rfl,
    decodeWord_of_row (op := 0x3B8) (mk := .ctxl) (parse := parseY) rfl rfl rfl rfl,
    decodeWord_of_row (op := 0x300) (mk := .atmAdd) (parse := parseM) rfl rfl rfl rfl,
    decodeWord_of_row (op := 0x340) (mk := .cpy) (parse := parseX) rfl rfl rfl rfl,
    decodeWord_of_row (op := 0x380) (mk := .mmaF8) (parse := parseT) rfl rfl rfl rfl,
    decodeHeader_of_fields rfl rfl (by decide) (fun _ => rfl) rfl (by decide) rfl⟩

end Sys2Proof
end

section
/-! SUPPORT. Reset: what the tables of the hub read as before anything is written to them, and O6. -/

namespace Sys2Proof.Machine

open Sys2Proof

/-- After reset every queue is as its own reset leaves it (R309). -/
theorem State.queue_reset (q : Nat) : State.reset.queue q = Queue.reset := rfl

/-- After reset every function's block is as its own reset leaves it (R360). -/
theorem State.fn_reset (f : Nat) : State.reset.fn f = Fn.reset f := rfl

/-- Settles O6: the lists are empty and the boot state is written out; a queue or a function that is not listed reads as its own reset. -/
theorem resetState : Obligations.ResetState := by
  unfold Obligations.ResetState
  have queues (q : Nat) : (State.reset.queue q).st = 0 ∧ (State.reset.queue q).rp = 0 ∧ (State.reset.queue q).wp = 0 := by
    rw [State.queue_reset]
    exact ⟨rfl, rfl, rfl⟩
  have enabled (f : Nat) : (State.reset.fn f).en = decide (f = 0) := by rw [State.fn_reset]; rfl
  have quotas (f : Nat) : (State.reset.fn f).vq = 32 ∧ (State.reset.fn f).shq = 2048 ∧ (State.reset.fn f).thr = 4096 := by
    rw [State.fn_reset]
    exact ⟨rfl, rfl, rfl⟩
  exact ⟨rfl, rfl, rfl, rfl, queues, enabled, quotas, rfl, rfl, rfl, rfl⟩

end Sys2Proof.Machine
end

section
/-! SUPPORT. Scalar moves and counts: what an instruction of the scalar shape does, leading zeros, and O10. -/

namespace Sys2Proof.Machine

open Sys2Proof

/-- An instruction of the scalar shape, its guards held and its sources unmarked, has the effect of its shape. -/
theorem exec_of_scaDo {i : Instr} {s s' : State} {t : Slat} {u : Issue} {h : Hdr} {srcs : List Src} {k : Slat → Issue → State}
    (hf : s.frag = some (t, u)) (hg : t.qHolds h = true) (hp : ∀ x ∈ srcs, (t.srcS x).2 = false) (he : exec i s = scaDo s h srcs k)
    (hk : k t u = s') : exec i s = .next s' := by
  rw [he, scaDo_next k hf hg hp, hk]

theorem leadZeros_zero {n : Nat} {a : BitVec n} (h : a.toNat = 0) : leadZeros a = n := if_pos h

/-- The leading one of a word that is not zero stands below its leading zeros. -/
theorem leadZeros_add_log2 {n : Nat} {a : BitVec n} (h : a.toNat ≠ 0) : leadZeros a + a.toNat.log2 + 1 = n := by
  have hlog : a.toNat.log2 < n := (Nat.log2_lt h).2 a.isLt
  rw [leadZeros, if_neg h]
  omega

theorem leadZeros_le {n : Nat} (a : BitVec n) : leadZeros a ≤ n := by
  by_cases h : a.toNat = 0
  · exact Nat.le_of_eq (leadZeros_zero h)
  · have hsum := leadZeros_add_log2 h
    omega

/-- A number shifted down to its leading one is 1. -/
theorem div_two_pow_log2 {x : Nat} (h : x ≠ 0) : x / 2 ^ x.log2 = 1 :=
  Nat.div_eq_of_lt_le (by simpa using Nat.log2_self_le h) (by simpa [Nat.pow_succ, Nat.mul_comm] using Nat.lt_log2_self (n := x))

/-- Shifting down past all places below the leading zeros leaves the leading one. -/
theorem div_leadZeros {a : W64} (h : a.toNat ≠ 0) : a.toNat / 2 ^ (63 - leadZeros a) = 1 ∧ leadZeros a < 64 := by
  have hsum := leadZeros_add_log2 h
  have hplace : 63 - leadZeros a = a.toNat.log2 := by omega
  exact ⟨hplace ▸ div_two_pow_log2 h, by omega⟩

/-- A word shifted left by the width of a field, with the field below it, is their sum. -/
theorem shiftLeft_or_zext64 {n : Nat} (a : W64) (x : BitVec n) :
    a <<< n ||| zext64 x = BitVec.ofNat 64 (a.toNat * 2 ^ n + x.toNat) := by
  have disjoint : a <<< n &&& zext64 x = 0 := by
    ext i hi
    by_cases hin : i < n
    · simp [hin]
    · simp [BitVec.getLsbD_of_ge x i (Nat.le_of_not_lt hin)]
  rw [← BitVec.add_eq_or_of_and_eq_zero _ _ disjoint]
  apply BitVec.eq_of_toNat_eq
  simp [Nat.shiftLeft_eq]

/-- Settles O10: each is one write of the scalar shape; sclz by the place of the leading one, slih by the sum of disjoint fields. -/
theorem scalarMoves : Obligations.ScalarMoves := by
  unfold Obligations.ScalarMoves
  refine ⟨fun s t u o hf hg hp => ?_, fun s t u o hf hg => ⟨?_, fun hp => ?_⟩⟩
  · have one : ∀ x ∈ [o.a], (t.srcS x).2 = false := List.forall_mem_singleton.2 hp
    refine ⟨.of (exec_of_scaDo hf hg one rfl rfl), ⟨leadZeros (t.srcS o.a).1, leadZeros_le _, ?_, leadZeros_zero, div_leadZeros⟩, ?_,
      fun hb => ?_⟩
    · exact .of (exec_of_scaDo hf hg one rfl rfl)
    · exact .of (exec_of_scaDo hf hg one rfl rfl)
    · exact .of (exec_of_scaDo hf hg (List.forall_mem_cons.2 ⟨hp, List.forall_mem_singleton.2 hb⟩) rfl rfl)
  · exact .of (exec_of_scaDo hf hg (List.forall_mem_nil _) rfl rfl)
  · rw [← shiftLeft_or_zext64]
    exact .of (exec_of_scaDo hf hg (List.forall_mem_singleton.2 hp) rfl rfl)

end Sys2Proof.Machine
end

section
/-! SUPPORT. Translation registers: what sxlat makes of its base, by cases on the TLBs, and O15. -/

namespace Sys2Proof.Machine

open Sys2Proof

@[simp] theorem Slat.bget_bput_same (t : Slat) (n : Nat) (x : TReg) : (t.bput n x).bget n = x := by
  simp [Slat.bget, Slat.bput]

theorem Slat.bget_bput_other (t : Slat) {n k : Nat} (x : TReg) (h : k ≠ n) : (t.bput n x).bget k = t.bget k := by
  simp [Slat.bget, Slat.bput, Sys2Proof.sget_sput_other _ _ _ _ _ h]

section Bases

variable {s s1 : State} {t : Slat} {a : W64}

/-- A base that is not canonical resolves nothing and looks nothing up (R111, R156). -/
theorem State.xlat_of_not_canonical (hc : canonical a = false) : s.xlat t a = (none, s) := by
  simp [State.xlat, hc]

/-- A base that a TLB holds resolves as its leaf lets it (R111). -/
theorem State.xlat_of_hit {e : TlbEnt} (hc : canonical a = true) (hl : s.tlbLook t.core t.ctx t.part a = (some e, s1)) :
    s.xlat t a = (t.resolveB e a, s1) := by
  simp [State.xlat, hc, hl]

/-- A base that no TLB holds stays unresolved; its walk is taken where its lines are at hand (R111). -/
theorem State.xlat_of_miss (hc : canonical a = true) (hl : s.tlbLook t.core t.ctx t.part a = (none, s1)) :
    s.xlat t a = (none,
      if s1.hubOk true (s1.walkLines t.ctx t.part a) = true then
        (s1.lookup t.core t.ctx t.part a).2.hubFree true (s1.walkLines t.ctx t.part a)
      else s1) := by
  simp [State.xlat, hc, hl]

end Bases

/-- sxlat, its guards held and its source unmarked, writes what the base resolves to (R111). -/
theorem sxlat_next {s s' : State} {t : Slat} {u : Issue} {o : ROp} {r : Option TRes} (hf : s.frag = some (t, u))
    (hg : t.qHolds o.h = true) (hp : (t.srcS o.a).2 = false) (hx : s.xlat t (t.srcS o.a).1 = (r, s')) :
    exec (.sxlat o) s = .next (s'.advance (t.bput (o.dst.toNat % 16) ⟨(t.srcS o.a).1, r⟩) u) := by
  refine exec_of_scaDo hf hg (List.forall_mem_singleton.2 hp) rfl ?_
  simp only [hx]

/-- Settles O15: sxlat writes what its base resolves to; the base by cases on its form, the TLBs and the lines of its walk. -/
theorem translationRegister : Obligations.TranslationRegister := by
  unfold Obligations.TranslationRegister
  intro s t u o hf hg hp a n
  refine ⟨fun hc => sxlat_next hf hg hp (State.xlat_of_not_canonical hc),
    fun e s1 hc hl => sxlat_next hf hg hp (State.xlat_of_hit hc hl), fun s1 hc hl => ⟨fun hw => ?_, fun hw => ?_⟩,
    t.bget_bput_same n _, fun k x hk => t.bget_bput_other x hk⟩
  · exact sxlat_next hf hg hp ((State.xlat_of_miss hc hl).trans (by rw [if_pos hw]))
  · exact sxlat_next hf hg hp ((State.xlat_of_miss hc hl).trans (by rw [hw]; rfl))

end Sys2Proof.Machine
end

section
/-! SUPPORT. The split table: entries written and read, lanes that have left it and stay out of it, uniform control flow, and O16. -/

namespace Sys2Proof

/-- What a map holds after every value has been changed by a function that keeps the value of what is not listed. -/
theorem sget_map {β : Type} {d : β} {f : β → β} (hd : f d = d) (m : List (Nat × β)) (i : Nat) :
    sget d (m.map (fun e => (e.1, f e.2))) i = f (sget d m i) := by
  induction m with
  | nil => exact hd.symm
  | cons c m ih =>
    simp only [List.map_cons, sget, ih]
    split <;> rfl

end Sys2Proof

namespace Sys2Proof.Machine

open Sys2Proof

@[simp] theorem Slat.ent_setEnt_same (t : Slat) (e : Nat) (x : SplitEntry) : (t.setEnt e x).ent e = x := by
  simp [Slat.ent, Slat.setEnt]

theorem Slat.ent_setEnt_other (t : Slat) {e k : Nat} (x : SplitEntry) (h : k ≠ e) : (t.setEnt e x).ent k = t.ent k := by
  simp [Slat.ent, Slat.setEnt, Sys2Proof.sget_sput_other _ _ _ _ _ h]

/-- A slat that is t0 but for its split table and deferral records, none of which names a lane of m. -/
structure Slat.Without (t0 : Slat) (m : W32) (t : Slat) : Prop where
  rest : ∃ sp rs, t = { t0 with split := sp, recs := rs }
  ents : ∀ e, (t.ent e).mask &&& m = 0
  recs : ∀ r ∈ t.recs, r.mask &&& m = 0 ∧ r.fmask &&& m = 0

theorem and_not_and_self (x m : W32) : x &&& ~~~m &&& m = 0 := by
  simp [BitVec.and_assoc, BitVec.and_comm (~~~m)]

/-- Removed lanes are in no mask and in no record (R115). -/
theorem dropLanes_without (t : Slat) (m : W32) : t.Without m (dropLanes t m) where
  rest := ⟨_, _, rfl⟩
  ents e := by
    have hent : (dropLanes t m).ent e = { t.ent e with mask := (t.ent e).mask &&& ~~~m, pend := (t.ent e).pend &&& ~~~m } :=
      sget_map (f := fun x : SplitEntry => { x with mask := x.mask &&& ~~~m, pend := x.pend &&& ~~~m }) (by simp [SplitEntry.free])
        t.split e
    rw [hent]
    exact and_not_and_self _ m
  recs r hr := by
    obtain ⟨r0, -, rfl⟩ := List.mem_map.1 hr
    exact ⟨and_not_and_self _ m, and_not_and_self _ m⟩

/-- The youngest record of an entry is one of the records, and so are the others. -/
theorem mem_of_lastRec {rs rest : List DefRec} {e : Nat} {r : DefRec} (h : lastRec rs e = some (r, rest)) :
    r ∈ rs ∧ ∀ x ∈ rest, x ∈ rs := by
  unfold lastRec at h
  split at h
  · cases h
  · next r0 hfind =>
    cases h
    exact ⟨List.mem_reverse.1 (List.mem_of_find?_eq_some hfind),
      fun x hx => List.mem_reverse.1 (List.mem_of_mem_erase (List.mem_reverse.1 hx))⟩

section Lanes

variable {t0 t : Slat} {m : W32}

/-- What reads neither the split table nor the records reads as it did. -/
theorem Slat.Without.same {α : Type} (h : t0.Without m t) (f : Slat → α)
    (hf : ∀ sp rs, f { t0 with split := sp, recs := rs } = f t0) : f t = f t0 := by
  obtain ⟨sp, rs, rfl⟩ := h.rest
  exact hf sp rs

/-- Lanes that have left stay out of the split table when an entry is written without them. -/
theorem Slat.Without.setEnt (h : t0.Without m t) (e : Nat) {x : SplitEntry} (hx : x.mask &&& m = 0) : t0.Without m (t.setEnt e x) where
  rest := by
    obtain ⟨sp, rs, rfl⟩ := h.rest
    exact ⟨_, _, rfl⟩
  ents k := by
    by_cases hk : k = e
    · rw [hk, Slat.ent_setEnt_same, hx]
    · rw [Slat.ent_setEnt_other t x hk, h.ents k]
  recs := h.recs

/-- They stay out when an entry is freed. -/
theorem Slat.Without.freeEnt (h : t0.Without m t) (e : Nat) : t0.Without m (t.setEnt e SplitEntry.free) :=
  h.setEnt e (BitVec.zero_and)

/-- They stay out when the records become others without them. -/
theorem Slat.Without.setRecs (h : t0.Without m t) {rs : List DefRec} (hr : ∀ r ∈ rs, r.mask &&& m = 0 ∧ r.fmask &&& m = 0) :
    t0.Without m { t with recs := rs } where
  rest := by
    obtain ⟨sp, _, rfl⟩ := h.rest
    exact ⟨sp, rs, rfl⟩
  ents := h.ents
  recs := hr

/-- They stay out through the joins that follow an arrival (R114): every mask an entry takes is one that the table or a record held. -/
theorem Slat.Without.arrive (fuel : Nat) : ∀ {t : Slat} (_ : t0.Without m t) (e : Nat), t0.Without m (t.arrive e fuel) := by
  induction fuel with
  | zero => exact fun h _ => h
  | succ fuel ih =>
    intro t h e
    simp only [Slat.arrive]
    split
    case isTrue => exact h
    case isFalse =>
      split
      · split
        · exact h
        · next r rest hlast =>
          obtain ⟨hr, hrest⟩ := mem_of_lastRec hlast
          obtain ⟨hmask, hfmask⟩ := h.recs r hr
          have others : ∀ x ∈ rest, x.mask &&& m = 0 ∧ x.fmask &&& m = 0 := fun x hx => h.recs x (hrest x hx)
          have turned : ∀ x ∈ rest ++ [{ r with phase := 2 }], x.mask &&& m = 0 ∧ x.fmask &&& m = 0 :=
            List.forall_mem_append.2 ⟨others, List.forall_mem_singleton.2 ⟨hmask, hfmask⟩⟩
          split
          · exact ih ((h.setRecs turned).setEnt e (by exact hfmask)) e
          · exact ih ((h.setRecs others).setEnt e (by exact hmask)) e
      · next j _ =>
        have lowered {p : W32} := (h.freeEnt e).setEnt j (x := { t.ent j with pend := p }) (h.ents j)
        split
        · exact lowered
        · split
          · exact lowered.freeEnt j
          · exact ih (lowered.setEnt j (by exact h.ents j)) j
      · split
        · exact h.freeEnt e
        · exact h

/-- They stay out when the entries that have lost their last lane move on (R115). -/
theorem Slat.Without.settleSplit (h : t0.Without m t) : t0.Without m t.settleSplit := by
  have arrivals : t0.Without m ((List.range 8).foldl
      (fun (t : Slat) e => if (t.ent e).st = .running ∧ (t.ent e).mask = 0 then t.arrive e 64 else t) t) := by
    refine List.foldlRecOn _ _ h (fun t ht e _ => ?_)
    split
    · exact ht.arrive 64 e
    · exact ht
  refine List.foldlRecOn _ _ arrivals (fun t ht j _ => ?_)
  dsimp only
  split
  · exact (ht.setEnt j (by exact ht.ents j)).arrive 64 j
  · exact ht

end Lanes

theorem getLsbD_of_and_eq_zero {x m : W32} {l : Nat} (h : x &&& m = 0) (hl : m.getLsbD l = true) : x.getLsbD l = false := by
  have hbit := congrArg (fun y : W32 => y.getLsbD l) h
  simpa [hl] using hbit

/-- Settles O16: each branch is one write of the fragment's entry; after exit the lanes are in no mask or record, and stay out. -/
theorem controlFlow : Obligations.ControlFlow := by
  unfold Obligations.ControlFlow
  refine ⟨fun s t u hf => ⟨fun o hg => ?_, fun o hg hp => ?_, fun o => onFrag_next _ hf, fun k x hk => t.ent_setEnt_other x hk⟩,
    fun s t u o hf hg => ?_⟩
  · have noSource : ∀ x ∈ ([] : List Src), (t.srcS x).2 = false := List.forall_mem_nil _
    exact ⟨exec_of_scaDo hf hg noSource rfl rfl, exec_of_scaDo hf hg noSource rfl rfl, exec_of_scaDo hf hg noSource rfl rfl,
      exec_of_scaDo hf hg noSource rfl rfl⟩
  · have one : ∀ x ∈ [o.a], (t.srcS x).2 = false := List.forall_mem_singleton.2 hp
    exact ⟨exec_of_scaDo hf hg one rfl rfl, exec_of_scaDo hf hg one rfl rfl⟩
  · have left := (dropLanes_without t (t.ent u.ent).mask).settleSplit
    exact ⟨(dropLanes t (t.ent u.ent).mask).settleSplit, exec_of_scaDo hf hg (List.forall_mem_nil _) rfl rfl,
      left.same Slat.queue (fun _ _ => rfl), left.same Slat.log (fun _ _ => rfl), left.same Slat.v (fun _ _ => rfl),
      left.same Slat.s (fun _ _ => rfl), left.same Slat.insts (fun _ _ => rfl),
      fun l _ hl => ⟨fun e _ _ => getLsbD_of_and_eq_zero (left.ents e) hl, fun r hr => getLsbD_of_and_eq_zero (left.recs r hr).1 hl⟩⟩

end Sys2Proof.Machine
end

section
/-! SUPPORT. The divergent branch: where the two sides of a split go, and O17. -/

namespace Sys2Proof.Machine

open Sys2Proof

section Sides

variable {t : Slat} {e : Nat} {tk fl : W32} {tgt ft rv : W64}

/-- Two free entries take the two sides, and the fragment waits (R113). -/
theorem Slat.split_of_free_pair {a b : Nat} {rest : List Nat} (h : upTo 8 (fun k => (t.ent k).st == .free) = a :: b :: rest) :
    t.split_ e tk fl tgt ft rv = some (((t.setEnt e { t.ent e with st := .waiting, pc := rv, pend := (t.ent e).mask }).setEnt a
        { SplitEntry.free with st := .running, mask := tk, pc := tgt, rcv := some rv, join := .entry e }).setEnt b
        { SplitEntry.free with st := .running, mask := fl, pc := ft, rcv := some rv, join := .entry e }) := by
  simp [Slat.split_, h]

/-- With fewer free entries a record takes the fall-through side, while there is room for one (R113). -/
theorem Slat.split_of_few_free (h : (upTo 8 (fun k => (t.ent k).st == .free)).length < 2) :
    t.split_ e tk fl tgt ft rv = if t.recs.length < 32 then
        some (({ t with recs := t.recs ++ [⟨e, fl, ft, (t.ent e).mask, (t.ent e).rcv, (t.ent e).join, 1⟩] } : Slat).setEnt e
          { t.ent e with mask := tk, pc := tgt, rcv := some rv, join := .deferred })
      else none := by
  unfold Slat.split_
  split
  · next a b rest hfree =>
    rw [hfree, List.length_cons, List.length_cons] at h
    omega
  · rfl

end Sides

section Branch

variable {s : State} {t : Slat} {u : Issue} {o : IOp}

/-- The lanes of the issuing fragment that take a branch. -/
def Slat.taken (t : Slat) (u : Issue) (o : IOp) : W32 := laneMask (t.active u o.h)

/-- Its lanes that fall through. -/
def Slat.fallen (t : Slat) (u : Issue) (o : IOp) : W32 := (t.ent u.ent).mask &&& ~~~t.taken u o

/-- The split table after a branch that lanes of both kinds meet, if there is room in it. -/
def Slat.branched (t : Slat) (u : Issue) (o : IOp) : Option Slat :=
  t.split_ u.ent (t.taken u o) (t.fallen u o) (u.target o) u.after (u.h + o.rvOff.signExtend 64)

/-- No lane takes the branch: the fragment goes on after the clause (R113). -/
theorem braDivergent_falls (hf : s.frag = some (t, u)) (htk : t.taken u o = 0) :
    Completes (.braDivergent o) s (t.goto u u.after) u :=
  (onFrag_next _ hf).trans (congrArg _ (if_pos htk))

/-- Every lane takes the branch: the fragment goes to the target (R113). -/
theorem braDivergent_jumps (hf : s.frag = some (t, u)) (htk : t.taken u o ≠ 0) (hfl : t.fallen u o = 0) :
    Completes (.braDivergent o) s (t.goto u (u.target o)) u :=
  (onFrag_next _ hf).trans (congrArg _ ((if_neg htk).trans (if_pos hfl)))

/-- Lanes of both kinds: the branch completes with the split table that holds them (R113). -/
theorem braDivergent_splits {t' : Slat} (hf : s.frag = some (t, u)) (htk : t.taken u o ≠ 0) (hfl : t.fallen u o ≠ 0)
    (hs : t.branched u o = some t') : Completes (.braDivergent o) s t' u := by
  refine (onFrag_next _ hf).trans (congrArg _ ((if_neg htk).trans ((if_neg hfl).trans ?_)))
  simp only [Slat.branched, Slat.taken, Slat.fallen] at hs
  rw [hs]

/-- Lanes of both kinds and no room for them: an ALU clause is stopped with BOUNDS (R113). -/
theorem braDivergent_full (hf : s.frag = some (t, u)) (htk : t.taken u o ≠ 0) (hfl : t.fallen u o ≠ 0)
    (hs : t.branched u o = none) (hc : u.cls = .alu) : exec (.braDivergent o) s = .next (s.abortAlu t u u.splitFull) := by
  refine (onFrag_next _ hf).trans (congrArg _ ((if_neg htk).trans ((if_neg hfl).trans ?_)))
  simp only [Slat.branched, Slat.taken, Slat.fallen] at hs
  rw [hs, hc]

end Branch

/-- Settles O17: by which lanes take the branch, then by the room that the split table and the records have. -/
theorem divergentBranch : Obligations.DivergentBranch := by
  unfold Obligations.DivergentBranch
  intro s t u o hf
  refine ⟨braDivergent_falls hf, braDivergent_jumps hf, fun a b rest htk hfl hfree => ?_, fun htk hfl hfew hroom => ?_,
    fun htk hfl hfew hfull hc => ⟨u.splitFull, rfl, rfl, rfl, ?_⟩⟩
  · exact braDivergent_splits hf htk hfl (Slat.split_of_free_pair hfree)
  · exact braDivergent_splits hf htk hfl ((Slat.split_of_few_free hfew).trans (if_pos hroom))
  · exact braDivergent_full hf htk hfl ((Slat.split_of_few_free hfew).trans (if_neg (Nat.not_lt.2 hfull))) hc

end Sys2Proof.Machine
end
